-- ==== Sys2Proof/Word.lean ====
section
/-! DEFINITION. The word types of the block: bytes, the 32-bit register word and cause vectors. -/

namespace Sys2Proof

/-- A byte of frame or memory data (spec/00, Notation). -/
abbrev Byte := BitVec 8

/-- A register word: 32 bits, little-endian (spec/00, Notation). -/
abbrev Word := BitVec 32

/-- A 16-bit cause vector of the interrupt tree (R57, R115). -/
abbrev Cause := BitVec 16

end Sys2Proof
end

