-- ==== Sys2Proof/Syntax.lean ====
section
/-! DEFINITION. The commands of the block: one constructor per row of the table of operations and events, with the
row's operands. A Nat operand numbers a thing of the spec; Sys2Proof.WellFormed gives its range. -/

namespace Sys2Proof

/-- The two register ports (R43). -/
inductive RPort where
  | a | b
  deriving DecidableEq, Repr

/-- The other port. -/
def RPort.peer : RPort → RPort
  | .a => .b
  | .b => .a

/-- A port as a number: 0 for A, 1 for B (R53, R94). -/
def RPort.num : RPort → Nat
  | .a => 0
  | .b => 1

/-- Who makes a register access: a register port, the housekeeping DMA (R555), or the fold loader's apply
engine (R15, R131). -/
inductive Src where
  | port (m : RPort)
  | hdma
  | apply
  deriving DecidableEq, Repr

/-- The commands. Each sentence is the row's own. -/
inductive Instr where
  /-- REGISTER_WRITE (R7): A register-port write to a register that has no row of its own takes effect on its enabled
  bytes according to each field's access code. -/
  | registerWrite (m : RPort) (addr : Nat) (be : BitVec 4) (data : Word) (tie : Option (BitVec 4 × Word))
  /-- REGISTER_ACCESS_TRANSFER (R44): A master's access transfers on register port A or B and is routed to the
  shepherd core or onto the shepherd link. -/
  | registerAccessTransfer (m : RPort) (write : Bool) (addr : Nat) (be : BitVec 4) (data : Word)
  /-- LINK_REQUEST_SEND (R54): The shepherd sends the next waiting request header, and any data word, on the link,
  alternating between ports. -/
  | linkRequestSend (tie : Bool)
  /-- LINK_RESPONSE (R56): A read or write response word arrives from the datapath and is returned to the register
  port or loader. -/
  | linkResponse (m : RPort) (err : Bool)
  /-- LINK_TIMEOUT (R58): A link request reaches 1,024 clk_shf cycles without a response; the port gets ERROR, LINK_TO
  is set and a drain period starts. -/
  | linkTimeout (m : RPort)
  /-- DRAIN_PERIOD_END (R59): The drain period after a link timeout ends and the port's next access may go out. -/
  | drainPeriodEnd (m : RPort)
  /-- REQUEST_ABANDON (R59): The datapath end abandons a request whose response it has not sent within 896 cycles. -/
  | requestAbandon (m : RPort)
  /-- EVENT_WORD (R61): A datapath unit's cause vector changes and an event word carries it to the shepherd's
  interrupt tree. -/
  | eventWord (u : Nat)
  /-- RGP_RESET_ASSERT (R48): A register-port reset falls; an outstanding access gets no response and an unsent write
  is discarded. -/
  | rgpResetAssert (m : RPort)
  /-- RGP_RESET_RELEASE (R114): A valid register-port reset pulse is released; epoch, semaphores, views and flags
  change as R114 gives. -/
  | rgpResetRelease (m : RPort) (valid : Bool)
  /-- POWER_ON_RESET_RELEASE (R154): rst_por_n is released, the shepherd takes its reset condition and a cold start
  begins. -/
  | powerOnResetRelease
  /-- BLOCK_RESET_ASSERT (R162): rst_blk_n falls; loader operations end, datapath reset and isolation are applied and
  fast clocks stopped. -/
  | blockResetAssert
  /-- BLOCK_RESET_RELEASE (R162): rst_blk_n is released; PD9 is isolated and a cold start begins. -/
  | blockResetRelease
  /-- AVS_FRAME_END (R611): An AVSBus frame ends with its response code, acknowledging or failing the voltage command.
  -/
  | avsFrameEnd (good : Bool) (data : Nat)
  /-- AVS_ACK_TIMEOUT (R611): An AVSBus frame meets its acknowledgement limit. -/
  | avsAckTimeout
  /-- SETTLE_EXPIRE (R156): The settle time after a voltage change expires and the sequence moves to its clock phase.
  -/
  | settleExpire
  /-- CLOCK_ACK_CHANGE (R36): A clk_ack_x reaches its expected level, completing a clock start or stop handshake step.
  -/
  | clockAckChange (x : Nat)
  /-- CLOCK_HANDSHAKE_TIMEOUT (R38): A clock acknowledge fails to reach its level within its limit. -/
  | clockHandshakeTimeout (x : Nat)
  /-- DOMAIN_READY_CHANGE (R81): pdx_d_ready reaches its expected level, letting the sequencer move to the next
  domain. -/
  | domainReadyChange (d : Nat)
  /-- DOMAIN_READY_TIMEOUT (R605): A domain's ready fails to reach its level within the domain limit. -/
  | domainReadyTimeout (d : Nat)
  /-- MEMORY_INIT_DONE (R159): The memory initialisation engines, and any cellar rebuild, report done. -/
  | memoryInitDone
  /-- LOGIC_RELEASE_DELAY_EXPIRE (R156): 32 clk_shf cycles after shl_dp_rst_n release, isolation lowering begins. -/
  | logicReleaseDelayExpire
  /-- ISO_LOWER_STEP (R157): Isolation of the next domain in R157 order is lowered on a clk_aon cycle. -/
  | isoLowerStep
  /-- COLD_START_FAIL (R158): A cold start time limit expires; domains and clocks are lowered and a retry is
  scheduled. -/
  | coldStartFail
  /-- COLD_START_RETRY (R158): The 1 ms wait after a failed cold start expires and the cold start restarts from phase
  1. -/
  | coldStartRetry
  /-- SEMAPHORE_READ (R103): A read of SHP_SEM_n acquires it if free and returns GOT, MINE or OTHER. -/
  | semaphoreRead (who : Option RPort) (n : Nat)
  /-- SEMAPHORE_RELEASE (R105): A write of RELEASE frees a semaphore held by the writer or sets its SEM_FAULT bit. -/
  | semaphoreRelease (m : RPort) (n : Nat) (be : BitVec 4) (data : Word) (tie : Option (BitVec 4 × Word))
  /-- EXPERT_ARM (R99): A write to SHP_EXPERT_KEY arms the port with the arming word or disarms it. -/
  | expertArm (m : RPort) (be : BitVec 4) (data : Word)
  /-- EXPERT_WRITE (R100): A write to SHP_EXPERT sets bits from an armed port or only clears bits from an unarmed one.
  -/
  | expertWrite (m : RPort) (be : BitVec 4) (data : Word) (tie : Option (BitVec 4 × Word))
  /-- MAILBOX_DATA_WRITE (R109): A sender writes a mailbox data word, staging it or overwriting a full message with
  COLLISION. -/
  | mailboxDataWrite (m : RPort) (n : Nat) (be : BitVec 4) (data : Word)
  /-- MAILBOX_POST (R108): A write of POST sets FULL, records SENDER_EPOCH and raises the receiver's cause. -/
  | mailboxPost (m : RPort)
  /-- MAILBOX_TAKE (R110): The receiver writes 1 to FULL to take the message, applied before a same-cycle sender
  write. -/
  | mailboxTake (m : RPort) (be : BitVec 4) (data : Word)
  /-- DOORBELL_RING (R112): A write to SHP_DB_OUT sets bits in the peer's SHP_DB_IN. -/
  | doorbellRing (m : RPort) (be : BitVec 4) (data : Word)
  /-- PULL (R140): FLD_CMD PULL starts copying the staging buffer into the fold store word by word. -/
  | pull (m : RPort)
  /-- PULL_END (R140): The last word of a PULL is written and DONE or ERROR is set. -/
  | pullEnd
  /-- PEEK (R141): FLD_CMD PEEK starts copying fold-store bytes into the staging buffer. -/
  | peek (m : RPort)
  /-- PEEK_END (R141): The last word of a PEEK is written and DONE or ERROR is set. -/
  | peekEnd
  /-- CHECK (R143): FLD_CMD CHECK starts the single-pass check of the image at store offset 0. -/
  | check (m : RPort)
  /-- CHECK_END (R143): The check pass ends, setting STORED_OK and the digest or reporting the first failure. -/
  | checkEnd
  /-- APPLY (R146): FLD_CMD APPLY starts streaming the checked image's sections into the units. -/
  | apply (m : RPort)
  /-- APPLY_END (R146): APPLY ends, setting IN_FORCE and CRUISE_OK and handing over the POWER_PLAN start move. -/
  | applyEnd
  /-- REFOLD (R150): FLD_CMD REFOLD checks a partial image and puts the pen in HOLD. -/
  | refold (m : RPort) (pen : Nat)
  /-- REFOLD_HOLD_EMPTY (R150): The held pen's parse pipeline and grazer windows empty; changed ports are taken down
  and sections applied. -/
  | refoldHoldEmpty
  /-- REFOLD_APPLY_END (R150): The last partial section is applied; the pen resumes parsing and the splice begins. -/
  | refoldApplyEnd
  /-- SPLICE_END (R152): The spliced image is copied to offset 0 and becomes the image in force, with DONE set. -/
  | spliceEnd
  /-- ABORT (R145): FLD_CMD ABORT ends a running loader operation with ABORTED, or is ignored. -/
  | abort (m : RPort)
  /-- RESTORE_END (R148): A wake restore ends with RESTORED, or RESTORE_ERR and IN_FORCE cleared. -/
  | restoreEnd (failed : Bool)
  /-- SIGNAL_DETECT_CHANGE (R184): A lane's synchronised signal detect changes, giving lane loss or signal present. -/
  | signalDetectChange (slot : Nat) (level : Bool)
  /-- LINK_ADMIN_DOWN (R180): ADMIN written 0 cuts any frame in transmission and puts the port in DISABLED. -/
  | linkAdminDown (src : Src) (p : Nat) (be : BitVec 4) (data : Word)
  /-- LINK_ADMIN_UP (R180): ADMIN written 1 moves a DISABLED port to NO_SIGNAL. -/
  | linkAdminUp (src : Src) (p : Nat) (be : BitVec 4) (data : Word)
  /-- LINK_LOOP_CHANGE (R180): A LOOP write changing the effective mode cuts transmission and restarts the port in
  NO_SIGNAL. -/
  | linkLoopChange (src : Src) (p : Nat) (mode : Nat) (be : BitVec 4) (data : Word)
  /-- LANE_LOSS (R180): A lane loses signal and the port returns to NO_SIGNAL, counting LINK_DOWN from UP. -/
  | laneLoss (p : Nat)
  /-- SIGNAL_PRESENT (R180): No lane loss in NO_SIGNAL starts lock search and moves the port to LOCKING. -/
  | signalPresent (p : Nat)
  /-- LANES_LOCKED (R180): Every lane locks and deskew starts in ALIGNING. -/
  | lanesLocked (p : Nat)
  /-- LOCK_LOSS (R180): Some lane loses lock or HI_ERR rises and the port returns to LOCKING. -/
  | lockLoss (p : Nat) (lost : Nat) (hiErr : Bool)
  /-- DESKEW_SUCCESS (R185): All PCS lanes are found within 200 ns of skew; ALIGNED is set and the hold timer starts.
  -/
  | deskewSuccess (p : Nat)
  /-- DESKEW_FAIL (R185): Deskew fails by skew, a lane found twice or a missing lane; the port returns to LOCKING. -/
  | deskewFail (p : Nat)
  /-- UP_HOLD_EXPIRE (R180): The hold timer reaches UP_HOLD and the port enters UP, setting CHG. -/
  | upHoldExpire (p : Nat)
  /-- REMOTE_FAULT_RECEIVED (R180): The reconciliation sublayer receives remote fault and the port enters
  REMOTE_FAULT. -/
  | remoteFaultReceived (p : Nat)
  /-- REMOTE_FAULT_CLEARED (R180): Remote fault clears and the port returns to UP. -/
  | remoteFaultCleared (p : Nat)
  /-- LPI_ENTER (R188): IDLE_ENTRY ns pass without a frame and the transmitter enters low-power idle. -/
  | lpiEnter (p : Nat)
  /-- LPI_WAKE (R188): A frame becomes ready in low-power idle and the transmitter begins its wake. -/
  | lpiWake (p : Nat)
  /-- LPI_WAKE_DONE (R188): TW_TX after the wake begins, the waiting frame starts. -/
  | lpiWakeDone (p : Nat)
  /-- RX_LPI_ENTER (R191): A received sleep or idle code sets RX_LPI. -/
  | rxLpiEnter (p : Nat)
  /-- RX_LPI_EXIT (R191): A received wake clears RX_LPI. -/
  | rxLpiExit (p : Nat)
  /-- RX_LPI_TIMEOUT (R191): 4 ms pass without refresh or wake; RX_LPI clears and link events apply at once. -/
  | rxLpiTimeout (p : Nat)
  /-- RX_FRAME_START (R215): A start delimiter begins a frame and its staging reservation is accepted or the frame
  dropped. -/
  | rxFrameStart (p : Nat) (smd : Nat) (frag : Nat)
  /-- RX_ADDRESS_FILTER (R213): Byte 5 arrives and the address filter sets ADDR_HIT or drops the frame. -/
  | rxAddressFilter (p : Nat) (bs : List Byte)
  /-- RX_FRAME_READY (R214): A frame reaches 256 bytes or its end and becomes ready to start a parse. -/
  | rxFrameReady (p : Nat) (bs : List Byte)
  /-- RX_FRAME_TRUNCATE (R206): Byte effective MAX_LEN + 1 arrives and the frame is marked LENGTH and truncated. -/
  | rxFrameTruncate (p : Nat) (bs : List Byte)
  /-- RX_FRAME_END (R205): A frame ends, its class becomes final and it is counted in one outcome tally. -/
  | rxFrameEnd (p : Nat) (bs : List Byte)
  /-- RX_FRAME_CUT (R209): An error character or a receive-side state change ends a frame as CUT. -/
  | rxFrameCut (p : Nat) (bs : List Byte)
  /-- PAUSE_TIMER_EXPIRE (R221): A class's pause timer expires and it returns to RUNNING. -/
  | pauseTimerExpire (p : Nat) (c : Nat)
  /-- PAUSE_WATCHDOG_EXPIRE (R223): A class's pause watchdog reaches LIMIT with WD_EN set and the class enters STORM.
  -/
  | pauseWatchdogExpire (p : Nat) (c : Nat)
  /-- STORM_RESTORE_EXPIRE (R223): RESTORE µs pass without a pausing frame and the class leaves STORM. -/
  | stormRestoreExpire (p : Nat) (c : Nat)
  /-- WATCHDOG_ENABLE_WRITE (R223): A write of a WD_EN bit moves a class into or out of STORM as R223 gives. -/
  | watchdogEnableWrite (src : Src) (p : Nat) (be : BitVec 4) (data : Word)
  /-- RX_FRAGMENT_END (R228): A preemptable fragment ends and is judged final or continued by its mCRC. -/
  | rxFragmentEnd (p : Nat) (bs : List Byte)
  /-- VERIFY_FRAME_RECEIVED (R414): A valid verify frame arrives and a respond frame is made pending. -/
  | verifyFrameReceived (p : Nat) (bs : List Byte)
  /-- RESPOND_FRAME_RECEIVED (R413): A valid respond frame arrives and verification moves to SUCCEEDED. -/
  | respondFrameReceived (p : Nat) (bs : List Byte)
  /-- PARSE_START (R236): A parse slot takes the earliest ready frame, fixes its profile and builds its key vector and
  lookups. -/
  | parseStart (pen : Nat) (slot : Nat)
  /-- GRAZE_BLOCK_SCAN (R260): The grazer scans the next scannable 64-byte block of the oldest open window. -/
  | grazeBlockScan (pen : Nat)
  /-- GRAZE_DEADLINE (R262): The graze deadline arrives; the window closes and its result is fixed. -/
  | grazeDeadline (pen : Nat) (k : Nat)
  /-- LOOKUP_ISSUE (R274): The larder grants a waiting lookup both bucket reads in a clock. -/
  | lookupIssue
  /-- LOOKUP_RESULT (R273): A lookup's reads complete and deliver a hit or a miss. -/
  | lookupResult (pen : Nat) (idx : Nat) (pos : Nat)
  /-- VERDICT_MERGE (R304): The merge combines action records, grazer result and checks into the verdict or a drop. -/
  | verdictMerge (pen : Nat) (len : Nat)
  /-- METER_REFRESH (R315): Every 2^26 core clocks each meter is updated with zero bytes. -/
  | meterRefresh
  /-- LOOKUP_LINE_READ (R328): ACT_CMD LINE_READ copies a line into ACT_DATA. -/
  | lookupLineRead (src : Src) (index : Nat)
  /-- LINE_WRITE (R328): ACT_CMD LINE_WRITE writes ACT_DATA into a line. -/
  | lineWrite (src : Src) (index : Nat)
  /-- METER_READ (R328): ACT_CMD METER_READ copies a meter record into ACT_DATA. -/
  | meterRead (src : Src) (index : Nat)
  /-- METER_WRITE (R328): ACT_CMD METER_WRITE replaces a meter record in one clock. -/
  | meterWrite (src : Src) (index : Nat)
  /-- FC_READ (R328): ACT_CMD FC_READ copies a flow counter into ACT_DATA. -/
  | fcRead (src : Src) (index : Nat)
  /-- FC_READ_CLEAR (R328): ACT_CMD FC_READ_CLEAR copies a flow counter and sets it to 0. -/
  | fcReadClear (src : Src) (index : Nat)
  /-- FC_WRITE (R328): ACT_CMD FC_WRITE replaces a flow counter in one clock. -/
  | fcWrite (src : Src) (index : Nat)
  /-- SAMPLER_CONFIG (R321): A write of ACT_SAMP_CFG_s sets the sampler countdown to N − 1. -/
  | samplerConfig (src : Src) (k : Nat) (be : BitVec 4) (data : Word)
  /-- INSERT (R285): LAR_CMD INSERT places a key, updating, filling a free slot or walking displacements. -/
  | insert (src : Src) (table : Nat) (copy : Nat)
  /-- DELETE (R282): LAR_CMD DELETE clears VALID of every slot that holds the key. -/
  | delete (src : Src) (table : Nat) (copy : Nat)
  /-- FIND (R282): LAR_CMD FIND looks up the staged key and loads the entry and location. -/
  | find (src : Src) (table : Nat) (copy : Nat)
  /-- WRITE_AT (R284): LAR_CMD WRITE_AT writes the staged entry at LAR_LOC, valid last. -/
  | writeAt (src : Src) (table : Nat) (copy : Nat)
  /-- READ_AT (R282): LAR_CMD READ_AT loads the slot at LAR_LOC into staging. -/
  | readAt (src : Src) (table : Nat) (copy : Nat)
  /-- HASH (R282): LAR_CMD HASH loads the two candidates of the staged key. -/
  | hash (src : Src) (table : Nat) (copy : Nat)
  /-- LAR_COMMAND_ACCEPT (R283): A LAR_CMD write held while the engine was busy is accepted when it becomes idle. -/
  | larCommandAccept
  /-- LAR_COMMAND_TIMEOUT (R283): A held LAR_CMD write is not accepted within 128 clk_shf cycles and ends with BUSY.
  -/
  | larCommandTimeout (m : RPort)
  /-- LAR_COMMAND_END (R281): A larder command's reads and writes finish; BUSY clears and DONE or ERROR is set. -/
  | larCommandEnd
  /-- ATTIC_PUSH (R287): A write of LAR_ATTIC_16 pushes a record into the attic FIFO after checks, or is held. -/
  | atticPush (src : Src) (be : BitVec 4) (data : Word)
  /-- ATTIC_PUSH_TIMEOUT (R287): A link push held 128 clk_shf cycles is discarded with ATTIC_REJECT. -/
  | atticPushTimeout (m : RPort)
  /-- ATTIC_WRITE (R288): The attic loader writes its head record as one bucket write. -/
  | atticWrite
  /-- LIVE_WRITE (R289): A LAR_LIVE write sets FLIP_PENDING until its flip clock. -/
  | liveWrite (src : Src) (be : BitVec 4) (data : Word)
  /-- FLIP (R289): The attic loader holds no record for the changed tables and the live copies change. -/
  | flip
  /-- COPY_SETTLE (R290): A former live copy settles and its waiting commands, records and seed writes proceed. -/
  | copySettle (t : Nat) (x : Nat)
  /-- CSEED_WRITE (R291): A LAR_CSEED_n write is discarded, waits for settling or is applied. -/
  | cseedWrite (src : Src) (n : Nat) (be : BitVec 4) (data : Word)
  /-- EPOCH_REQUEST (R296): A write of LAR_EPOCH_REQ requests a new verdict epoch. -/
  | epochRequest (src : Src)
  /-- EPOCH_ADVANCE (R296): After earlier LIVE writes take effect, CUR increments or the request is refused. -/
  | epochAdvance
  /-- BEAT_WRITE (R330): An input pen presents a beat of sectors into its open cell or a loft. -/
  | beatWrite (f : Nat) (stall : Bool)
  /-- LOFT_SINK_START (R338): A loft sector waits LOFT_HOLD or a beat finds no room, and the loft begins to sink. -/
  | loftSinkStart (inPen : Nat) (outPen : Nat)
  /-- SINK_MOVE (R339): A sink engine moves up to 8 sectors of a loft frame into the cellar. -/
  | sinkMove (e : Nat)
  /-- SINK_END (R339): No unmoved frame remains in a sinking loft and the sink ends. -/
  | sinkEnd (inPen : Nat) (outPen : Nat)
  /-- SECTOR_READ (R332): An output pen's sector requests are served or lose arbitration for a column. -/
  | sectorRead (copies : List Nat)
  /-- BAD_COPY_DISCARD (R357): A copy of a frame whose class became final and bad is removed when its queue reaches
  it. -/
  | badCopyDiscard (rx : Bool) (q : Nat)
  /-- FLUSH_COMMAND (R358): A CEL_FLUSH_CMD write sets the SW discard reason on class queues. -/
  | flushCommand (src : Src) (port : Nat) (tcs : Nat)
  /-- FLUSH_REMOVE (R359): The flush engine removes one head copy from a discarding queue. -/
  | flushRemove
  /-- RED_SEED_WRITE (R353): A CEL_RED_SEED write loads every pen's generator. -/
  | redSeedWrite (src : Src) (be : BitVec 4) (data : Word)
  /-- QUEUE_CONFIG_WRITE (R362): A CEL_Q_CFG_n write applies its fields, refusing a MIN above MIN_RESERVE. -/
  | queueConfigWrite (src : Src) (n : Nat) (be : BitVec 4) (data : Word)
  /-- COPY_GRANT (R366): The drover grants one copy start on a free port by strict priority and deficit round robin.
  -/
  | copyGrant (pen : Nat)
  /-- LAUNCH_JUDGE (R376): A copy with a launch time becomes head and is judged due later, late or dropped. -/
  | launchJudge (p : Nat) (c : Nat)
  /-- LAUNCH_DUE (R377): now reaches T − LEAD and a held launch-time copy becomes due. -/
  | launchDue (p : Nat) (c : Nat)
  /-- GATE_COMMIT (R382): DRV_GATE_CTL COMMIT checks the staged list and makes it pending or sets GATE_ERR. -/
  | gateCommit (src : Src) (n : Nat) (start : Nat) (len : Nat)
  /-- GATE_DISCARD (R383): RUN written 0 discards both gate lists and returns the port to RECOVERY. -/
  | gateDiscard (src : Src) (n : Nat)
  /-- GATE_ENTRY_WRITE (R383): A gate entry write is applied or refused when it lies in a list in force or pending. -/
  | gateEntryWrite (src : Src) (hi : Bool) (m : Nat) (be : BitVec 4) (data : Word)
  /-- GATE_SWITCH (R382): S′ arrives and the pending list comes into force from entry 0. -/
  | gateSwitch (p : Nat)
  /-- GATE_CYCLE_START (R388): A cycle start moves a WAITING gated port to NORMAL. -/
  | gateCycleStart (p : Nat)
  /-- COPY_START (R400): A granted copy starts at the transmit interface, with timestamp capture and head edits. -/
  | copyStart (p : Nat) (express : Bool)
  /-- TX_UNDERRUN (R402): A needed byte of a started copy is missing; the copy ends with the stomp pattern. -/
  | txUnderrun (p : Nat) (express : Bool) (n : Nat)
  /-- TX_OVERSIZE_CUT (R398): A started copy passes the port's length limit and is cut. -/
  | txOversizeCut (p : Nat) (express : Bool)
  /-- TX_FRAME_END (R403): A copy ends with FCS or stomp pattern once its class is final, is counted and passes its
  capture. -/
  | txFrameEnd (p : Nat)
  /-- COPY_END (R368): A copy is read to its end and its charged length is taken from deficits and shapers. -/
  | copyEnd (p : Nat) (express : Bool)
  /-- PAUSE_REFRESH_EXPIRE (R407): REFRESH quanta pass with a class in XOFF and a new control frame is triggered. -/
  | pauseRefreshExpire (p : Nat)
  /-- FC_MODE_WRITE (R407): A write of CEL_PORT_CFG FC_MODE triggers a control frame. -/
  | fcModeWrite (src : Src) (n : Nat) (be : BitVec 4) (data : Word)
  /-- CONTROL_FRAME_START (R408): A pending pause, PFC, respond or verify frame starts, its content formed then. -/
  | controlFrameStart (p : Nat)
  /-- VERIFY_TIMER_EXPIRE (R413): VERIFY_TIME passes; another verify frame is sent or verification fails. -/
  | verifyTimerExpire (p : Nat)
  /-- VERIFY_RESTART (R413): A write of RESTART returns verification to DISABLED to begin again. -/
  | verifyRestart (src : Src) (p : Nat) (be : BitVec 4) (data : Word)
  /-- VERIFY_DISABLE (R413): VERIFY_DIS written 1 returns verification to DISABLED. -/
  | verifyDisable (src : Src) (p : Nat) (be : BitVec 4) (data : Word)
  /-- FRAGMENT_END (R415): The preemptable MAC ends a fragment with the mCRC at the first allowed point. -/
  | fragmentEnd (p : Nat) (k : Nat)
  /-- PREEMPT_RESUME (R417): The express stream is idle and the preempted frame resumes with a continuation fragment.
  -/
  | preemptResume (p : Nat)
  /-- PREEMPT_HOLD (R418): T − LEAD − A arrives for an express launch-time copy and the preemptable MAC is held. -/
  | preemptHold (p : Nat)
  /-- POLL_DUE (R442): A queue's poll interval passes and it falls due. -/
  | pollDue (rx : Bool) (q : Nat)
  /-- POLL_ISSUE (R442): A poll opportunity chooses a kicked, hot or due queue and reads its next beat. -/
  | pollIssue (k : Nat) (late : Bool)
  /-- POLL_RESULT (R441): A poll's beat returns and the valid slots are taken, entering the hot list on a hit. -/
  | pollResult (k : Nat)
  /-- HOT_IDLE_EXPIRE (R443): HOT_IDLE passes since a queue's last hit and it leaves the hot list. -/
  | hotIdleExpire (rx : Bool) (q : Nat)
  /-- TX_FETCH_START (R445): A transmit frame is checked, its completion reserved and its data reads issued. -/
  | txFetchStart (k : Nat)
  /-- TX_COMPLETION_PLACE (R447): A transmit frame reaches its completion point and its completion is placed. -/
  | txCompletionPlace (n : Nat)
  /-- RX_COPY_WRITE_START (R450): A receive copy with reservation and covering descriptors starts to be written. -/
  | rxCopyWriteStart (q : Nat)
  /-- RX_COMPLETION_PLACE (R453): A written receive copy completes with its status and its completion is placed. -/
  | rxCompletionPlace (q : Nat)
  /-- HOLD_RELEASE (R455): A ring gains a free slot and held completions leave the holding store in order. -/
  | holdRelease (r : Nat)
  /-- CI_POLL_EXPIRE (R456): CI_POLL passes with no free slot and the consumer-index word is read. -/
  | ciPollExpire (r : Nat)
  /-- HOLD_FULL_EXPIRE (R454): A reservation waits 1 µs on a full holding store and HOLD_FULL is set. -/
  | holdFullExpire (k : Nat)
  /-- QUEUE_ENABLE (R458): CMD ENABLE checks a queue and moves it to RUNNING or ERROR, or resumes a STOPPED queue. -/
  | queueEnable (src : Src) (rx : Bool) (q : Nat)
  /-- QUEUE_STOP (R457): CMD STOP moves a RUNNING queue to STOPPING and returns ready descriptors unused. -/
  | queueStop (src : Src) (rx : Bool) (q : Nat)
  /-- QUEUE_DISABLE (R457): CMD DISABLE moves a STOPPED or ERROR queue to DISABLED. -/
  | queueDisable (src : Src) (rx : Bool) (q : Nat)
  /-- QUEUE_FLUSH (R457): CMD FLUSH removes a receive queue's list, one copy per core clock. -/
  | queueFlush (src : Src) (rx : Bool) (q : Nat)
  /-- QUEUE_KICK (R457): CMD KICK makes a RUNNING queue due at once. -/
  | queueKick (src : Src) (rx : Bool) (q : Nat)
  /-- QUEUE_DRAINED (R459): A STOPPING queue's work drains and it enters STOPPED. -/
  | queueDrained (rx : Bool) (q : Nat)
  /-- RING_ENABLE (R460): CMD ENABLE of a completion ring checks it and sets PI 0 and phase 1. -/
  | ringEnable (src : Src) (r : Nat)
  /-- RING_DISABLE (R460): CMD DISABLE of a ring is taken only when no queue names it. -/
  | ringDisable (src : Src) (r : Nat)
  /-- RING_KICK (R456): CMD KICK of a ring reads its consumer-index word at once. -/
  | ringKick (src : Src) (r : Nat)
  /-- CONTEXT_WRITE (R461): A write to a queue or ring context field applies or is refused with CTX_REFUSED. -/
  | contextWrite (src : Src) (addr : Nat) (be : BitVec 4) (data : Word)
  /-- ARBITRATION (R472): In an arbitration clock the store-room arbiter grants one ready requester. -/
  | arbitration (k : Nat)
  /-- GRANT_RELEASE (R470): A holder with nothing presented or ready releases its grant. -/
  | grantRelease (k : Nat)
  /-- HOLD_CUT (R470): A grant reaches HOLD_LIMIT and the holder is cut off. -/
  | holdCut (k : Nat)
  /-- QUOTA_WINDOW_START (R473): A new quota window starts and the quota counters clear. -/
  | quotaWindowStart (k : Nat)
  /-- READ_BEAT (R66): A read data beat arrives on a store-room port and is routed to its requester, with error
  handling. -/
  | readBeat (k : Nat) (tag : Nat) (data : List Byte) (resp : Nat) (last : Bool)
  /-- WRITE_RESPONSE (R67): A write response arrives and retires the oldest outstanding write, with error handling. -/
  | writeResponse (k : Nat) (resp : Nat)
  /-- STEP (R488): TIM_CTL CMD STEP latches SET for the base's next tick. -/
  | step (src : Src) (b : Nat) (force : Bool)
  /-- OFFSET (R488): TIM_CTL CMD OFFSET latches OFS for the base's next tick. -/
  | offset (src : Src) (b : Nat) (force : Bool)
  /-- HOLD (R488): TIM_CTL CMD HOLD latches a move to HOLDOVER for the next tick. -/
  | hold (src : Src) (b : Nat)
  /-- TIME_COMMAND_APPLY (R488): A pending time command is applied at the tick, accepted as a correction or refused.
  -/
  | timeCommandApply (b : Nat)
  /-- TIME_SAMPLE (R486): A read of TIM_NOW_NS samples the base and loads the reader's seconds shadow. -/
  | timeSample (src : Src) (b : Nat)
  /-- CORR_WD_EXPIRE (R490): The correction watchdog expires and the base enters HOLDOVER. -/
  | corrWdExpire (b : Nat)
  /-- AON_WINDOW_END (R493): A clean 2^20-edge window ends and AON_NS is updated or AON_ODD set. -/
  | aonWindowEnd (b : Nat)
  /-- TX_LOG_POP (R502): TIM_LOG_POP TX removes the transmit log head. -/
  | txLogPop (src : Src)
  /-- RX_LOG_POP (R502): TIM_LOG_POP RX removes the receive log head. -/
  | rxLogPop (src : Src)
  /-- PULSE_INPUT_EDGE (R503): An edge on tpps_in is seen and stamped, or counted as missed. -/
  | pulseInputEdge (n : Nat) (rise : Bool)
  /-- PULSE_OUTPUT_EDGE (R504): A base tick changes a pulse output's computed level. -/
  | pulseOutputEdge (o : Nat)
  /-- POUT_CONFIG (R504): A TIM_POUT_CFG write with EN brings the pulse output's START, PERIOD and WIDTH into force.
  -/
  | poutConfig (src : Src) (o : Nat) (be : BitVec 4) (data : Word)
  /-- HELLO_TIMER (R527): HELLO_US passes and a HELLO is sent on a flock link. -/
  | helloTimer (l : Nat)
  /-- DEAD_TIMER_EXPIRE (R527): DEAD_MULT hello intervals pass without a valid frame and the neighbour is lost. -/
  | deadTimerExpire (l : Nat)
  /-- CLAIM_TIMER (R531): HELLO_US after the last claim, another CLAIM is flooded or the address is taken. -/
  | claimTimer
  /-- CLAIM (R531): FLK_CTL CMD CLAIM starts claiming the candidate address. -/
  | claim (src : Src)
  /-- RELEASE (R531): FLK_CTL CMD RELEASE gives up a claimed address. -/
  | release (src : Src)
  /-- CONTEXT_INIT (R544): CVU_CTX_CMD INIT sets the running value to the check's initial value and COUNT to 0. -/
  | contextInit (src : Src) (c : Nat)
  /-- CONTEXT_FEED (R545): A CVU_CTX_FEED write feeds its enabled bytes into the running check. -/
  | contextFeed (src : Src) (c : Nat) (be : BitVec 4) (data : Word)
  /-- CONTEXT_STATE_WRITE (R547): A write of CVU_CTX_STATE restores a context's running value. -/
  | contextStateWrite (src : Src) (c : Nat) (be : BitVec 4) (data : Word)
  /-- HDMA_START (R553): A START write triggers an enabled channel into PENDING. -/
  | hdmaStart (src : Src) (c : Nat) (be : BitVec 4) (data : Word)
  /-- HDMA_TIMER (R553): A channel's PERIOD expires and it is triggered. -/
  | hdmaTimer (c : Nat)
  /-- HDMA_SELECT (R554): The idle engine selects the oldest PENDING channel and checks it. -/
  | hdmaSelect
  /-- HDMA_COMPLETE (R556): A channel's last byte is written; it forms a record and may chain. -/
  | hdmaComplete
  /-- HDMA_RSP_TIMEOUT (R556): A channel's request reaches HDM_RSP_TO without response and the engine stops. -/
  | hdmaRspTimeout (write : Bool) (pos : Nat)
  /-- HDMA_DISABLE (R561): EN written 0 ends a channel, or discards its pending trigger. -/
  | hdmaDisable (src : Src) (c : Nat) (be : BitVec 4) (data : Word)
  /-- HDMA_RESUME (R560): RESUME lets a stopped engine select channels again. -/
  | hdmaResume (src : Src)
  /-- HDMA_POP (R566): HDM_CPL_POP removes the head completion record. -/
  | hdmaPop (src : Src)
  /-- TALLY_LO_READ (R574): A read of PEN_TALLY_LO returns V[31:0] and loads the reader's shadow. -/
  | tallyLoRead (src : Src) (pen : Nat) (m : Nat)
  /-- TALLY_HI_WRITE (R575): A write of PEN_TALLY_HI loads the writer's shadow. -/
  | tallyHiWrite (src : Src) (pen : Nat) (m : Nat) (be : BitVec 4) (data : Word)
  /-- TALLY_LO_WRITE (R575): A write of PEN_TALLY_LO sets the tally from shadow and LOW and clears its wrap flag. -/
  | tallyLoWrite (src : Src) (pen : Nat) (m : Nat) (be : BitVec 4) (data : Word)
  /-- TALLY_SNAP (R579): PEN_TALLY_CTL SNAP copies a port's 96 tallies into the snapshot bank. -/
  | tallySnap (src : Src) (pen : Nat) (n : Nat) (clear : Bool)
  /-- TALLY_CLEAR (R579): PEN_TALLY_CTL CLEAR sets every tally of a port to 0. -/
  | tallyClear (src : Src) (pen : Nat) (n : Nat)
  /-- PMN_RUN (R582): A write of RUN starts or stops all nine counters together. -/
  | pmnRun (src : Src) (run : Bool)
  /-- CLEAR_ALL (R582): PMN_CTL CLEAR_ALL sets all counters and wrap flags to 0. -/
  | clearAll (src : Src) (run : Bool)
  /-- PMN_LO_READ (R591): A read of a PMN LO register returns the low bits and loads the reader's shadow. -/
  | pmnLoRead (src : Src) (j : Nat)
  /-- PMN_CONFIG_WRITE (R593): A PMN_CFG_k write changes a counter's selection from the next clock. -/
  | pmnConfigWrite (src : Src) (k : Nat) (be : BitVec 4) (data : Word)
  /-- SLEEP_TALLY_READ (R618): A read of PWR_SLEEP_TALLY_LO returns N[31:0] and loads the reader's shadow. -/
  | sleepTallyRead (m : RPort)
  /-- POWER_WAIT (R602): A PWR_WAIT write latches an entry, cruise change or wake, or is refused. -/
  | powerWait (m : RPort) (be : BitVec 4) (data : Word) (tie : Option (BitVec 4 × Word))
  /-- VETO (R602): A PWR_VETO write during WINDOW cancels the entry. -/
  | veto (m : RPort) (be : BitVec 4) (data : Word) (tie : Option (BitVec 4 × Word))
  /-- VETO_WINDOW_EXPIRE (R602): The veto window ends and QUIESCE begins. -/
  | vetoWindowExpire
  /-- QUIESCE_CLEAR (R603): Every blocking condition clears and DOWN switches clocks, domains and rails. -/
  | quiesceClear
  /-- QUIESCE_TIMEOUT (R602): PWR_QUIESCE_TO passes; intake resumes and QUIESCE_FAIL is set. -/
  | quiesceTimeout
  /-- WAKE_TIMER_EXPIRE (R606): PWR_WAKE_TIMER ms after ENTERED the wake timer fires and a wake starts. -/
  | wakeTimerExpire
  /-- WAKE_FAIL (R609): A wake limit expires; raised items are lowered and a retry is scheduled. -/
  | wakeFail
  /-- WAKE_RETRY (R609): The 1 ms wait after a failed wake expires and the wake restarts from phase 1. -/
  | wakeRetry
  /-- DOMAIN_FAULT (R610): pdx_d_ready falls while pwr_req is 1; the domain is isolated and switched off. -/
  | domainFault (d : Nat)
  /-- TRIM_GATE (R615): An idle pen in TRIM has its core clock gated after PWR_TRIM_IDLE. -/
  | trimGate (pen : Nat)
  /-- TRIM_UNGATE (R615): An arrival, head copy or register access ungates a gated pen. -/
  | trimUngate (pen : Nat)
  /-- READ_VOLTAGE (R611): PWR_AVS_CMD READ_VOLTAGE queues a voltage-read frame. -/
  | readVoltage (m : RPort) (be : BitVec 4) (data : Word) (tie : Option (BitVec 4 × Word))
  /-- READ_STATUS (R611): PWR_AVS_CMD READ_STATUS queues a status-read frame. -/
  | readStatus (m : RPort) (be : BitVec 4) (data : Word) (tie : Option (BitVec 4 × Word))
  /-- WRITE_VOLTAGE (R611): PWR_AVS_CMD WRITE_VOLTAGE queues a voltage write-and-commit frame. -/
  | writeVoltage (m : RPort) (be : BitVec 4) (data : Word) (tie : Option (BitVec 4 × Word))
  /-- SRP_REQUEST_TRANSFER (R63): A presented store-room request transfers when the fabric raises srp_k_req_ready,
  taking its tag or write slot and charging the quota. -/
  | srpRequestTransfer (k : Nat)
  /-- SRP_WRITE_BEAT_TRANSFER (R63): A presented write data beat transfers when the fabric raises srp_k_wd_ready, and
  the next beat or write follows. -/
  | srpWriteBeatTransfer (k : Nat)
  /-- PATTERN_CHECKER_LOCK (R196): After 256 consecutive matching bits the lane's pattern checker sets CHK_LOCK and
  starts counting errors. -/
  | patternCheckerLock (slot : Nat) (errs : Nat)
  /-- PATTERN_CHECKER_UNLOCK (R196): After 16 consecutive words with 16 or more bit errors the checker clears CHK_LOCK
  and seeds again. -/
  | patternCheckerUnlock (slot : Nat) (errs : Nat)
  /-- LPI_REFRESH (R190): In deep sleep the transmitter periodically lowers tx_quiet to send the 802.3 refresh and
  then falls quiet again. -/
  | lpiRefresh (p : Nat) (quiet : Bool)
  /-- RX_LPI_REFRESH (R191): A refresh received during RX_LPI restarts the 4 ms timer and governs rx_quiet between
  refreshes. -/
  | rxLpiRefresh (p : Nat) (quiet : Bool)
  /-- FLOCK_HEADER_CHECK (R518): When bytes 14 to 17 of a flock frame arrive, a bad VER or KIND, a link not UP, TTL 0
  or no address drops it, or it is marked local or transit. -/
  | flockHeaderCheck (p : Nat) (bs : List Byte)
  deriving DecidableEq, Repr

end Sys2Proof
end

