-- ==== Sys2Proof/Decode.lean ====
section
/-! DEFINITION. The command that a word spells by the bits of the table of operations and events. -/

namespace Sys2Proof

/-- No row of the table gives bits: a command is an access, a signal change or an event of the block, not a word. -/
def decodeTableWord (_nbits _w : Nat) : Option Instr := none

end Sys2Proof
end

