-- ==== Sys2Proof/Machine/Bits.lean ====
section
/-! DEFINITION. Bit fields, byte order and byte lists: the plain arithmetic the units share. -/

namespace Sys2Proof.Machine

/-- Bits hi to lo of a word, as a number. -/
def bitsOf (w : Word) (hi lo : Nat) : Nat := (w.toNat >>> lo) % 2 ^ (hi + 1 - lo)

/-- The word with bits hi to lo replaced by v (modulo the field's width). -/
def putBits (w : Word) (hi lo v : Nat) : Word :=
  let m := (2 ^ (hi + 1 - lo) - 1) <<< lo
  BitVec.ofNat 32 ((w.toNat &&& (0xFFFFFFFF ^^^ m)) ||| ((v % 2 ^ (hi + 1 - lo)) <<< lo))

/-- Bit n of a number. -/
def bit (v n : Nat) : Bool := v.testBit n

/-- The number with bit n set to b. -/
def setBit (v n : Nat) (b : Bool) : Nat :=
  if b then v ||| 2 ^ n else if v.testBit n then v - 2 ^ n else v

/-- 1 for true, 0 for false. -/
def b2n (b : Bool) : Nat := if b then 1 else 0

/-- The number of set bits among bits 0 to n - 1. -/
def popcount (v n : Nat) : Nat := (List.range n).foldl (fun c k => c + b2n (v.testBit k)) 0

/-- A vector of booleans as a number, bit k first. -/
def ofBits (n : Nat) (f : Nat → Bool) : Nat := (List.range n).foldl (fun v k => v + b2n (f k) * 2 ^ k) 0

/-- The bits of a word that byte enables select (R11). -/
def beMask (be : BitVec 4) : Nat :=
  (List.range 4).foldl (fun m k => m + b2n (be.getLsbD k) * (0xFF <<< (8 * k))) 0

/-- Bytes in little-endian order as a number: register words and memory structures (spec/00, Notation). -/
def leNat : List Byte → Nat
  | [] => 0
  | b :: bs => b.toNat + 256 * leNat bs

/-- Bytes in network order as a number: frame fields (spec/00, Notation). -/
def beNat (bs : List Byte) : Nat := bs.foldl (fun n b => n * 256 + b.toNat) 0

/-- A number as n little-endian bytes. -/
def leBytes : Nat → Nat → List Byte
  | 0, _ => []
  | n + 1, v => BitVec.ofNat 8 v :: leBytes n (v / 256)

/-- A number as n bytes in network order. -/
def beBytes (n v : Nat) : List Byte := (leBytes n v).reverse

/-- n bytes from position i, bytes past the end reading 0. -/
def slice (bs : List Byte) (i n : Nat) : List Byte :=
  let t := (bs.drop i).take n
  t ++ List.replicate (n - t.length) 0

/-- The byte at position i, 0 past the end. -/
def byteAt (bs : List Byte) (i : Nat) : Byte := bs.getD i 0

/-- The little-endian number in n bytes from position i. -/
def le (bs : List Byte) (i n : Nat) : Nat := leNat (slice bs i n)

/-- The number in network order in n bytes from position i. -/
def be (bs : List Byte) (i n : Nat) : Nat := beNat (slice bs i n)

/-- Bits hi to lo of a number. -/
def fieldOf (v hi lo : Nat) : Nat := (v >>> lo) % 2 ^ (hi + 1 - lo)

/-- v with its bytes from position i replaced by the new bytes; the list is not lengthened. -/
def overlay (bs : List Byte) (i : Nat) (new : List Byte) : List Byte :=
  bs.take i ++ (new ++ (bs.drop i).drop new.length).take (bs.length - i)

/-- The ceiling of a quotient. -/
def ceilDiv (a b : Nat) : Nat := (a + b - 1) / b

/-- A number read as a two's-complement value of w bits. -/
def signed (w v : Nat) : Int := if v % 2 ^ w < 2 ^ (w - 1) then Int.ofNat (v % 2 ^ w) else Int.ofNat (v % 2 ^ w) - 2 ^ w

end Sys2Proof.Machine
end

