-- ==== Sys2Proof/Machine/Flags.lean ====
section
/-! DEFINITION. The check computations of the spec: CRCs, the SHA-256 digest, Internet checksums. The block has
no processor flags; its units' event bits are register fields, set through Machine/Ops.lean. -/

namespace Sys2Proof.Machine

/-- One byte into a reflected CRC of 32 bits with the reflected polynomial poly. -/
def crcByte (poly : Nat) (c : Nat) (b : Byte) : Nat :=
  (List.range 8).foldl (fun c _ => if c % 2 = 1 then (c / 2) ^^^ poly else c / 2) (c ^^^ b.toNat)

/-- A running reflected 32-bit CRC over bytes. -/
def crcRun (poly : Nat) (c : Nat) (bs : List Byte) : Nat := bs.foldl (crcByte poly) c

/-- CRC-32 of R203: polynomial 0x04C1_1DB7, initial value and final XOR 0xFFFF_FFFF, reflected. -/
def crc32 (bs : List Byte) : Nat := crcRun 0xEDB88320 0xFFFFFFFF bs ^^^ 0xFFFFFFFF

/-- CRC-32C of R119: polynomial 0x1EDC_6F41, initial value and final XOR 0xFFFF_FFFF, reflected. -/
def crc32c (bs : List Byte) : Nat := crcRun 0x82F63B78 0xFFFFFFFF bs ^^^ 0xFFFFFFFF

/-- The last four bytes of a frame as the FCS value they carry, F[7:0] first (R203). -/
def fcsOf (raw : List Byte) : Nat := leNat (raw.drop (raw.length - 4))

/-- The correct FCS of a frame whose last four bytes are its FCS (R203). -/
def correctFcs (raw : List Byte) : Nat := crc32 (raw.take (raw.length - 4))

/-- How a frame's last four bytes compare with its correct FCS (R203, R204, R228). -/
inductive FcsKind where
  | good | stomped | mcrc | error
  deriving DecidableEq, Repr

/-- The comparison of R203, R204 and R228. A frame of fewer than four bytes carries no FCS. -/
def fcsKind (raw : List Byte) : FcsKind :=
  if raw.length < 4 then .error
  else
    let f := correctFcs raw
    let g := fcsOf raw
    if g = f then .good
    else if g = f ^^^ 0xFFFFFFFF then .stomped
    else if g = f ^^^ 0x0000FFFF then .mcrc
    else .error

/-- The one's-complement sum of bytes taken as 16-bit words in network order, an odd last byte padded with 0. -/
def onesSum : List Byte → Nat
  | [] => 0
  | [b] => b.toNat * 256
  | a :: b :: t =>
    let v := a.toNat * 256 + b.toNat + onesSum t
    if v ≥ 65536 then v - 65535 else v

/-- The Internet checksum of bytes: the complement of their one's-complement sum. -/
def inetChecksum (bs : List Byte) : Nat := 65535 - onesSum bs

/-! ## SHA-256 (R120, FIPS 180-4)

The standard's constants are the first 32 bits of the fractional parts of roots of the first primes; they are
computed here from that definition. -/

/-- The primes below 312, of which there are 64. -/
def shaPrimes : List Nat :=
  (List.range 312).filter (fun n => 2 ≤ n && (List.range 18).all (fun m => m < 2 || m = n || n % m ≠ 0))

/-- The greatest number below base + 2^n whose k-th power is at most x, if base is such a number. -/
def rootBelow (k x : Nat) : Nat → Nat → Nat
  | 0, base => base
  | n + 1, base => rootBelow k x n (if (base + 2 ^ n) ^ k ≤ x then base + 2 ^ n else base)

/-- The first 32 bits of the fractional part of the k-th root of a number below 512. -/
def rootFraction (k p : Nat) : Nat := rootBelow k (p * 2 ^ (32 * k)) 37 0 % 2 ^ 32

/-- The constants of the 64 rounds: the cube roots of the first 64 primes. -/
def shaConstants : List Nat := shaPrimes.map (rootFraction 3)

/-- The eight words that the hash starts from: the square roots of the first 8 primes. -/
def shaStart : List Nat := (shaPrimes.take 8).map (rootFraction 2)

/-- The exclusive or of a word turned right by each of some amounts. -/
def turned (x : Nat) (amounts : List Nat) : Nat :=
  amounts.foldl (fun acc n => acc ^^^ ((x * 2 ^ (32 - n)) % 2 ^ 32 + x / 2 ^ n)) 0

/-- The next n words of a block's schedule, put before those of a list that holds the newest word first. -/
def shaSchedule : Nat → List Nat → List Nat
  | 0, w => w
  | n + 1, w =>
    let old (back : Nat) : Nat := w.getD (back - 1) 0
    let sum := old 16 + (turned (old 15) [7, 18] ^^^ (old 15 / 8)) + old 7 + (turned (old 2) [17, 19] ^^^ (old 2 / 1024))
    shaSchedule n (sum % 2 ^ 32 :: w)

/-- The rounds of a block, one for each sum of a constant and a schedule word. The eight working words stand in two
lists of four, each pushed down by one word in a round. -/
def shaRounds : List Nat → List Nat × List Nat → List Nat × List Nat
  | [], v => v
  | kw :: rest, (up, low) =>
    let u (n : Nat) : Nat := up.getD n 0
    let l (n : Nat) : Nat := low.getD n 0
    let choice := (l 0 &&& l 1) + ((2 ^ 32 - 1 - l 0) &&& l 2)
    let most := (u 0 &&& (u 1 ||| u 2)) ||| (u 1 &&& u 2)
    let t := l 3 + turned (l 0) [6, 11, 25] + choice + kw
    shaRounds rest ((t + turned (u 0) [2, 13, 22] + most) % 2 ^ 32 :: up.take 3, (u 3 + t) % 2 ^ 32 :: low.take 3)

/-- One block of 64 bytes goes into the eight words of a running hash. -/
def shaBlock (h : List Nat) (blk : List Byte) : List Nat :=
  let first := (List.range 16).map (fun k => beNat (slice blk (60 - 4 * k) 4))
  let sched := (shaSchedule 48 first).reverse
  let v := shaRounds (List.zipWith (· + ·) shaConstants sched) (h.take 4, h.drop 4)
  List.zipWith (fun x y => (x + y) % 2 ^ 32) h (v.1 ++ v.2)

/-- The blocks of a message of n blocks go into a running hash. -/
def shaBlocks : Nat → List Byte → List Nat → List Nat
  | 0, _, h => h
  | n + 1, m, h => shaBlocks n (m.drop 64) (shaBlock h (m.take 64))

/-- The eight words of the SHA-256 digest of bytes (R120). The message is padded with the bit 1, zeros, and its length
in bits as 64 bits, to whole blocks. -/
def sha256 (bs : List Byte) : List Nat :=
  let n := (bs.length + 8) / 64 + 1
  shaBlocks n (bs ++ [0x80] ++ List.replicate (64 * n - bs.length - 9) 0 ++ beBytes 8 (8 * bs.length)) shaStart

end Sys2Proof.Machine
end

