-- ==== Sys2Proof/Config.lean ====
section
/-! DEFINITION. The values an implementation fixes and the free values: constants with no body, of which
nothing can be proved. -/

namespace Sys2Proof.Config

/-- SHP_VERSION.PATCH: the patch level of the shipment, which the manual leaves open (R1, R2). Log entry 1. -/
opaque patch : BitVec 8

/-- The content of a byte of a memory that the spec calls undefined: the fold store after power-on and
FLD_STAGE_w after a reset (R153), the store beyond a spliced image (R152). `seed` tells one loss of content
from the next, `addr` is the byte's offset in its memory. Log entry 2. -/
opaque freeByte (seed addr : Nat) : BitVec 8

/-- A number that the spec leaves open, drawn once: `seed` is the model's own counter. Log entry 3. -/
opaque freeNat (seed : Nat) : Nat

/-- A byte of a template line beyond line 4,095, which a group or member can name and the spec does not describe
(R308 to R311). Log entry 4. -/
opaque lineBeyond (addr : Nat) : BitVec 8

/-- The identity that FLK_RIVAL records when a DEFEND names the member's own identity: the frame does not carry the
rival's (R517, R531). It may depend on the frame's claim sequence and address. Log entry 5. -/
opaque rivalOf (cseq addr : Nat) : BitVec 64

/-- LEN of the completion of a rejected transmit frame whose data length does not fit the field's 15 bits (R439).
Log entry 6. -/
opaque wideLen (d : Nat) : BitVec 15

/-- Whether a receive copy that is both truncated and bad under deliver-bad completes with RX_TRUNC rather than
RX_BAD: R450 and R451 each state a code. Log entry 7. -/
opaque truncWins (rxErr len : Nat) : Bool

/-- Whether an event falls in the clock of the command before it that it would meet there: the order of the queue does not
say which commands of one tick share a clock (R8, R22, R224, R233, R234, R252, R288, R331, R477, R503). `kind` tells the
questions apart, `seed` their occasions. Log entry 84. -/
opaque sameClock (kind seed : Nat) : Bool

/-- Whether a register read of the housekeeping DMA at an address reports an uncorrectable storage error (R47, R559): no
command tells. Log entry 105. -/
opaque storageError (addr seed : Nat) : Bool

/-- What a deficit holds once a quantum takes it past the signed 32-bit range of R370, or a charge below it: `v` is the exact
sum. Log entry 88. -/
opaque wideDeficit (v : Int) : BitVec 32

/-- The state in which a lane's PRBS generator starts: the spec gives none (R195). Log entry 93. -/
opaque patternSeed (slot : Nat) : Nat

end Sys2Proof.Config
end

