-- ==== Sys2Proof/Machine/RegMap.lean ====
section
/-! DEFINITION. The register map: every register of the Register index (spec/23, R620 to R623), with its
address formula, its fields, their access codes (R7), reset values and levels, as the field tables of the
chapters give them. A register is named by a constructor of `Reg` and at most two indices: `i` (for the PEN
ranges the pen, elsewhere the index of the row) and `j` (in the PEN ranges the index inside the pen). -/

namespace Sys2Proof.Machine

/-- The access codes of R7. -/
inductive Access where
  | ro | rw | wo | w1c | w1s | rc
  deriving DecidableEq, Repr

/-- One non-reserved field of a register: bits hi to lo, access code, reset value, and whether it is an
expert (E) field (R13). -/
structure FieldSpec where
  hi : Nat
  lo : Nat
  acc : Access
  rst : Nat
  expert : Bool
  deriving DecidableEq, Repr

/-- The registers of the Register index (spec/23), one name per row of the index. -/
inductive Reg where
  | shpIdent
  | shpVersion
  | shpWhoami
  | shpTieToken
  | shpExpertKey
  | shpExpert
  | shpStat
  | shpLinkToAddr
  | shpSemHeldA
  | shpSemHeldB
  | shpSemOrphan
  | shpSemFault
  | shpMbxOutCtl
  | shpMbxInCtl
  | shpDbOut
  | shpDbIn
  | shpDbInMask
  | shpIntSrc0
  | shpIntSrc1
  | shpIntLine
  | shpSem
  | shpMbxOutData
  | shpMbxInData
  | shpIntEn
  | shpIntRoute
  | shpIntCause
  | pwrAvsCmd
  | pwrAvsCtl
  | pwrAvsResult
  | pwrBlock
  | pwrClkTo
  | pwrEvt
  | pwrMode
  | pwrPdFault
  | pwrPdOn
  | pwrPdTo
  | pwrQuiesceTo
  | pwrRetain
  | pwrSentinel
  | pwrSettle
  | pwrSleepTallyHi
  | pwrSleepTallyLo
  | pwrStat
  | pwrTrimIdle
  | pwrVeto
  | pwrVetoWindow
  | pwrWait
  | pwrWakeEn
  | pwrWakeStat
  | pwrWakeTimer
  | pwrVolt
  | fldApply
  | fldCmd
  | fldCtl
  | fldErrInfo
  | fldEvt
  | fldForceId
  | fldForceLen
  | fldLen
  | fldOfs
  | fldStat
  | fldDigest
  | fldExpect
  | fldStage
  | timEvt
  | timAonTol
  | timLogStat
  | timLogLost
  | timLogPop
  | timTxlogHead
  | timRxlogHead
  | timCtl
  | timStat
  | timNowNs
  | timNowSl
  | timNowSh
  | timSetNs
  | timSetSl
  | timSetSh
  | timOfs
  | timRate
  | timThresh
  | timCorrWd
  | timAonNs
  | timHoldErr
  | timPinCfg
  | timPinNs
  | timPinSl
  | timPinSh
  | timPinMiss
  | timPoutCfg
  | timPoutStartNs
  | timPoutStartSl
  | timPoutStartSh
  | timPoutPeriod
  | timPoutWidth
  | timPortCfg
  | timPortAdj
  | cvuEvt
  | cvuDgCfg
  | cvuCtxCfg
  | cvuCtxCmd
  | cvuCtxFeed
  | cvuCtxState
  | cvuCtxResult
  | cvuCtxCount
  | hdmCtl
  | hdmStat
  | hdmEvt
  | hdmRspTo
  | hdmCplPop
  | hdmErrInfo
  | hdmErrAddrLo
  | hdmErrAddrHi
  | hdmCplHead
  | hdmChCtl
  | hdmChCfg
  | hdmChSrcLo
  | hdmChSrcHi
  | hdmChDstLo
  | hdmChDstHi
  | hdmChCount
  | hdmChTimer
  | hdmChLeft
  | hdmChStat
  | pmnCtl
  | pmnStat
  | pmnEvt
  | pmnCycleLo
  | pmnCycleHi
  | pmnCfg
  | pmnCntLo
  | pmnCntHi
  | flkCtl
  | flkStat
  | flkAddr
  | flkEvt
  | flkIdentLo
  | flkIdentHi
  | flkRivalLo
  | flkRivalHi
  | flkLinkUp
  | flkLinkChg
  | flkDrop
  | flkLinkStat
  | flkNbrLo
  | flkNbrHi
  | flkLcnt
  | flkRoute
  | penLinkCtl
  | penLinkStat
  | penLinkChg
  | penLpiCtl
  | penLaneTest
  | penLaneErrs
  | penLaneUser
  | penRxCtl
  | penRxFiltCtl
  | penRxPauseStat
  | penRxStormChg
  | penRxTpid
  | penRxWd
  | penRxStageStat
  | penRxAddrLo
  | penRxAddrHi
  | penWakeData
  | penWakeMask
  | penWakeCtl
  | penWakeHit
  | penWakeCap
  | penSortField
  | penParseStat
  | penGrazeCtl
  | penGrazeStat
  | penTblSel
  | penTblData
  | penParsePort
  | penMerge
  | penLooplen
  | penTxCtl
  | penTxFc
  | penTxSaLo
  | penTxSaHi
  | penMmCtl
  | penMmStat
  | penMmChg
  | penTallyLo
  | penTallyHi
  | penTsnapLo
  | penTsnapHi
  | penTallyCtl
  | penTallyEvt
  | larCmd
  | larLoc
  | larStat
  | larEvt
  | larLive
  | larEngCfg
  | larEpoch
  | larEpochReq
  | larCand
  | larEpochWatch
  | larStage
  | larSymFmt
  | larSymExtra
  | larSymSeed
  | larGeom
  | larSpan
  | larSeeda
  | larSeedb
  | larAttic0
  | larAttic
  | larCseed
  | actCmd
  | actStat
  | actMcCfg
  | actLoopCfg
  | actEvt
  | actData
  | actEcmp
  | actSampCfg
  | actSampDest
  | actSampLeft
  | celCfg
  | celStat
  | celEvt
  | celRedSeed
  | celFlushCmd
  | celFlushStat
  | celMinStat
  | celRecStat
  | celPoolLimit
  | celPoolUse
  | celPoolHr
  | celPoolHrUse
  | celLandLimit
  | celLandUse
  | celRedLo
  | celRedHi
  | celPortCfg
  | celFcStat
  | celIgUse
  | celQCfg
  | celQRed
  | celQUse
  | celQDrop
  | drvEvt
  | drvPortCfg
  | drvPortRate
  | drvPortBurst
  | drvPortTok
  | drvClassCfg
  | drvClassRate
  | drvClassBurst
  | drvClassTok
  | drvClassDef
  | drvGateCtl
  | drvGateCycle
  | drvGateBaseNs
  | drvGateBaseSl
  | drvGateBaseSh
  | drvGateStat
  | drvGclLo
  | drvGclHi
  | trgTxqCtl
  | trgTxqBaseLo
  | trgTxqBaseHi
  | trgTxqCfg
  | trgTxqCfg2
  | trgTxqIdx
  | trgTxqFrames
  | trgTxqErrs
  | trgRxqCtl
  | trgRxqBaseLo
  | trgRxqBaseHi
  | trgRxqCfg
  | trgRxqCfg2
  | trgRxqLimit
  | trgRxqIdx
  | trgRxqUse
  | trgRxqFrames
  | trgRxqDrops
  | trgCqCtl
  | trgCqBaseLo
  | trgCqBaseHi
  | trgCqCfg
  | trgCqCiLo
  | trgCqCiHi
  | trgCqIdx
  | trgCqStat
  | trgCqStalls
  | trgTenBlo
  | trgTenBhi
  | trgTenLlo
  | trgTenLhi
  | trgSpread
  | trgEvt
  | trgCfg
  | trgHoldCfg
  | trgPollIvl
  | trgPollLate
  | trgPenStat
  | stpCfg
  | stpEvt
  | stpQuota
  | stpPortCfg
  | stpPortStat
  | stpErrCtl
  | stpErrAddrLo
  | stpErrAddrHi
  | stpErrOwner
  | stpReqCfg
  | stpReqStat
  | stpReqCuts
  deriving DecidableEq, Repr

/-- A named field of a register: what the unit chapters call REGISTER.FIELD. -/
structure RegField where
  reg : Reg
  hi : Nat
  lo : Nat
  deriving DecidableEq, Repr

/-- The address formula of a register (R622): base + s1 * i + s2 * j for i < n1 and j < n2. -/
structure RegGeom where
  base : Nat
  s1 : Nat
  n1 : Nat
  s2 : Nat
  n2 : Nat
  deriving DecidableEq, Repr

/-- The address formulas of the Register index (spec/23 R620, R622 and the index tables). -/
def Reg.geom : Reg → RegGeom
  | .shpIdent => ⟨0x0000000, 134217728, 1, 1, 1⟩
  | .shpVersion => ⟨0x0000004, 134217728, 1, 1, 1⟩
  | .shpWhoami => ⟨0x0000008, 134217728, 1, 1, 1⟩
  | .shpTieToken => ⟨0x000000C, 134217728, 1, 1, 1⟩
  | .shpExpertKey => ⟨0x0000010, 134217728, 1, 1, 1⟩
  | .shpExpert => ⟨0x0000014, 134217728, 1, 1, 1⟩
  | .shpStat => ⟨0x0000018, 134217728, 1, 1, 1⟩
  | .shpLinkToAddr => ⟨0x000001C, 134217728, 1, 1, 1⟩
  | .shpSemHeldA => ⟨0x0000020, 134217728, 1, 1, 1⟩
  | .shpSemHeldB => ⟨0x0000024, 134217728, 1, 1, 1⟩
  | .shpSemOrphan => ⟨0x0000028, 134217728, 1, 1, 1⟩
  | .shpSemFault => ⟨0x000002C, 134217728, 1, 1, 1⟩
  | .shpMbxOutCtl => ⟨0x0000220, 134217728, 1, 1, 1⟩
  | .shpMbxInCtl => ⟨0x0000260, 134217728, 1, 1, 1⟩
  | .shpDbOut => ⟨0x0000300, 134217728, 1, 1, 1⟩
  | .shpDbIn => ⟨0x0000304, 134217728, 1, 1, 1⟩
  | .shpDbInMask => ⟨0x0000308, 134217728, 1, 1, 1⟩
  | .shpIntSrc0 => ⟨0x0000400, 134217728, 1, 1, 1⟩
  | .shpIntSrc1 => ⟨0x0000404, 134217728, 1, 1, 1⟩
  | .shpIntLine => ⟨0x0000408, 134217728, 1, 1, 1⟩
  | .shpSem => ⟨0x0000100, 4, 32, 1, 1⟩
  | .shpMbxOutData => ⟨0x0000200, 4, 8, 1, 1⟩
  | .shpMbxInData => ⟨0x0000240, 4, 8, 1, 1⟩
  | .shpIntEn => ⟨0x0000500, 4, 64, 1, 1⟩
  | .shpIntRoute => ⟨0x0000600, 4, 64, 1, 1⟩
  | .shpIntCause => ⟨0x0000700, 4, 64, 1, 1⟩
  | .pwrAvsCmd => ⟨0x001004C, 134217728, 1, 1, 1⟩
  | .pwrAvsCtl => ⟨0x0010048, 134217728, 1, 1, 1⟩
  | .pwrAvsResult => ⟨0x0010050, 134217728, 1, 1, 1⟩
  | .pwrBlock => ⟨0x0010014, 134217728, 1, 1, 1⟩
  | .pwrClkTo => ⟨0x0010038, 134217728, 1, 1, 1⟩
  | .pwrEvt => ⟨0x0010010, 134217728, 1, 1, 1⟩
  | .pwrMode => ⟨0x0010000, 134217728, 1, 1, 1⟩
  | .pwrPdFault => ⟨0x0010044, 134217728, 1, 1, 1⟩
  | .pwrPdOn => ⟨0x0010040, 134217728, 1, 1, 1⟩
  | .pwrPdTo => ⟨0x001003C, 134217728, 1, 1, 1⟩
  | .pwrQuiesceTo => ⟨0x0010034, 134217728, 1, 1, 1⟩
  | .pwrRetain => ⟨0x0010018, 134217728, 1, 1, 1⟩
  | .pwrSentinel => ⟨0x001001C, 134217728, 1, 1, 1⟩
  | .pwrSettle => ⟨0x0010054, 134217728, 1, 1, 1⟩
  | .pwrSleepTallyHi => ⟨0x001005C, 134217728, 1, 1, 1⟩
  | .pwrSleepTallyLo => ⟨0x0010058, 134217728, 1, 1, 1⟩
  | .pwrStat => ⟨0x001000C, 134217728, 1, 1, 1⟩
  | .pwrTrimIdle => ⟨0x001002C, 134217728, 1, 1, 1⟩
  | .pwrVeto => ⟨0x0010008, 134217728, 1, 1, 1⟩
  | .pwrVetoWindow => ⟨0x0010030, 134217728, 1, 1, 1⟩
  | .pwrWait => ⟨0x0010004, 134217728, 1, 1, 1⟩
  | .pwrWakeEn => ⟨0x0010020, 134217728, 1, 1, 1⟩
  | .pwrWakeStat => ⟨0x0010024, 134217728, 1, 1, 1⟩
  | .pwrWakeTimer => ⟨0x0010028, 134217728, 1, 1, 1⟩
  | .pwrVolt => ⟨0x0010080, 4, 20, 1, 1⟩
  | .fldApply => ⟨0x0020100, 134217728, 1, 1, 1⟩
  | .fldCmd => ⟨0x0020000, 134217728, 1, 1, 1⟩
  | .fldCtl => ⟨0x0020004, 134217728, 1, 1, 1⟩
  | .fldErrInfo => ⟨0x0020018, 134217728, 1, 1, 1⟩
  | .fldEvt => ⟨0x0020014, 134217728, 1, 1, 1⟩
  | .fldForceId => ⟨0x002001C, 134217728, 1, 1, 1⟩
  | .fldForceLen => ⟨0x0020060, 134217728, 1, 1, 1⟩
  | .fldLen => ⟨0x002000C, 134217728, 1, 1, 1⟩
  | .fldOfs => ⟨0x0020008, 134217728, 1, 1, 1⟩
  | .fldStat => ⟨0x0020010, 134217728, 1, 1, 1⟩
  | .fldDigest => ⟨0x0020040, 4, 8, 1, 1⟩
  | .fldExpect => ⟨0x0020020, 4, 8, 1, 1⟩
  | .fldStage => ⟨0x0028000, 4, 8192, 1, 1⟩
  | .timEvt => ⟨0x0030000, 134217728, 1, 1, 1⟩
  | .timAonTol => ⟨0x0030004, 134217728, 1, 1, 1⟩
  | .timLogStat => ⟨0x0030008, 4, 2, 1, 1⟩
  | .timLogLost => ⟨0x0030010, 4, 2, 1, 1⟩
  | .timLogPop => ⟨0x0030018, 134217728, 1, 1, 1⟩
  | .timTxlogHead => ⟨0x0030040, 4, 8, 1, 1⟩
  | .timRxlogHead => ⟨0x0030060, 4, 8, 1, 1⟩
  | .timCtl => ⟨0x0030100, 64, 8, 1, 1⟩
  | .timStat => ⟨0x0030104, 64, 8, 1, 1⟩
  | .timNowNs => ⟨0x0030108, 64, 8, 1, 1⟩
  | .timNowSl => ⟨0x003010C, 64, 8, 1, 1⟩
  | .timNowSh => ⟨0x0030110, 64, 8, 1, 1⟩
  | .timSetNs => ⟨0x0030114, 64, 8, 1, 1⟩
  | .timSetSl => ⟨0x0030118, 64, 8, 1, 1⟩
  | .timSetSh => ⟨0x003011C, 64, 8, 1, 1⟩
  | .timOfs => ⟨0x0030120, 64, 8, 1, 1⟩
  | .timRate => ⟨0x0030124, 64, 8, 1, 1⟩
  | .timThresh => ⟨0x0030128, 64, 8, 1, 1⟩
  | .timCorrWd => ⟨0x003012C, 64, 8, 1, 1⟩
  | .timAonNs => ⟨0x0030130, 64, 8, 1, 1⟩
  | .timHoldErr => ⟨0x0030134, 64, 8, 1, 1⟩
  | .timPinCfg => ⟨0x0030400, 32, 4, 1, 1⟩
  | .timPinNs => ⟨0x0030404, 32, 4, 1, 1⟩
  | .timPinSl => ⟨0x0030408, 32, 4, 1, 1⟩
  | .timPinSh => ⟨0x003040C, 32, 4, 1, 1⟩
  | .timPinMiss => ⟨0x0030410, 32, 4, 1, 1⟩
  | .timPoutCfg => ⟨0x0030500, 32, 4, 1, 1⟩
  | .timPoutStartNs => ⟨0x0030504, 32, 4, 1, 1⟩
  | .timPoutStartSl => ⟨0x0030508, 32, 4, 1, 1⟩
  | .timPoutStartSh => ⟨0x003050C, 32, 4, 1, 1⟩
  | .timPoutPeriod => ⟨0x0030510, 32, 4, 1, 1⟩
  | .timPoutWidth => ⟨0x0030514, 32, 4, 1, 1⟩
  | .timPortCfg => ⟨0x0031000, 8, 520, 1, 1⟩
  | .timPortAdj => ⟨0x0031004, 8, 520, 1, 1⟩
  | .cvuEvt => ⟨0x0040000, 134217728, 1, 1, 1⟩
  | .cvuDgCfg => ⟨0x0040004, 134217728, 1, 1, 1⟩
  | .cvuCtxCfg => ⟨0x0040100, 32, 16, 1, 1⟩
  | .cvuCtxCmd => ⟨0x0040104, 32, 16, 1, 1⟩
  | .cvuCtxFeed => ⟨0x0040108, 32, 16, 1, 1⟩
  | .cvuCtxState => ⟨0x004010C, 32, 16, 1, 1⟩
  | .cvuCtxResult => ⟨0x0040110, 32, 16, 1, 1⟩
  | .cvuCtxCount => ⟨0x0040114, 32, 16, 1, 1⟩
  | .hdmCtl => ⟨0x0050000, 134217728, 1, 1, 1⟩
  | .hdmStat => ⟨0x0050004, 134217728, 1, 1, 1⟩
  | .hdmEvt => ⟨0x0050008, 134217728, 1, 1, 1⟩
  | .hdmRspTo => ⟨0x005000C, 134217728, 1, 1, 1⟩
  | .hdmCplPop => ⟨0x0050010, 134217728, 1, 1, 1⟩
  | .hdmErrInfo => ⟨0x0050014, 134217728, 1, 1, 1⟩
  | .hdmErrAddrLo => ⟨0x0050018, 134217728, 1, 1, 1⟩
  | .hdmErrAddrHi => ⟨0x005001C, 134217728, 1, 1, 1⟩
  | .hdmCplHead => ⟨0x0050020, 4, 4, 1, 1⟩
  | .hdmChCtl => ⟨0x0050100, 64, 16, 1, 1⟩
  | .hdmChCfg => ⟨0x0050104, 64, 16, 1, 1⟩
  | .hdmChSrcLo => ⟨0x0050108, 64, 16, 1, 1⟩
  | .hdmChSrcHi => ⟨0x005010C, 64, 16, 1, 1⟩
  | .hdmChDstLo => ⟨0x0050110, 64, 16, 1, 1⟩
  | .hdmChDstHi => ⟨0x0050114, 64, 16, 1, 1⟩
  | .hdmChCount => ⟨0x0050118, 64, 16, 1, 1⟩
  | .hdmChTimer => ⟨0x005011C, 64, 16, 1, 1⟩
  | .hdmChLeft => ⟨0x0050120, 64, 16, 1, 1⟩
  | .hdmChStat => ⟨0x0050124, 64, 16, 1, 1⟩
  | .pmnCtl => ⟨0x0060000, 134217728, 1, 1, 1⟩
  | .pmnStat => ⟨0x0060004, 134217728, 1, 1, 1⟩
  | .pmnEvt => ⟨0x0060008, 134217728, 1, 1, 1⟩
  | .pmnCycleLo => ⟨0x0060010, 134217728, 1, 1, 1⟩
  | .pmnCycleHi => ⟨0x0060014, 134217728, 1, 1, 1⟩
  | .pmnCfg => ⟨0x0060040, 16, 8, 1, 1⟩
  | .pmnCntLo => ⟨0x0060044, 16, 8, 1, 1⟩
  | .pmnCntHi => ⟨0x0060048, 16, 8, 1, 1⟩
  | .flkCtl => ⟨0x0070000, 134217728, 1, 1, 1⟩
  | .flkStat => ⟨0x0070004, 134217728, 1, 1, 1⟩
  | .flkAddr => ⟨0x0070008, 134217728, 1, 1, 1⟩
  | .flkEvt => ⟨0x007000C, 134217728, 1, 1, 1⟩
  | .flkIdentLo => ⟨0x0070010, 134217728, 1, 1, 1⟩
  | .flkIdentHi => ⟨0x0070014, 134217728, 1, 1, 1⟩
  | .flkRivalLo => ⟨0x0070018, 134217728, 1, 1, 1⟩
  | .flkRivalHi => ⟨0x007001C, 134217728, 1, 1, 1⟩
  | .flkLinkUp => ⟨0x0070020, 134217728, 1, 1, 1⟩
  | .flkLinkChg => ⟨0x0070024, 134217728, 1, 1, 1⟩
  | .flkDrop => ⟨0x0070028, 4, 5, 1, 1⟩
  | .flkLinkStat => ⟨0x0070100, 16, 32, 1, 1⟩
  | .flkNbrLo => ⟨0x0070104, 16, 32, 1, 1⟩
  | .flkNbrHi => ⟨0x0070108, 16, 32, 1, 1⟩
  | .flkLcnt => ⟨0x0071000, 4, 256, 1, 1⟩
  | .flkRoute => ⟨0x0074000, 4, 4096, 1, 1⟩
  | .penLinkCtl => ⟨0x0100000, 65536, 40, 4, 16⟩
  | .penLinkStat => ⟨0x0100040, 65536, 40, 4, 16⟩
  | .penLinkChg => ⟨0x0100080, 65536, 40, 1, 1⟩
  | .penLpiCtl => ⟨0x0100100, 65536, 40, 4, 16⟩
  | .penLaneTest => ⟨0x0100200, 65536, 40, 4, 16⟩
  | .penLaneErrs => ⟨0x0100240, 65536, 40, 4, 16⟩
  | .penLaneUser => ⟨0x0100280, 65536, 40, 4, 4⟩
  | .penRxCtl => ⟨0x0100300, 65536, 40, 4, 16⟩
  | .penRxFiltCtl => ⟨0x0100340, 65536, 40, 4, 16⟩
  | .penRxPauseStat => ⟨0x0100380, 65536, 40, 4, 16⟩
  | .penRxStormChg => ⟨0x01003F0, 65536, 40, 1, 1⟩
  | .penRxTpid => ⟨0x01003F4, 65536, 40, 1, 1⟩
  | .penRxWd => ⟨0x01003F8, 65536, 40, 1, 1⟩
  | .penRxStageStat => ⟨0x01003FC, 65536, 40, 1, 1⟩
  | .penRxAddrLo => ⟨0x0100400, 65536, 40, 8, 128⟩
  | .penRxAddrHi => ⟨0x0100404, 65536, 40, 8, 128⟩
  | .penWakeData => ⟨0x0100800, 65536, 40, 4, 128⟩
  | .penWakeMask => ⟨0x0100A00, 65536, 40, 4, 128⟩
  | .penWakeCtl => ⟨0x0100C00, 65536, 40, 4, 4⟩
  | .penWakeHit => ⟨0x0100C10, 65536, 40, 1, 1⟩
  | .penWakeCap => ⟨0x0100C80, 65536, 40, 4, 32⟩
  | .penSortField => ⟨0x0100D00, 65536, 40, 4, 4⟩
  | .penParseStat => ⟨0x0100D10, 65536, 40, 1, 1⟩
  | .penGrazeCtl => ⟨0x0100D14, 65536, 40, 1, 1⟩
  | .penGrazeStat => ⟨0x0100D18, 65536, 40, 1, 1⟩
  | .penTblSel => ⟨0x0100D20, 65536, 40, 1, 1⟩
  | .penTblData => ⟨0x0100D24, 65536, 40, 1, 1⟩
  | .penParsePort => ⟨0x0100D40, 65536, 40, 4, 16⟩
  | .penMerge => ⟨0x0101000, 65536, 40, 4, 256⟩
  | .penLooplen => ⟨0x0101400, 65536, 40, 4, 256⟩
  | .penTxCtl => ⟨0x0101800, 65536, 40, 4, 16⟩
  | .penTxFc => ⟨0x0101840, 65536, 40, 4, 16⟩
  | .penTxSaLo => ⟨0x0101880, 65536, 40, 8, 16⟩
  | .penTxSaHi => ⟨0x0101884, 65536, 40, 8, 16⟩
  | .penMmCtl => ⟨0x0101900, 65536, 40, 4, 16⟩
  | .penMmStat => ⟨0x0101940, 65536, 40, 4, 16⟩
  | .penMmChg => ⟨0x0101980, 65536, 40, 1, 1⟩
  | .penTallyLo => ⟨0x0108000, 65536, 40, 8, 2048⟩
  | .penTallyHi => ⟨0x0108004, 65536, 40, 8, 2048⟩
  | .penTsnapLo => ⟨0x010C000, 65536, 40, 8, 96⟩
  | .penTsnapHi => ⟨0x010C004, 65536, 40, 8, 96⟩
  | .penTallyCtl => ⟨0x010C400, 65536, 40, 1, 1⟩
  | .penTallyEvt => ⟨0x010C404, 65536, 40, 1, 1⟩
  | .larCmd => ⟨0x0400000, 134217728, 1, 1, 1⟩
  | .larLoc => ⟨0x0400004, 134217728, 1, 1, 1⟩
  | .larStat => ⟨0x0400008, 134217728, 1, 1, 1⟩
  | .larEvt => ⟨0x040000C, 134217728, 1, 1, 1⟩
  | .larLive => ⟨0x0400010, 134217728, 1, 1, 1⟩
  | .larEngCfg => ⟨0x0400014, 134217728, 1, 1, 1⟩
  | .larEpoch => ⟨0x0400020, 134217728, 1, 1, 1⟩
  | .larEpochReq => ⟨0x0400024, 134217728, 1, 1, 1⟩
  | .larCand => ⟨0x0400018, 4, 2, 1, 1⟩
  | .larEpochWatch => ⟨0x0400028, 4, 2, 1, 1⟩
  | .larStage => ⟨0x0400040, 4, 16, 1, 1⟩
  | .larSymFmt => ⟨0x0400100, 16, 8, 1, 1⟩
  | .larSymExtra => ⟨0x0400104, 16, 8, 1, 1⟩
  | .larSymSeed => ⟨0x0400108, 16, 8, 1, 1⟩
  | .larGeom => ⟨0x0400200, 16, 16, 1, 1⟩
  | .larSpan => ⟨0x0400204, 16, 16, 1, 1⟩
  | .larSeeda => ⟨0x0400208, 16, 16, 1, 1⟩
  | .larSeedb => ⟨0x040020C, 16, 16, 1, 1⟩
  | .larAttic0 => ⟨0x0400300, 134217728, 1, 1, 1⟩
  | .larAttic => ⟨0x0400304, 4, 16, 1, 1⟩
  | .larCseed => ⟨0x0400400, 4, 64, 1, 1⟩
  | .actCmd => ⟨0x0500000, 134217728, 1, 1, 1⟩
  | .actStat => ⟨0x0500004, 134217728, 1, 1, 1⟩
  | .actMcCfg => ⟨0x0500008, 134217728, 1, 1, 1⟩
  | .actLoopCfg => ⟨0x050000C, 134217728, 1, 1, 1⟩
  | .actEvt => ⟨0x0500010, 134217728, 1, 1, 1⟩
  | .actData => ⟨0x0500080, 4, 32, 1, 1⟩
  | .actEcmp => ⟨0x0501000, 4, 1024, 1, 1⟩
  | .actSampCfg => ⟨0x0502000, 16, 128, 1, 1⟩
  | .actSampDest => ⟨0x0502004, 16, 128, 1, 1⟩
  | .actSampLeft => ⟨0x0502008, 16, 128, 1, 1⟩
  | .celCfg => ⟨0x0600000, 134217728, 1, 1, 1⟩
  | .celStat => ⟨0x0600004, 134217728, 1, 1, 1⟩
  | .celEvt => ⟨0x0600008, 134217728, 1, 1, 1⟩
  | .celRedSeed => ⟨0x060000C, 134217728, 1, 1, 1⟩
  | .celFlushCmd => ⟨0x0600010, 134217728, 1, 1, 1⟩
  | .celFlushStat => ⟨0x0600014, 134217728, 1, 1, 1⟩
  | .celMinStat => ⟨0x0600018, 134217728, 1, 1, 1⟩
  | .celRecStat => ⟨0x060001C, 134217728, 1, 1, 1⟩
  | .celPoolLimit => ⟨0x0600040, 16, 4, 1, 1⟩
  | .celPoolUse => ⟨0x0600044, 16, 4, 1, 1⟩
  | .celPoolHr => ⟨0x0600048, 16, 4, 1, 1⟩
  | .celPoolHrUse => ⟨0x060004C, 16, 4, 1, 1⟩
  | .celLandLimit => ⟨0x0600100, 8, 40, 1, 1⟩
  | .celLandUse => ⟨0x0600104, 8, 40, 1, 1⟩
  | .celRedLo => ⟨0x0601000, 8, 192, 1, 1⟩
  | .celRedHi => ⟨0x0601004, 8, 192, 1, 1⟩
  | .celPortCfg => ⟨0x0602000, 4, 520, 1, 1⟩
  | .celFcStat => ⟨0x0603000, 4, 520, 1, 1⟩
  | .celIgUse => ⟨0x0604000, 4, 4096, 1, 1⟩
  | .celQCfg => ⟨0x0610000, 16, 4160, 1, 1⟩
  | .celQRed => ⟨0x0610004, 16, 4160, 1, 1⟩
  | .celQUse => ⟨0x0610008, 16, 4160, 1, 1⟩
  | .celQDrop => ⟨0x061000C, 16, 4160, 1, 1⟩
  | .drvEvt => ⟨0x0800000, 134217728, 1, 1, 1⟩
  | .drvPortCfg => ⟨0x0810000, 16, 520, 1, 1⟩
  | .drvPortRate => ⟨0x0810004, 16, 520, 1, 1⟩
  | .drvPortBurst => ⟨0x0810008, 16, 520, 1, 1⟩
  | .drvPortTok => ⟨0x081000C, 16, 520, 1, 1⟩
  | .drvClassCfg => ⟨0x0820000, 32, 4160, 1, 1⟩
  | .drvClassRate => ⟨0x0820004, 32, 4160, 1, 1⟩
  | .drvClassBurst => ⟨0x0820008, 32, 4160, 1, 1⟩
  | .drvClassTok => ⟨0x082000C, 32, 4160, 1, 1⟩
  | .drvClassDef => ⟨0x0820010, 32, 4160, 1, 1⟩
  | .drvGateCtl => ⟨0x0860000, 32, 512, 1, 1⟩
  | .drvGateCycle => ⟨0x0860004, 32, 512, 1, 1⟩
  | .drvGateBaseNs => ⟨0x0860008, 32, 512, 1, 1⟩
  | .drvGateBaseSl => ⟨0x086000C, 32, 512, 1, 1⟩
  | .drvGateBaseSh => ⟨0x0860010, 32, 512, 1, 1⟩
  | .drvGateStat => ⟨0x0860014, 32, 512, 1, 1⟩
  | .drvGclLo => ⟨0x0A00000, 8, 131072, 1, 1⟩
  | .drvGclHi => ⟨0x0A00004, 8, 131072, 1, 1⟩
  | .trgTxqCtl => ⟨0x1000000, 64, 32768, 1, 1⟩
  | .trgTxqBaseLo => ⟨0x1000004, 64, 32768, 1, 1⟩
  | .trgTxqBaseHi => ⟨0x1000008, 64, 32768, 1, 1⟩
  | .trgTxqCfg => ⟨0x100000C, 64, 32768, 1, 1⟩
  | .trgTxqCfg2 => ⟨0x1000010, 64, 32768, 1, 1⟩
  | .trgTxqIdx => ⟨0x1000014, 64, 32768, 1, 1⟩
  | .trgTxqFrames => ⟨0x1000018, 64, 32768, 1, 1⟩
  | .trgTxqErrs => ⟨0x100001C, 64, 32768, 1, 1⟩
  | .trgRxqCtl => ⟨0x1200000, 64, 32768, 1, 1⟩
  | .trgRxqBaseLo => ⟨0x1200004, 64, 32768, 1, 1⟩
  | .trgRxqBaseHi => ⟨0x1200008, 64, 32768, 1, 1⟩
  | .trgRxqCfg => ⟨0x120000C, 64, 32768, 1, 1⟩
  | .trgRxqCfg2 => ⟨0x1200010, 64, 32768, 1, 1⟩
  | .trgRxqLimit => ⟨0x1200014, 64, 32768, 1, 1⟩
  | .trgRxqIdx => ⟨0x1200018, 64, 32768, 1, 1⟩
  | .trgRxqUse => ⟨0x120001C, 64, 32768, 1, 1⟩
  | .trgRxqFrames => ⟨0x1200020, 64, 32768, 1, 1⟩
  | .trgRxqDrops => ⟨0x1200024, 64, 32768, 1, 1⟩
  | .trgCqCtl => ⟨0x1400000, 64, 4096, 1, 1⟩
  | .trgCqBaseLo => ⟨0x1400004, 64, 4096, 1, 1⟩
  | .trgCqBaseHi => ⟨0x1400008, 64, 4096, 1, 1⟩
  | .trgCqCfg => ⟨0x140000C, 64, 4096, 1, 1⟩
  | .trgCqCiLo => ⟨0x1400010, 64, 4096, 1, 1⟩
  | .trgCqCiHi => ⟨0x1400014, 64, 4096, 1, 1⟩
  | .trgCqIdx => ⟨0x1400018, 64, 4096, 1, 1⟩
  | .trgCqStat => ⟨0x140001C, 64, 4096, 1, 1⟩
  | .trgCqStalls => ⟨0x1400020, 64, 4096, 1, 1⟩
  | .trgTenBlo => ⟨0x1440000, 16, 16384, 1, 1⟩
  | .trgTenBhi => ⟨0x1440004, 16, 16384, 1, 1⟩
  | .trgTenLlo => ⟨0x1440008, 16, 16384, 1, 1⟩
  | .trgTenLhi => ⟨0x144000C, 16, 16384, 1, 1⟩
  | .trgSpread => ⟨0x1480000, 4, 32768, 1, 1⟩
  | .trgEvt => ⟨0x14F0000, 134217728, 1, 1, 1⟩
  | .trgCfg => ⟨0x14F0004, 134217728, 1, 1, 1⟩
  | .trgHoldCfg => ⟨0x14F0008, 134217728, 1, 1, 1⟩
  | .trgPollIvl => ⟨0x14F0010, 4, 8, 1, 1⟩
  | .trgPollLate => ⟨0x14F0040, 4, 8, 1, 1⟩
  | .trgPenStat => ⟨0x14F0080, 4, 6, 1, 1⟩
  | .stpCfg => ⟨0x2000000, 134217728, 1, 1, 1⟩
  | .stpEvt => ⟨0x2000004, 134217728, 1, 1, 1⟩
  | .stpQuota => ⟨0x2000040, 4, 24, 1, 1⟩
  | .stpPortCfg => ⟨0x2000100, 32, 6, 1, 1⟩
  | .stpPortStat => ⟨0x2000104, 32, 6, 1, 1⟩
  | .stpErrCtl => ⟨0x2000108, 32, 6, 1, 1⟩
  | .stpErrAddrLo => ⟨0x200010C, 32, 6, 1, 1⟩
  | .stpErrAddrHi => ⟨0x2000110, 32, 6, 1, 1⟩
  | .stpErrOwner => ⟨0x2000114, 32, 6, 1, 1⟩
  | .stpReqCfg => ⟨0x2001000, 16, 48, 1, 1⟩
  | .stpReqStat => ⟨0x2001004, 16, 48, 1, 1⟩
  | .stpReqCuts => ⟨0x2001008, 16, 48, 1, 1⟩

/-- The registers of unit SHP. -/
def Reg.allShp : List Reg :=
  [.shpIdent, .shpVersion, .shpWhoami, .shpTieToken, .shpExpertKey, .shpExpert, .shpStat, .shpLinkToAddr, .shpSemHeldA, .shpSemHeldB, .shpSemOrphan, .shpSemFault, .shpMbxOutCtl, .shpMbxInCtl, .shpDbOut, .shpDbIn, .shpDbInMask, .shpIntSrc0, .shpIntSrc1, .shpIntLine, .shpSem, .shpMbxOutData, .shpMbxInData, .shpIntEn, .shpIntRoute, .shpIntCause]

/-- The registers of unit PWR. -/
def Reg.allPwr : List Reg :=
  [.pwrAvsCmd, .pwrAvsCtl, .pwrAvsResult, .pwrBlock, .pwrClkTo, .pwrEvt, .pwrMode, .pwrPdFault, .pwrPdOn, .pwrPdTo, .pwrQuiesceTo, .pwrRetain, .pwrSentinel, .pwrSettle, .pwrSleepTallyHi, .pwrSleepTallyLo, .pwrStat, .pwrTrimIdle, .pwrVeto, .pwrVetoWindow, .pwrWait, .pwrWakeEn, .pwrWakeStat, .pwrWakeTimer, .pwrVolt]

/-- The registers of unit FLD. -/
def Reg.allFld : List Reg :=
  [.fldApply, .fldCmd, .fldCtl, .fldErrInfo, .fldEvt, .fldForceId, .fldForceLen, .fldLen, .fldOfs, .fldStat, .fldDigest, .fldExpect, .fldStage]

/-- The registers of unit TIM. -/
def Reg.allTim : List Reg :=
  [.timEvt, .timAonTol, .timLogStat, .timLogLost, .timLogPop, .timTxlogHead, .timRxlogHead, .timCtl, .timStat, .timNowNs, .timNowSl, .timNowSh, .timSetNs, .timSetSl, .timSetSh, .timOfs, .timRate, .timThresh, .timCorrWd, .timAonNs, .timHoldErr, .timPinCfg, .timPinNs, .timPinSl, .timPinSh, .timPinMiss, .timPoutCfg, .timPoutStartNs, .timPoutStartSl, .timPoutStartSh, .timPoutPeriod, .timPoutWidth, .timPortCfg, .timPortAdj]

/-- The registers of unit CVU. -/
def Reg.allCvu : List Reg :=
  [.cvuEvt, .cvuDgCfg, .cvuCtxCfg, .cvuCtxCmd, .cvuCtxFeed, .cvuCtxState, .cvuCtxResult, .cvuCtxCount]

/-- The registers of unit HDM. -/
def Reg.allHdm : List Reg :=
  [.hdmCtl, .hdmStat, .hdmEvt, .hdmRspTo, .hdmCplPop, .hdmErrInfo, .hdmErrAddrLo, .hdmErrAddrHi, .hdmCplHead, .hdmChCtl, .hdmChCfg, .hdmChSrcLo, .hdmChSrcHi, .hdmChDstLo, .hdmChDstHi, .hdmChCount, .hdmChTimer, .hdmChLeft, .hdmChStat]

/-- The registers of unit PMN. -/
def Reg.allPmn : List Reg :=
  [.pmnCtl, .pmnStat, .pmnEvt, .pmnCycleLo, .pmnCycleHi, .pmnCfg, .pmnCntLo, .pmnCntHi]

/-- The registers of unit FLK. -/
def Reg.allFlk : List Reg :=
  [.flkCtl, .flkStat, .flkAddr, .flkEvt, .flkIdentLo, .flkIdentHi, .flkRivalLo, .flkRivalHi, .flkLinkUp, .flkLinkChg, .flkDrop, .flkLinkStat, .flkNbrLo, .flkNbrHi, .flkLcnt, .flkRoute]

/-- The registers of unit PEN. -/
def Reg.allPen : List Reg :=
  [.penLinkCtl, .penLinkStat, .penLinkChg, .penLpiCtl, .penLaneTest, .penLaneErrs, .penLaneUser, .penRxCtl, .penRxFiltCtl, .penRxPauseStat, .penRxStormChg, .penRxTpid, .penRxWd, .penRxStageStat, .penRxAddrLo, .penRxAddrHi, .penWakeData, .penWakeMask, .penWakeCtl, .penWakeHit, .penWakeCap, .penSortField, .penParseStat, .penGrazeCtl, .penGrazeStat, .penTblSel, .penTblData, .penParsePort, .penMerge, .penLooplen, .penTxCtl, .penTxFc, .penTxSaLo, .penTxSaHi, .penMmCtl, .penMmStat, .penMmChg, .penTallyLo, .penTallyHi, .penTsnapLo, .penTsnapHi, .penTallyCtl, .penTallyEvt]

/-- The registers of unit LAR. -/
def Reg.allLar : List Reg :=
  [.larCmd, .larLoc, .larStat, .larEvt, .larLive, .larEngCfg, .larEpoch, .larEpochReq, .larCand, .larEpochWatch, .larStage, .larSymFmt, .larSymExtra, .larSymSeed, .larGeom, .larSpan, .larSeeda, .larSeedb, .larAttic0, .larAttic, .larCseed]

/-- The registers of unit ACT. -/
def Reg.allAct : List Reg :=
  [.actCmd, .actStat, .actMcCfg, .actLoopCfg, .actEvt, .actData, .actEcmp, .actSampCfg, .actSampDest, .actSampLeft]

/-- The registers of unit CEL. -/
def Reg.allCel : List Reg :=
  [.celCfg, .celStat, .celEvt, .celRedSeed, .celFlushCmd, .celFlushStat, .celMinStat, .celRecStat, .celPoolLimit, .celPoolUse, .celPoolHr, .celPoolHrUse, .celLandLimit, .celLandUse, .celRedLo, .celRedHi, .celPortCfg, .celFcStat, .celIgUse, .celQCfg, .celQRed, .celQUse, .celQDrop]

/-- The registers of unit DRV. -/
def Reg.allDrv : List Reg :=
  [.drvEvt, .drvPortCfg, .drvPortRate, .drvPortBurst, .drvPortTok, .drvClassCfg, .drvClassRate, .drvClassBurst, .drvClassTok, .drvClassDef, .drvGateCtl, .drvGateCycle, .drvGateBaseNs, .drvGateBaseSl, .drvGateBaseSh, .drvGateStat, .drvGclLo, .drvGclHi]

/-- The registers of unit TRG. -/
def Reg.allTrg : List Reg :=
  [.trgTxqCtl, .trgTxqBaseLo, .trgTxqBaseHi, .trgTxqCfg, .trgTxqCfg2, .trgTxqIdx, .trgTxqFrames, .trgTxqErrs, .trgRxqCtl, .trgRxqBaseLo, .trgRxqBaseHi, .trgRxqCfg, .trgRxqCfg2, .trgRxqLimit, .trgRxqIdx, .trgRxqUse, .trgRxqFrames, .trgRxqDrops, .trgCqCtl, .trgCqBaseLo, .trgCqBaseHi, .trgCqCfg, .trgCqCiLo, .trgCqCiHi, .trgCqIdx, .trgCqStat, .trgCqStalls, .trgTenBlo, .trgTenBhi, .trgTenLlo, .trgTenLhi, .trgSpread, .trgEvt, .trgCfg, .trgHoldCfg, .trgPollIvl, .trgPollLate, .trgPenStat]

/-- The registers of unit STP. -/
def Reg.allStp : List Reg :=
  [.stpCfg, .stpEvt, .stpQuota, .stpPortCfg, .stpPortStat, .stpErrCtl, .stpErrAddrLo, .stpErrAddrHi, .stpErrOwner, .stpReqCfg, .stpReqStat, .stpReqCuts]

/-- Every register, unit by unit. -/
def Reg.all : List Reg :=
  ([Reg.allShp, Reg.allPwr, Reg.allFld, Reg.allTim, Reg.allCvu, Reg.allHdm, Reg.allPmn, Reg.allFlk, Reg.allPen, Reg.allLar, Reg.allAct, Reg.allCel, Reg.allDrv, Reg.allTrg, Reg.allStp] : List (List Reg)).flatten

/-- The fields of each register, most significant first, as the field tables give them: access code, reset
value and level. Reserved bits have no entry: they read 0 and take no write (R10). -/
def Reg.fields : Reg → List FieldSpec
  | .shpIdent => [⟨31, 0, .ro, 0x51440102, false⟩]
  | .shpVersion => [⟨31, 16, .ro, 3, false⟩, ⟨15, 8, .ro, 0, false⟩, ⟨7, 0, .ro, 0, false⟩]
  | .shpWhoami => [⟨11, 8, .ro, 0, false⟩, ⟨7, 4, .ro, 0, false⟩, ⟨0, 0, .ro, 0, false⟩]
  | .shpTieToken => [⟨0, 0, .ro, 0, false⟩]
  | .shpExpertKey => [⟨31, 0, .wo, 0, false⟩]
  | .shpExpert => [⟨14, 14, .rw, 0, false⟩, ⟨13, 13, .rw, 0, false⟩, ⟨12, 12, .rw, 0, false⟩, ⟨11, 11, .rw, 0, false⟩, ⟨10, 10, .rw, 0, false⟩, ⟨9, 9, .rw, 0, false⟩, ⟨8, 8, .rw, 0, false⟩, ⟨7, 7, .rw, 0, false⟩, ⟨6, 6, .rw, 0, false⟩, ⟨5, 5, .rw, 0, false⟩, ⟨4, 4, .rw, 0, false⟩, ⟨3, 3, .rw, 0, false⟩, ⟨2, 2, .rw, 0, false⟩, ⟨1, 1, .rw, 0, false⟩, ⟨0, 0, .rw, 0, false⟩]
  | .shpStat => [⟨1, 1, .w1c, 0, false⟩, ⟨0, 0, .w1c, 0, false⟩]
  | .shpLinkToAddr => [⟨26, 0, .ro, 0, false⟩]
  | .shpSemHeldA => [⟨31, 0, .ro, 0, false⟩]
  | .shpSemHeldB => [⟨31, 0, .ro, 0, false⟩]
  | .shpSemOrphan => [⟨31, 0, .w1c, 0, false⟩]
  | .shpSemFault => [⟨31, 0, .w1c, 0, false⟩]
  | .shpMbxOutCtl => [⟨19, 16, .ro, 0, false⟩, ⟨9, 9, .ro, 0, false⟩, ⟨8, 8, .ro, 0, false⟩, ⟨0, 0, .wo, 0, false⟩]
  | .shpMbxInCtl => [⟨19, 16, .ro, 0, false⟩, ⟨9, 9, .w1c, 0, false⟩, ⟨8, 8, .w1c, 0, false⟩]
  | .shpDbOut => [⟨31, 0, .w1s, 0, false⟩]
  | .shpDbIn => [⟨31, 0, .w1c, 0, false⟩]
  | .shpDbInMask => [⟨31, 0, .rw, 0xffffffff, false⟩]
  | .shpIntSrc0 => [⟨31, 0, .ro, 0, false⟩]
  | .shpIntSrc1 => [⟨31, 0, .ro, 0, false⟩]
  | .shpIntLine => [⟨15, 0, .ro, 0, false⟩]
  | .shpSem => [⟨8, 8, .wo, 0, false⟩, ⟨1, 0, .ro, 0, false⟩]
  | .shpMbxOutData => [⟨31, 0, .rw, 0, false⟩]
  | .shpMbxInData => [⟨31, 0, .ro, 0, false⟩]
  | .shpIntEn => [⟨15, 0, .rw, 0, false⟩]
  | .shpIntRoute => [⟨3, 0, .rw, 0, false⟩]
  | .shpIntCause => [⟨15, 0, .ro, 0, false⟩]
  | .pwrAvsCmd => [⟨31, 16, .wo, 0, false⟩, ⟨5, 4, .wo, 0, false⟩, ⟨1, 0, .wo, 0, false⟩]
  | .pwrAvsCtl => [⟨31, 16, .rw, 100, true⟩, ⟨1, 0, .rw, 0, true⟩]
  | .pwrAvsResult => [⟨31, 16, .ro, 0, false⟩, ⟨2, 2, .ro, 0, false⟩, ⟨1, 1, .w1c, 0, false⟩, ⟨0, 0, .ro, 0, false⟩]
  | .pwrBlock => [⟨8, 0, .ro, 0, false⟩]
  | .pwrClkTo => [⟨31, 16, .rw, 200, true⟩, ⟨15, 0, .rw, 200, true⟩]
  | .pwrEvt => [⟨15, 15, .w1c, 0, false⟩, ⟨14, 14, .w1c, 0, false⟩, ⟨13, 13, .w1c, 0, false⟩, ⟨12, 12, .w1c, 0, false⟩, ⟨11, 11, .w1c, 0, false⟩, ⟨10, 10, .w1c, 0, false⟩, ⟨9, 9, .w1c, 0, false⟩, ⟨8, 8, .w1c, 0, false⟩, ⟨7, 7, .w1c, 0, false⟩, ⟨6, 6, .w1c, 0, false⟩, ⟨5, 5, .w1c, 0, false⟩, ⟨4, 4, .w1c, 0, false⟩, ⟨3, 3, .w1c, 0, false⟩, ⟨2, 2, .ro, 0, false⟩, ⟨1, 1, .w1c, 0, false⟩, ⟨0, 0, .w1c, 0, false⟩]
  | .pwrMode => [⟨8, 8, .rw, 0, false⟩, ⟨2, 0, .rw, 0, false⟩]
  | .pwrPdFault => [⟨19, 1, .w1c, 0, false⟩]
  | .pwrPdOn => [⟨19, 1, .ro, 0, false⟩]
  | .pwrPdTo => [⟨15, 0, .rw, 100, true⟩]
  | .pwrQuiesceTo => [⟨15, 0, .rw, 100, false⟩]
  | .pwrRetain => [⟨3, 3, .rw, 0, false⟩, ⟨2, 2, .rw, 0, false⟩, ⟨1, 1, .rw, 0, false⟩, ⟨0, 0, .rw, 0, false⟩]
  | .pwrSentinel => [⟨7, 0, .rw, 0, false⟩]
  | .pwrSettle => [⟨15, 0, .rw, 40, false⟩]
  | .pwrSleepTallyHi => [⟨31, 0, .ro, 0, false⟩]
  | .pwrSleepTallyLo => [⟨31, 0, .ro, 0, false⟩]
  | .pwrStat => [⟨31, 29, .ro, 0, false⟩, ⟨28, 26, .ro, 0, false⟩, ⟨25, 25, .ro, 0, false⟩, ⟨24, 24, .ro, 0, false⟩, ⟨23, 20, .ro, 0, false⟩, ⟨19, 18, .ro, 0, false⟩]
  | .pwrTrimIdle => [⟨15, 0, .rw, 1000, false⟩]
  | .pwrVeto => [⟨0, 0, .wo, 0, false⟩]
  | .pwrVetoWindow => [⟨15, 0, .rw, 1000, true⟩]
  | .pwrWait => [⟨31, 0, .wo, 0, false⟩]
  | .pwrWakeEn => [⟨1, 1, .rw, 0, false⟩, ⟨0, 0, .rw, 0, false⟩]
  | .pwrWakeStat => [⟨1, 1, .w1c, 0, false⟩, ⟨0, 0, .w1c, 0, false⟩]
  | .pwrWakeTimer => [⟨31, 0, .rw, 0, false⟩]
  | .pwrVolt => [⟨15, 0, .rw, 0, false⟩]
  | .fldApply => []
  | .fldCmd => [⟨21, 16, .wo, 0, false⟩, ⟨3, 0, .wo, 0, false⟩]
  | .fldCtl => [⟨0, 0, .w1s, 0, false⟩]
  | .fldErrInfo => [⟨31, 22, .ro, 0, false⟩, ⟨19, 0, .ro, 0, false⟩]
  | .fldEvt => [⟨4, 4, .ro, 0, false⟩, ⟨3, 3, .w1c, 0, false⟩, ⟨2, 2, .w1c, 0, false⟩, ⟨1, 1, .w1c, 0, false⟩, ⟨0, 0, .w1c, 0, false⟩]
  | .fldForceId => [⟨31, 0, .ro, 0, false⟩]
  | .fldForceLen => [⟨31, 0, .ro, 0, false⟩]
  | .fldLen => [⟨15, 0, .rw, 0, false⟩]
  | .fldOfs => [⟨19, 2, .rw, 0, false⟩]
  | .fldStat => [⟨31, 24, .ro, 0, false⟩, ⟨15, 15, .ro, 0, false⟩, ⟨14, 14, .ro, 0, false⟩, ⟨13, 13, .ro, 0, false⟩, ⟨3, 0, .ro, 0, false⟩]
  | .fldDigest => [⟨31, 0, .ro, 0, false⟩]
  | .fldExpect => [⟨31, 0, .rw, 0, false⟩]
  | .fldStage => [⟨31, 0, .rw, 0, false⟩]
  | .timEvt => [⟨7, 7, .w1c, 0, false⟩, ⟨6, 6, .w1c, 0, false⟩, ⟨5, 5, .ro, 0, false⟩, ⟨4, 4, .w1c, 0, false⟩, ⟨3, 3, .w1c, 0, false⟩, ⟨2, 2, .w1c, 0, false⟩, ⟨1, 1, .ro, 0, false⟩, ⟨0, 0, .ro, 0, false⟩]
  | .timAonTol => [⟨23, 0, .rw, 0x186a0, false⟩]
  | .timLogStat => [⟨12, 0, .ro, 0, false⟩]
  | .timLogLost => [⟨31, 0, .rc, 0, false⟩]
  | .timLogPop => [⟨1, 1, .wo, 0, false⟩, ⟨0, 0, .wo, 0, false⟩]
  | .timTxlogHead => [⟨31, 0, .ro, 0, false⟩]
  | .timRxlogHead => [⟨31, 0, .ro, 0, false⟩]
  | .timCtl => [⟨16, 16, .rw, 1, true⟩, ⟨7, 7, .wo, 0, false⟩, ⟨3, 0, .wo, 0, false⟩]
  | .timStat => [⟨31, 31, .ro, 1, false⟩, ⟨30, 30, .ro, 1, false⟩, ⟨29, 29, .w1c, 0, false⟩, ⟨28, 28, .ro, 0, false⟩, ⟨27, 27, .w1c, 0, false⟩]
  | .timNowNs => [⟨29, 0, .ro, 0, false⟩]
  | .timNowSl => [⟨31, 0, .ro, 0, false⟩]
  | .timNowSh => [⟨15, 0, .ro, 0, false⟩]
  | .timSetNs => [⟨29, 0, .rw, 0, false⟩]
  | .timSetSl => [⟨31, 0, .rw, 0, false⟩]
  | .timSetSh => [⟨15, 0, .rw, 0, false⟩]
  | .timOfs => [⟨31, 0, .rw, 0, false⟩]
  | .timRate => [⟨31, 0, .rw, 0, false⟩]
  | .timThresh => [⟨31, 0, .rw, 0xf4240, false⟩]
  | .timCorrWd => [⟨15, 0, .rw, 0, false⟩]
  | .timAonNs => [⟨31, 0, .rw, 0x14000000, false⟩]
  | .timHoldErr => [⟨31, 0, .ro, 0, false⟩]
  | .timPinCfg => [⟨31, 31, .rw, 0, false⟩, ⟨5, 4, .rw, 0, false⟩, ⟨2, 0, .rw, 0, false⟩]
  | .timPinNs => [⟨31, 31, .w1c, 0, false⟩, ⟨30, 30, .ro, 0, false⟩, ⟨29, 0, .ro, 0, false⟩]
  | .timPinSl => [⟨31, 0, .ro, 0, false⟩]
  | .timPinSh => [⟨15, 0, .ro, 0, false⟩]
  | .timPinMiss => [⟨31, 0, .rc, 0, false⟩]
  | .timPoutCfg => [⟨31, 31, .rw, 0, false⟩, ⟨30, 30, .rw, 0, false⟩, ⟨2, 0, .rw, 0, false⟩]
  | .timPoutStartNs => [⟨29, 0, .rw, 0, false⟩]
  | .timPoutStartSl => [⟨31, 0, .rw, 0, false⟩]
  | .timPoutStartSh => [⟨15, 0, .rw, 0, false⟩]
  | .timPoutPeriod => [⟨31, 0, .rw, 0x3b9aca00, false⟩]
  | .timPoutWidth => [⟨31, 0, .rw, 0x186a0, false⟩]
  | .timPortCfg => [⟨31, 31, .rw, 0, false⟩]
  | .timPortAdj => [⟨31, 16, .rw, 0, false⟩, ⟨15, 0, .rw, 0, false⟩]
  | .cvuEvt => []
  | .cvuDgCfg => [⟨5, 0, .rw, 0, false⟩]
  | .cvuCtxCfg => [⟨31, 31, .ro, 0, false⟩, ⟨4, 4, .rw, 0, false⟩, ⟨1, 0, .rw, 0, false⟩]
  | .cvuCtxCmd => [⟨0, 0, .wo, 0, false⟩]
  | .cvuCtxFeed => [⟨31, 0, .wo, 0, false⟩]
  | .cvuCtxState => [⟨31, 0, .rw, 0, false⟩]
  | .cvuCtxResult => [⟨31, 0, .ro, 0, false⟩]
  | .cvuCtxCount => [⟨31, 0, .rw, 0, false⟩]
  | .hdmCtl => [⟨0, 0, .wo, 0, false⟩]
  | .hdmStat => [⟨31, 31, .ro, 0, false⟩, ⟨30, 30, .ro, 0, false⟩, ⟨27, 24, .ro, 0, false⟩, ⟨8, 0, .ro, 0, false⟩]
  | .hdmEvt => [⟨5, 5, .w1c, 0, false⟩, ⟨4, 4, .w1c, 0, false⟩, ⟨3, 3, .w1c, 0, false⟩, ⟨2, 2, .ro, 0, false⟩, ⟨1, 1, .w1c, 0, false⟩, ⟨0, 0, .ro, 0, false⟩]
  | .hdmRspTo => [⟨15, 0, .rw, 100, true⟩]
  | .hdmCplPop => [⟨0, 0, .wo, 0, false⟩]
  | .hdmErrInfo => [⟨31, 31, .w1c, 0, false⟩, ⟨30, 27, .ro, 0, false⟩, ⟨23, 16, .ro, 0, false⟩]
  | .hdmErrAddrLo => [⟨31, 0, .ro, 0, false⟩]
  | .hdmErrAddrHi => [⟨31, 0, .ro, 0, false⟩]
  | .hdmCplHead => [⟨31, 0, .ro, 0, false⟩]
  | .hdmChCtl => [⟨31, 31, .rw, 0, false⟩, ⟨30, 30, .wo, 0, false⟩, ⟨27, 27, .rw, 0, false⟩, ⟨26, 26, .rw, 0, false⟩, ⟨23, 20, .rw, 0, false⟩, ⟨2, 2, .rw, 0, false⟩, ⟨1, 1, .rw, 0, false⟩, ⟨0, 0, .rw, 0, false⟩]
  | .hdmChCfg => [⟨31, 20, .rw, 0, false⟩, ⟨18, 16, .rw, 0, false⟩, ⟨15, 8, .rw, 0, false⟩, ⟨1, 1, .rw, 0, false⟩, ⟨0, 0, .rw, 0, false⟩]
  | .hdmChSrcLo => [⟨31, 0, .rw, 0, false⟩]
  | .hdmChSrcHi => [⟨31, 0, .rw, 0, false⟩]
  | .hdmChDstLo => [⟨31, 0, .rw, 0, false⟩]
  | .hdmChDstHi => [⟨31, 0, .rw, 0, false⟩]
  | .hdmChCount => [⟨23, 0, .rw, 0, false⟩]
  | .hdmChTimer => [⟨23, 0, .rw, 1000, false⟩]
  | .hdmChLeft => [⟨23, 0, .ro, 0, false⟩]
  | .hdmChStat => [⟨31, 29, .ro, 0, false⟩, ⟨28, 28, .w1c, 0, false⟩]
  | .pmnCtl => [⟨31, 31, .rw, 0, false⟩, ⟨30, 30, .wo, 0, false⟩]
  | .pmnStat => [⟨31, 31, .ro, 0, false⟩]
  | .pmnEvt => [⟨24, 16, .w1c, 0, false⟩, ⟨8, 0, .w1c, 0, false⟩]
  | .pmnCycleLo => [⟨31, 0, .rw, 0, false⟩]
  | .pmnCycleHi => [⟨31, 31, .ro, 0, false⟩, ⟨15, 0, .rw, 0, false⟩]
  | .pmnCfg => [⟨31, 31, .rw, 0, false⟩, ⟨27, 26, .rw, 0, false⟩, ⟨25, 16, .rw, 0, false⟩, ⟨7, 0, .rw, 0, false⟩]
  | .pmnCntLo => [⟨31, 0, .rw, 0, false⟩]
  | .pmnCntHi => [⟨31, 31, .ro, 0, false⟩, ⟨15, 0, .rw, 0, false⟩]
  | .flkCtl => [⟨3, 0, .wo, 0, false⟩]
  | .flkStat => [⟨31, 29, .ro, 0, false⟩, ⟨28, 28, .ro, 0, false⟩, ⟨19, 16, .ro, 0, false⟩, ⟨11, 0, .ro, 0, false⟩]
  | .flkAddr => [⟨11, 0, .rw, 0, false⟩]
  | .flkEvt => [⟨4, 4, .ro, 0, false⟩, ⟨3, 3, .w1c, 0, false⟩, ⟨2, 2, .w1c, 0, false⟩, ⟨1, 1, .w1c, 0, false⟩, ⟨0, 0, .w1c, 0, false⟩]
  | .flkIdentLo => [⟨31, 0, .ro, 0, false⟩]
  | .flkIdentHi => [⟨31, 0, .ro, 0, false⟩]
  | .flkRivalLo => [⟨31, 0, .ro, 0, false⟩]
  | .flkRivalHi => [⟨31, 0, .ro, 0, false⟩]
  | .flkLinkUp => [⟨31, 0, .ro, 0, false⟩]
  | .flkLinkChg => [⟨31, 0, .w1c, 0, false⟩]
  | .flkDrop => [⟨31, 0, .rc, 0, false⟩]
  | .flkLinkStat => [⟨31, 30, .ro, 0, false⟩, ⟨29, 29, .ro, 0, false⟩, ⟨28, 24, .ro, 0, false⟩, ⟨23, 12, .ro, 0, false⟩, ⟨9, 0, .ro, 0, false⟩]
  | .flkNbrLo => [⟨31, 0, .ro, 0, false⟩]
  | .flkNbrHi => [⟨31, 0, .ro, 0, false⟩]
  | .flkLcnt => [⟨31, 0, .rc, 0, false⟩]
  | .flkRoute => [⟨31, 0, .rw, 0, false⟩]
  | .penLinkCtl => [⟨31, 16, .rw, 0, false⟩, ⟨8, 8, .rw, 0, true⟩, ⟨5, 4, .rw, 0, false⟩, ⟨1, 1, .rw, 0, false⟩, ⟨0, 0, .rw, 1, false⟩]
  | .penLinkStat => [⟨31, 28, .ro, 1, false⟩, ⟨19, 19, .ro, 0, false⟩, ⟨18, 18, .ro, 0, false⟩, ⟨17, 17, .ro, 0, false⟩, ⟨16, 16, .ro, 0, false⟩, ⟨15, 8, .ro, 0, false⟩, ⟨7, 0, .ro, 0, false⟩]
  | .penLinkChg => [⟨15, 0, .w1c, 0, false⟩]
  | .penLpiCtl => [⟨31, 16, .rw, 0, false⟩, ⟨15, 0, .rw, 0, false⟩]
  | .penLaneTest => [⟨15, 15, .ro, 0, false⟩, ⟨11, 8, .rw, 0, false⟩, ⟨3, 0, .rw, 0, false⟩]
  | .penLaneErrs => [⟨31, 0, .rc, 0, false⟩]
  | .penLaneUser => [⟨31, 0, .rw, 0, false⟩]
  | .penRxCtl => [⟨16, 16, .rw, 0, false⟩, ⟨15, 8, .rw, 0, false⟩, ⟨3, 3, .rw, 0, false⟩, ⟨2, 2, .rw, 1, false⟩, ⟨1, 1, .rw, 0, true⟩, ⟨0, 0, .rw, 0, false⟩]
  | .penRxFiltCtl => [⟨2, 2, .rw, 1, false⟩, ⟨1, 1, .rw, 1, false⟩, ⟨0, 0, .rw, 0, false⟩]
  | .penRxPauseStat => [⟨15, 8, .ro, 0, false⟩, ⟨7, 0, .ro, 0, false⟩]
  | .penRxStormChg => [⟨15, 0, .w1c, 0, false⟩]
  | .penRxTpid => [⟨31, 16, .rw, 0x88a8, false⟩, ⟨15, 0, .rw, 0x8100, false⟩]
  | .penRxWd => [⟨31, 16, .rw, 100, false⟩, ⟨15, 0, .rw, 400, false⟩]
  | .penRxStageStat => [⟨31, 20, .rc, 0, false⟩, ⟨19, 8, .ro, 0, false⟩, ⟨7, 0, .ro, 0, false⟩]
  | .penRxAddrLo => [⟨31, 0, .rw, 0, false⟩]
  | .penRxAddrHi => [⟨31, 31, .rw, 0, false⟩, ⟨15, 0, .rw, 0, false⟩]
  | .penWakeData => [⟨31, 0, .rw, 0, false⟩]
  | .penWakeMask => [⟨31, 0, .rw, 0, false⟩]
  | .penWakeCtl => [⟨31, 31, .rw, 0, false⟩, ⟨30, 30, .rw, 0, false⟩, ⟨15, 0, .rw, 0, false⟩]
  | .penWakeHit => [⟨11, 8, .ro, 0, false⟩, ⟨3, 0, .w1c, 0, false⟩]
  | .penWakeCap => [⟨31, 0, .ro, 0, false⟩]
  | .penSortField => [⟨7, 0, .rw, 255, false⟩]
  | .penParseStat => [⟨31, 31, .w1c, 0, false⟩, ⟨30, 30, .ro, 0, false⟩, ⟨29, 25, .ro, 0, false⟩, ⟨24, 21, .ro, 0, false⟩, ⟨20, 19, .ro, 0, false⟩, ⟨15, 8, .ro, 0, false⟩]
  | .penGrazeCtl => [⟨14, 8, .rw, 64, true⟩, ⟨0, 0, .rw, 1, false⟩]
  | .penGrazeStat => [⟨22, 16, .rc, 0, false⟩, ⟨6, 0, .ro, 0, false⟩]
  | .penTblSel => [⟨31, 30, .rw, 0, false⟩, ⟨28, 16, .rw, 0, false⟩, ⟨5, 0, .rw, 0, false⟩]
  | .penTblData => [⟨31, 0, .ro, 0, false⟩]
  | .penParsePort => [⟨31, 30, .rw, 0, false⟩, ⟨29, 27, .rw, 0, false⟩, ⟨25, 16, .rw, 0, false⟩, ⟨15, 8, .rw, 0, false⟩, ⟨7, 0, .rw, 0, false⟩]
  | .penMerge => [⟨31, 28, .rw, 0, false⟩, ⟨27, 26, .rw, 0, false⟩, ⟨25, 24, .rw, 0, false⟩, ⟨21, 16, .rw, 0, false⟩, ⟨15, 8, .rw, 255, false⟩, ⟨7, 7, .rw, 0, false⟩]
  | .penLooplen => [⟨31, 31, .rw, 0, false⟩, ⟨26, 24, .rw, 0, false⟩, ⟨15, 8, .rw, 0, false⟩, ⟨7, 0, .rw, 0, false⟩]
  | .penTxCtl => [⟨27, 16, .rw, 512, true⟩, ⟨13, 8, .rw, 12, true⟩, ⟨0, 0, .rw, 1, false⟩]
  | .penTxFc => [⟨31, 16, .rw, 0xffff, false⟩, ⟨15, 0, .rw, 0x8000, false⟩]
  | .penTxSaLo => [⟨31, 0, .rw, 0, false⟩]
  | .penTxSaHi => [⟨15, 0, .rw, 0, false⟩]
  | .penMmCtl => [⟨23, 16, .rw, 10, false⟩, ⟨11, 8, .rw, 3, false⟩, ⟨3, 2, .rw, 0, false⟩, ⟨1, 1, .rw, 0, false⟩, ⟨0, 0, .wo, 0, false⟩]
  | .penMmStat => [⟨15, 8, .ro, 0, false⟩, ⟨3, 3, .ro, 0, false⟩, ⟨2, 0, .ro, 0, false⟩]
  | .penMmChg => [⟨15, 0, .w1c, 0, false⟩]
  | .penTallyLo => [⟨31, 0, .rw, 0, false⟩]
  | .penTallyHi => [⟨31, 31, .ro, 0, false⟩, ⟨23, 0, .rw, 0, false⟩]
  | .penTsnapLo => [⟨31, 0, .ro, 0, false⟩]
  | .penTsnapHi => [⟨31, 31, .ro, 0, false⟩, ⟨23, 0, .ro, 0, false⟩]
  | .penTallyCtl => [⟨31, 31, .wo, 0, false⟩, ⟨30, 30, .wo, 0, false⟩, ⟨3, 0, .wo, 0, false⟩]
  | .penTallyEvt => [⟨31, 16, .w1c, 0, false⟩, ⟨15, 0, .w1c, 0, false⟩]
  | .larCmd => [⟨12, 12, .wo, 0, false⟩, ⟨11, 8, .wo, 0, false⟩, ⟨3, 0, .wo, 0, false⟩]
  | .larLoc => [⟨23, 16, .rw, 0, false⟩, ⟨11, 2, .rw, 0, false⟩, ⟨1, 0, .rw, 0, false⟩]
  | .larStat => [⟨31, 24, .ro, 0, false⟩, ⟨21, 16, .ro, 0, false⟩, ⟨15, 15, .ro, 0, false⟩, ⟨14, 14, .ro, 0, false⟩, ⟨13, 13, .ro, 0, false⟩, ⟨12, 12, .ro, 0, false⟩, ⟨6, 0, .ro, 0, false⟩]
  | .larEvt => [⟨5, 5, .ro, 0, false⟩, ⟨4, 4, .ro, 0, false⟩, ⟨3, 3, .w1c, 0, false⟩, ⟨2, 2, .w1c, 0, false⟩, ⟨1, 1, .w1c, 0, false⟩, ⟨0, 0, .w1c, 0, false⟩]
  | .larLive => [⟨15, 0, .rw, 0, false⟩]
  | .larEngCfg => [⟨5, 0, .rw, 8, true⟩]
  | .larEpoch => [⟨31, 16, .ro, 0, false⟩, ⟨15, 0, .ro, 0, false⟩]
  | .larEpochReq => [⟨0, 0, .wo, 0, false⟩]
  | .larCand => [⟨23, 16, .ro, 0, false⟩, ⟨11, 2, .ro, 0, false⟩]
  | .larEpochWatch => [⟨31, 31, .rw, 0, false⟩, ⟨15, 0, .rw, 0, false⟩]
  | .larStage => [⟨31, 0, .rw, 0, false⟩]
  | .larSymFmt => [⟨25, 25, .rw, 0, false⟩, ⟨24, 24, .rw, 0, false⟩, ⟨23, 18, .rw, 0, false⟩, ⟨17, 12, .rw, 0, false⟩, ⟨11, 6, .rw, 0, false⟩, ⟨5, 0, .rw, 0, false⟩]
  | .larSymExtra => [⟨12, 8, .rw, 0, false⟩, ⟨5, 0, .rw, 0, false⟩]
  | .larSymSeed => [⟨31, 0, .rw, 0xffffffff, false⟩]
  | .larGeom => [⟨31, 31, .ro, 0, false⟩, ⟨30, 30, .ro, 0, false⟩, ⟨23, 16, .ro, 0, false⟩, ⟨15, 8, .ro, 0, false⟩, ⟨7, 0, .ro, 0, false⟩]
  | .larSpan => [⟨31, 24, .ro, 0, false⟩, ⟨23, 20, .ro, 0, false⟩, ⟨19, 16, .ro, 0, false⟩, ⟨10, 0, .ro, 0, false⟩]
  | .larSeeda => [⟨31, 0, .ro, 0, false⟩]
  | .larSeedb => [⟨31, 0, .ro, 0, false⟩]
  | .larAttic0 => [⟨28, 28, .wo, 0, false⟩, ⟨27, 24, .wo, 0, false⟩, ⟨23, 16, .wo, 0, false⟩, ⟨11, 2, .wo, 0, false⟩]
  | .larAttic => [⟨31, 0, .wo, 0, false⟩]
  | .larCseed => [⟨31, 0, .rw, 0, false⟩]
  | .actCmd => [⟨20, 4, .wo, 0, false⟩, ⟨3, 0, .wo, 0, false⟩]
  | .actStat => [⟨7, 0, .ro, 0, false⟩]
  | .actMcCfg => [⟨21, 12, .rw, 0, false⟩, ⟨11, 0, .rw, 0, false⟩]
  | .actLoopCfg => [⟨3, 0, .rw, 4, false⟩]
  | .actEvt => [⟨2, 2, .w1c, 0, false⟩, ⟨1, 1, .w1c, 0, false⟩, ⟨0, 0, .w1c, 0, false⟩]
  | .actData => [⟨31, 0, .rw, 0, false⟩]
  | .actEcmp => [⟨31, 31, .rw, 0, false⟩, ⟨26, 24, .rw, 0, false⟩, ⟨11, 0, .rw, 0, false⟩]
  | .actSampCfg => [⟨31, 8, .rw, 0, false⟩, ⟨7, 4, .rw, 2, false⟩, ⟨2, 0, .rw, 0, false⟩]
  | .actSampDest => [⟨25, 16, .rw, 0, false⟩, ⟨15, 15, .rw, 0, false⟩, ⟨14, 0, .rw, 0, false⟩]
  | .actSampLeft => [⟨23, 0, .ro, 0, false⟩]
  | .celCfg => [⟨31, 16, .rw, 64, true⟩]
  | .celStat => [⟨19, 0, .ro, 0x80000, false⟩]
  | .celEvt => [⟨3, 3, .w1c, 0, false⟩, ⟨2, 2, .w1c, 0, false⟩, ⟨1, 1, .w1c, 0, false⟩, ⟨0, 0, .w1c, 0, false⟩]
  | .celRedSeed => [⟨15, 0, .rw, 0xace1, false⟩]
  | .celFlushCmd => [⟨25, 16, .wo, 0, false⟩, ⟨7, 0, .wo, 0, false⟩]
  | .celFlushStat => [⟨31, 31, .ro, 0, false⟩, ⟨19, 0, .ro, 0, false⟩]
  | .celMinStat => [⟨19, 0, .ro, 0, false⟩]
  | .celRecStat => [⟨19, 0, .ro, 0x80000, false⟩]
  | .celPoolLimit => [⟨19, 0, .ro, 0, false⟩]
  | .celPoolUse => [⟨19, 0, .ro, 0, false⟩]
  | .celPoolHr => [⟨19, 0, .ro, 0, false⟩]
  | .celPoolHrUse => [⟨19, 0, .ro, 0, false⟩]
  | .celLandLimit => [⟨15, 0, .ro, 0, false⟩]
  | .celLandUse => [⟨31, 16, .ro, 0, false⟩, ⟨15, 0, .ro, 0, false⟩]
  | .celRedLo => [⟨31, 31, .rw, 0, false⟩, ⟨30, 30, .rw, 0, false⟩, ⟨19, 0, .rw, 0, false⟩]
  | .celRedHi => [⟨31, 20, .rw, 0, false⟩, ⟨19, 0, .rw, 0, false⟩]
  | .celPortCfg => [⟨31, 31, .rw, 1, false⟩, ⟨30, 29, .rw, 0, false⟩, ⟨27, 14, .rw, 256, false⟩, ⟨13, 0, .rw, 192, false⟩]
  | .celFcStat => [⟨15, 8, .ro, 0, false⟩, ⟨7, 0, .ro, 0, false⟩]
  | .celIgUse => [⟨19, 0, .ro, 0, false⟩]
  | .celQCfg => [⟨31, 30, .rw, 0, false⟩, ⟨29, 26, .rw, 8, false⟩, ⟨25, 20, .rw, 0, false⟩, ⟨19, 0, .rw, 0, false⟩]
  | .celQRed => [⟨31, 28, .rw, 9, false⟩, ⟨26, 0, .ro, 0, false⟩]
  | .celQUse => [⟨31, 31, .ro, 0, false⟩, ⟨30, 30, .ro, 0, false⟩, ⟨19, 0, .ro, 0, false⟩]
  | .celQDrop => [⟨31, 0, .rc, 0, false⟩]
  | .drvEvt => [⟨3, 3, .w1c, 0, false⟩, ⟨2, 2, .w1c, 0, false⟩, ⟨1, 1, .w1c, 0, false⟩, ⟨0, 0, .w1c, 0, false⟩]
  | .drvPortCfg => [⟨31, 31, .rw, 0, true⟩, ⟨5, 0, .rw, 20, false⟩]
  | .drvPortRate => [⟨31, 0, .rw, 0, false⟩]
  | .drvPortBurst => [⟨23, 0, .rw, 0, false⟩]
  | .drvPortTok => [⟨31, 0, .ro, 0, false⟩]
  | .drvClassCfg => [⟨31, 31, .rw, 1, false⟩, ⟨30, 30, .rw, 0, false⟩, ⟨11, 0, .rw, 24, false⟩]
  | .drvClassRate => [⟨31, 0, .rw, 0, false⟩]
  | .drvClassBurst => [⟨23, 0, .rw, 0, false⟩]
  | .drvClassTok => [⟨31, 0, .ro, 0, false⟩]
  | .drvClassDef => [⟨31, 0, .ro, 0, false⟩]
  | .drvGateCtl => [⟨31, 31, .wo, 0, false⟩, ⟨30, 30, .rw, 0, false⟩, ⟨24, 16, .rw, 0, false⟩, ⟨7, 0, .rw, 0, false⟩]
  | .drvGateCycle => [⟨31, 0, .rw, 0, false⟩]
  | .drvGateBaseNs => [⟨29, 0, .rw, 0, false⟩]
  | .drvGateBaseSl => [⟨31, 0, .rw, 0, false⟩]
  | .drvGateBaseSh => [⟨15, 0, .rw, 0, false⟩]
  | .drvGateStat => [⟨31, 30, .ro, 0, false⟩, ⟨29, 29, .ro, 0, false⟩, ⟨7, 0, .ro, 0, false⟩]
  | .drvGclLo => [⟨7, 0, .rw, 0, false⟩]
  | .drvGclHi => [⟨31, 0, .rw, 0, false⟩]
  | .trgTxqCtl => [⟨31, 28, .ro, 0, false⟩, ⟨23, 16, .ro, 0, false⟩, ⟨3, 0, .wo, 0, false⟩]
  | .trgTxqBaseLo => [⟨31, 8, .rw, 0, false⟩]
  | .trgTxqBaseHi => [⟨31, 0, .rw, 0, false⟩]
  | .trgTxqCfg => [⟨31, 20, .rw, 0, false⟩, ⟨19, 16, .rw, 0, false⟩, ⟨15, 13, .rw, 0, false⟩, ⟨12, 12, .rw, 0, false⟩, ⟨11, 11, .rw, 0, false⟩, ⟨4, 0, .rw, 0, false⟩]
  | .trgTxqCfg2 => [⟨30, 16, .rw, 0, false⟩, ⟨11, 0, .rw, 0, false⟩]
  | .trgTxqIdx => [⟨31, 31, .ro, 0, false⟩, ⟨19, 16, .ro, 0, false⟩, ⟨15, 0, .ro, 0, false⟩]
  | .trgTxqFrames => [⟨31, 0, .rc, 0, false⟩]
  | .trgTxqErrs => [⟨31, 0, .rc, 0, false⟩]
  | .trgRxqCtl => [⟨31, 28, .ro, 0, false⟩, ⟨23, 16, .ro, 0, false⟩, ⟨3, 0, .wo, 0, false⟩]
  | .trgRxqBaseLo => [⟨31, 8, .rw, 0, false⟩]
  | .trgRxqBaseHi => [⟨31, 0, .rw, 0, false⟩]
  | .trgRxqCfg => [⟨31, 20, .rw, 0, false⟩, ⟨19, 16, .rw, 0, false⟩, ⟨15, 13, .rw, 0, false⟩, ⟨12, 12, .rw, 0, false⟩, ⟨11, 11, .rw, 0, false⟩, ⟨10, 8, .rw, 0, false⟩, ⟨7, 7, .rw, 0, false⟩, ⟨4, 0, .rw, 0, false⟩]
  | .trgRxqCfg2 => [⟨31, 24, .rw, 0, false⟩, ⟨11, 0, .rw, 0, false⟩]
  | .trgRxqLimit => [⟨19, 0, .rw, 0, false⟩]
  | .trgRxqIdx => [⟨31, 31, .ro, 0, false⟩, ⟨19, 16, .ro, 0, false⟩, ⟨15, 0, .ro, 0, false⟩]
  | .trgRxqUse => [⟨19, 0, .ro, 0, false⟩]
  | .trgRxqFrames => [⟨31, 0, .rc, 0, false⟩]
  | .trgRxqDrops => [⟨31, 0, .rc, 0, false⟩]
  | .trgCqCtl => [⟨31, 28, .ro, 0, false⟩, ⟨23, 16, .ro, 0, false⟩, ⟨3, 0, .wo, 0, false⟩]
  | .trgCqBaseLo => [⟨31, 8, .rw, 0, false⟩]
  | .trgCqBaseHi => [⟨31, 0, .rw, 0, false⟩]
  | .trgCqCfg => [⟨31, 20, .rw, 0, false⟩, ⟨4, 0, .rw, 0, false⟩]
  | .trgCqCiLo => [⟨31, 3, .rw, 0, false⟩]
  | .trgCqCiHi => [⟨31, 0, .rw, 0, false⟩]
  | .trgCqIdx => [⟨31, 31, .ro, 0, false⟩, ⟨15, 0, .ro, 0, false⟩]
  | .trgCqStat => [⟨31, 31, .ro, 0, false⟩, ⟨30, 30, .ro, 0, false⟩, ⟨27, 16, .ro, 0, false⟩, ⟨15, 0, .ro, 0, false⟩]
  | .trgCqStalls => [⟨31, 0, .rc, 0, false⟩]
  | .trgTenBlo => [⟨31, 12, .rw, 0, false⟩, ⟨0, 0, .rw, 0, false⟩]
  | .trgTenBhi => [⟨31, 0, .rw, 0, false⟩]
  | .trgTenLlo => [⟨31, 12, .rw, 0, false⟩]
  | .trgTenLhi => [⟨31, 0, .rw, 0, false⟩]
  | .trgSpread => [⟨31, 31, .rw, 0, false⟩, ⟨14, 0, .rw, 0, false⟩]
  | .trgEvt => [⟨5, 5, .w1c, 0, false⟩, ⟨4, 4, .w1c, 0, false⟩, ⟨3, 3, .w1c, 0, false⟩, ⟨2, 2, .w1c, 0, false⟩, ⟨1, 1, .w1c, 0, false⟩, ⟨0, 0, .w1c, 0, false⟩]
  | .trgCfg => [⟨31, 16, .rw, 2000, false⟩, ⟨15, 0, .rw, 1000, false⟩]
  | .trgHoldCfg => [⟨11, 0, .rw, 256, true⟩]
  | .trgPollIvl => [⟨23, 0, .rw, 500, false⟩]
  | .trgPollLate => [⟨31, 0, .rc, 0, false⟩]
  | .trgPenStat => [⟨31, 22, .ro, 0, false⟩, ⟨11, 0, .ro, 0, false⟩]
  | .stpCfg => [⟨3, 0, .rw, 3, true⟩]
  | .stpEvt => [⟨2, 2, .w1c, 0, false⟩, ⟨1, 1, .w1c, 0, false⟩, ⟨0, 0, .ro, 0, false⟩]
  | .stpQuota => [⟨15, 0, .rw, 128, false⟩]
  | .stpPortCfg => [⟨15, 0, .rw, 1024, true⟩]
  | .stpPortStat => [⟨31, 31, .w1c, 0, false⟩, ⟨30, 30, .ro, 0, false⟩, ⟨29, 16, .ro, 0, false⟩, ⟨10, 0, .ro, 0, false⟩]
  | .stpErrCtl => [⟨31, 31, .w1c, 0, false⟩, ⟨30, 28, .ro, 0, false⟩, ⟨27, 26, .ro, 0, false⟩, ⟨25, 25, .ro, 0, false⟩, ⟨19, 16, .ro, 0, false⟩, ⟨12, 0, .ro, 0, false⟩]
  | .stpErrAddrLo => [⟨31, 0, .ro, 0, false⟩]
  | .stpErrAddrHi => [⟨31, 0, .ro, 0, false⟩]
  | .stpErrOwner => [⟨31, 20, .ro, 0, false⟩, ⟨14, 0, .ro, 0, false⟩]
  | .stpReqCfg => [⟨31, 30, .rw, 0, false⟩, ⟨25, 12, .rw, 8192, true⟩, ⟨11, 0, .rw, 64, false⟩]
  | .stpReqStat => [⟨31, 31, .ro, 0, false⟩, ⟨30, 30, .ro, 0, false⟩, ⟨29, 28, .ro, 0, false⟩, ⟨25, 12, .ro, 0, false⟩, ⟨11, 0, .ro, 0, false⟩]
  | .stpReqCuts => [⟨31, 0, .rc, 0, false⟩]

end Sys2Proof.Machine

namespace Sys2Proof.Machine.F

def shpIdent_IDENT : RegField := ⟨.shpIdent, 31, 0⟩
def shpVersion_MAJOR : RegField := ⟨.shpVersion, 31, 16⟩
def shpVersion_MINOR : RegField := ⟨.shpVersion, 15, 8⟩
def shpVersion_PATCH : RegField := ⟨.shpVersion, 7, 0⟩
def shpWhoami_PEER_EPOCH : RegField := ⟨.shpWhoami, 11, 8⟩
def shpWhoami_OWN_EPOCH : RegField := ⟨.shpWhoami, 7, 4⟩
def shpWhoami_PORT : RegField := ⟨.shpWhoami, 0, 0⟩
def shpTieToken_NEXT : RegField := ⟨.shpTieToken, 0, 0⟩
def shpExpertKey_KEY : RegField := ⟨.shpExpertKey, 31, 0⟩
def shpExpert_STP : RegField := ⟨.shpExpert, 14, 14⟩
def shpExpert_TRG : RegField := ⟨.shpExpert, 13, 13⟩
def shpExpert_DRV : RegField := ⟨.shpExpert, 12, 12⟩
def shpExpert_CEL : RegField := ⟨.shpExpert, 11, 11⟩
def shpExpert_ACT : RegField := ⟨.shpExpert, 10, 10⟩
def shpExpert_LAR : RegField := ⟨.shpExpert, 9, 9⟩
def shpExpert_PEN : RegField := ⟨.shpExpert, 8, 8⟩
def shpExpert_FLK : RegField := ⟨.shpExpert, 7, 7⟩
def shpExpert_PMN : RegField := ⟨.shpExpert, 6, 6⟩
def shpExpert_HDM : RegField := ⟨.shpExpert, 5, 5⟩
def shpExpert_CVU : RegField := ⟨.shpExpert, 4, 4⟩
def shpExpert_TIM : RegField := ⟨.shpExpert, 3, 3⟩
def shpExpert_FLD : RegField := ⟨.shpExpert, 2, 2⟩
def shpExpert_PWR : RegField := ⟨.shpExpert, 1, 1⟩
def shpExpert_SHP : RegField := ⟨.shpExpert, 0, 0⟩
def shpStat_PEER_RESET : RegField := ⟨.shpStat, 1, 1⟩
def shpStat_LINK_TO : RegField := ⟨.shpStat, 0, 0⟩
def shpLinkToAddr_ADDR : RegField := ⟨.shpLinkToAddr, 26, 0⟩
def shpSemHeldA_HELD : RegField := ⟨.shpSemHeldA, 31, 0⟩
def shpSemHeldB_HELD : RegField := ⟨.shpSemHeldB, 31, 0⟩
def shpSemOrphan_ORPHAN : RegField := ⟨.shpSemOrphan, 31, 0⟩
def shpSemFault_FAULT : RegField := ⟨.shpSemFault, 31, 0⟩
def shpMbxOutCtl_SENDER_EPOCH : RegField := ⟨.shpMbxOutCtl, 19, 16⟩
def shpMbxOutCtl_COLLISION : RegField := ⟨.shpMbxOutCtl, 9, 9⟩
def shpMbxOutCtl_FULL : RegField := ⟨.shpMbxOutCtl, 8, 8⟩
def shpMbxOutCtl_POST : RegField := ⟨.shpMbxOutCtl, 0, 0⟩
def shpMbxInCtl_SENDER_EPOCH : RegField := ⟨.shpMbxInCtl, 19, 16⟩
def shpMbxInCtl_COLLISION : RegField := ⟨.shpMbxInCtl, 9, 9⟩
def shpMbxInCtl_FULL : RegField := ⟨.shpMbxInCtl, 8, 8⟩
def shpDbOut_RING : RegField := ⟨.shpDbOut, 31, 0⟩
def shpDbIn_PEND : RegField := ⟨.shpDbIn, 31, 0⟩
def shpDbInMask_MASK : RegField := ⟨.shpDbInMask, 31, 0⟩
def shpIntSrc0_SRC : RegField := ⟨.shpIntSrc0, 31, 0⟩
def shpIntSrc1_SRC : RegField := ⟨.shpIntSrc1, 31, 0⟩
def shpIntLine_LINE : RegField := ⟨.shpIntLine, 15, 0⟩
def shpSem_RELEASE : RegField := ⟨.shpSem, 8, 8⟩
def shpSem_STATE : RegField := ⟨.shpSem, 1, 0⟩
def shpMbxOutData_DATA : RegField := ⟨.shpMbxOutData, 31, 0⟩
def shpMbxInData_DATA : RegField := ⟨.shpMbxInData, 31, 0⟩
def shpIntEn_EN : RegField := ⟨.shpIntEn, 15, 0⟩
def shpIntRoute_LINE : RegField := ⟨.shpIntRoute, 3, 0⟩
def shpIntCause_CAUSE : RegField := ⟨.shpIntCause, 15, 0⟩
def pwrAvsCmd_DATA : RegField := ⟨.pwrAvsCmd, 31, 16⟩
def pwrAvsCmd_RAIL : RegField := ⟨.pwrAvsCmd, 5, 4⟩
def pwrAvsCmd_OP : RegField := ⟨.pwrAvsCmd, 1, 0⟩
def pwrAvsCtl_TO_US : RegField := ⟨.pwrAvsCtl, 31, 16⟩
def pwrAvsCtl_DIV : RegField := ⟨.pwrAvsCtl, 1, 0⟩
def pwrAvsResult_DATA : RegField := ⟨.pwrAvsResult, 31, 16⟩
def pwrAvsResult_ERR : RegField := ⟨.pwrAvsResult, 2, 2⟩
def pwrAvsResult_DONE : RegField := ⟨.pwrAvsResult, 1, 1⟩
def pwrAvsResult_BUSY : RegField := ⟨.pwrAvsResult, 0, 0⟩
def pwrBlock_COND : RegField := ⟨.pwrBlock, 8, 0⟩
def pwrClkTo_STOP_US : RegField := ⟨.pwrClkTo, 31, 16⟩
def pwrClkTo_START_US : RegField := ⟨.pwrClkTo, 15, 0⟩
def pwrEvt_AVS_ERR : RegField := ⟨.pwrEvt, 15, 15⟩
def pwrEvt_DOMAIN_FAULT : RegField := ⟨.pwrEvt, 14, 14⟩
def pwrEvt_PD_TIMEOUT : RegField := ⟨.pwrEvt, 13, 13⟩
def pwrEvt_CLK_TIMEOUT : RegField := ⟨.pwrEvt, 12, 12⟩
def pwrEvt_AVS_TIMEOUT : RegField := ⟨.pwrEvt, 11, 11⟩
def pwrEvt_CRUISE_EXIT : RegField := ⟨.pwrEvt, 10, 10⟩
def pwrEvt_CRUISE_REFUSED : RegField := ⟨.pwrEvt, 9, 9⟩
def pwrEvt_WAIT_REFUSED : RegField := ⟨.pwrEvt, 8, 8⟩
def pwrEvt_QUIESCE_FAIL : RegField := ⟨.pwrEvt, 7, 7⟩
def pwrEvt_WAKE_FAIL : RegField := ⟨.pwrEvt, 6, 6⟩
def pwrEvt_WAKE_DONE : RegField := ⟨.pwrEvt, 5, 5⟩
def pwrEvt_ENTERED : RegField := ⟨.pwrEvt, 4, 4⟩
def pwrEvt_VETOED : RegField := ⟨.pwrEvt, 3, 3⟩
def pwrEvt_GOING_DOWN : RegField := ⟨.pwrEvt, 2, 2⟩
def pwrEvt_COLD_FAIL : RegField := ⟨.pwrEvt, 1, 1⟩
def pwrEvt_COLD_DONE : RegField := ⟨.pwrEvt, 0, 0⟩
def pwrMode_CRUISE : RegField := ⟨.pwrMode, 8, 8⟩
def pwrMode_TARGET : RegField := ⟨.pwrMode, 2, 0⟩
def pwrPdFault_FAULT : RegField := ⟨.pwrPdFault, 19, 1⟩
def pwrPdOn_ON : RegField := ⟨.pwrPdOn, 19, 1⟩
def pwrPdTo_US : RegField := ⟨.pwrPdTo, 15, 0⟩
def pwrQuiesceTo_MS : RegField := ⟨.pwrQuiesceTo, 15, 0⟩
def pwrRetain_FLOWCNT : RegField := ⟨.pwrRetain, 3, 3⟩
def pwrRetain_LARDER : RegField := ⟨.pwrRetain, 2, 2⟩
def pwrRetain_CELLAR : RegField := ⟨.pwrRetain, 1, 1⟩
def pwrRetain_QCTX : RegField := ⟨.pwrRetain, 0, 0⟩
def pwrSentinel_DOM : RegField := ⟨.pwrSentinel, 7, 0⟩
def pwrSettle_US : RegField := ⟨.pwrSettle, 15, 0⟩
def pwrSleepTallyHi_N : RegField := ⟨.pwrSleepTallyHi, 31, 0⟩
def pwrSleepTallyLo_N : RegField := ⟨.pwrSleepTallyLo, 31, 0⟩
def pwrStat_STATE : RegField := ⟨.pwrStat, 31, 29⟩
def pwrStat_LATCHED : RegField := ⟨.pwrStat, 28, 26⟩
def pwrStat_WAITER : RegField := ⟨.pwrStat, 25, 25⟩
def pwrStat_CRUISE_ON : RegField := ⟨.pwrStat, 24, 24⟩
def pwrStat_PHASE : RegField := ⟨.pwrStat, 23, 20⟩
def pwrStat_ATTEMPT : RegField := ⟨.pwrStat, 19, 18⟩
def pwrTrimIdle_NS : RegField := ⟨.pwrTrimIdle, 15, 0⟩
def pwrVeto_VETO : RegField := ⟨.pwrVeto, 0, 0⟩
def pwrVetoWindow_US : RegField := ⟨.pwrVetoWindow, 15, 0⟩
def pwrWait_WORD : RegField := ⟨.pwrWait, 31, 0⟩
def pwrWakeEn_TIMER : RegField := ⟨.pwrWakeEn, 1, 1⟩
def pwrWakeEn_SENTINEL : RegField := ⟨.pwrWakeEn, 0, 0⟩
def pwrWakeStat_TIMER : RegField := ⟨.pwrWakeStat, 1, 1⟩
def pwrWakeStat_SENTINEL : RegField := ⟨.pwrWakeStat, 0, 0⟩
def pwrWakeTimer_MS : RegField := ⟨.pwrWakeTimer, 31, 0⟩
def pwrVolt_MV : RegField := ⟨.pwrVolt, 15, 0⟩
def fldCmd_PEN : RegField := ⟨.fldCmd, 21, 16⟩
def fldCmd_OP : RegField := ⟨.fldCmd, 3, 0⟩
def fldCtl_DIGEST_LOCK : RegField := ⟨.fldCtl, 0, 0⟩
def fldErrInfo_SECTION : RegField := ⟨.fldErrInfo, 31, 22⟩
def fldErrInfo_OFFSET : RegField := ⟨.fldErrInfo, 19, 0⟩
def fldEvt_BUSY : RegField := ⟨.fldEvt, 4, 4⟩
def fldEvt_RESTORE_ERR : RegField := ⟨.fldEvt, 3, 3⟩
def fldEvt_RESTORED : RegField := ⟨.fldEvt, 2, 2⟩
def fldEvt_ERROR : RegField := ⟨.fldEvt, 1, 1⟩
def fldEvt_DONE : RegField := ⟨.fldEvt, 0, 0⟩
def fldForceId_ID : RegField := ⟨.fldForceId, 31, 0⟩
def fldForceLen_LEN : RegField := ⟨.fldForceLen, 31, 0⟩
def fldLen_LEN : RegField := ⟨.fldLen, 15, 0⟩
def fldOfs_WOFS : RegField := ⟨.fldOfs, 19, 2⟩
def fldStat_ERR : RegField := ⟨.fldStat, 31, 24⟩
def fldStat_CRUISE_OK : RegField := ⟨.fldStat, 15, 15⟩
def fldStat_STORED_OK : RegField := ⟨.fldStat, 14, 14⟩
def fldStat_IN_FORCE : RegField := ⟨.fldStat, 13, 13⟩
def fldStat_STATE : RegField := ⟨.fldStat, 3, 0⟩
def fldDigest_H : RegField := ⟨.fldDigest, 31, 0⟩
def fldExpect_H : RegField := ⟨.fldExpect, 31, 0⟩
def fldStage_DATA : RegField := ⟨.fldStage, 31, 0⟩
def timEvt_CORR_WD : RegField := ⟨.timEvt, 7, 7⟩
def timEvt_AON_ODD : RegField := ⟨.timEvt, 6, 6⟩
def timEvt_PIN_NEW : RegField := ⟨.timEvt, 5, 5⟩
def timEvt_HOLD_CHG : RegField := ⟨.timEvt, 4, 4⟩
def timEvt_REFUSED : RegField := ⟨.timEvt, 3, 3⟩
def timEvt_LOG_LOST : RegField := ⟨.timEvt, 2, 2⟩
def timEvt_RXLOG : RegField := ⟨.timEvt, 1, 1⟩
def timEvt_TXLOG : RegField := ⟨.timEvt, 0, 0⟩
def timAonTol_PPB : RegField := ⟨.timAonTol, 23, 0⟩
def timLogStat_COUNT : RegField := ⟨.timLogStat, 12, 0⟩
def timLogLost_LOST : RegField := ⟨.timLogLost, 31, 0⟩
def timLogPop_RX : RegField := ⟨.timLogPop, 1, 1⟩
def timLogPop_TX : RegField := ⟨.timLogPop, 0, 0⟩
def timTxlogHead_DATA : RegField := ⟨.timTxlogHead, 31, 0⟩
def timRxlogHead_DATA : RegField := ⟨.timRxlogHead, 31, 0⟩
def timCtl_AON_MEAS : RegField := ⟨.timCtl, 16, 16⟩
def timCtl_FORCE : RegField := ⟨.timCtl, 7, 7⟩
def timCtl_CMD : RegField := ⟨.timCtl, 3, 0⟩
def timStat_HOLDOVER : RegField := ⟨.timStat, 31, 31⟩
def timStat_VIRGIN : RegField := ⟨.timStat, 30, 30⟩
def timStat_REFUSED : RegField := ⟨.timStat, 29, 29⟩
def timStat_PENDING : RegField := ⟨.timStat, 28, 28⟩
def timStat_AON_ODD : RegField := ⟨.timStat, 27, 27⟩
def timNowNs_NS : RegField := ⟨.timNowNs, 29, 0⟩
def timNowSl_SEC : RegField := ⟨.timNowSl, 31, 0⟩
def timNowSh_SEC : RegField := ⟨.timNowSh, 15, 0⟩
def timSetNs_NS : RegField := ⟨.timSetNs, 29, 0⟩
def timSetSl_SEC : RegField := ⟨.timSetSl, 31, 0⟩
def timSetSh_SEC : RegField := ⟨.timSetSh, 15, 0⟩
def timOfs_OFS : RegField := ⟨.timOfs, 31, 0⟩
def timRate_RATE : RegField := ⟨.timRate, 31, 0⟩
def timThresh_THRESH : RegField := ⟨.timThresh, 31, 0⟩
def timCorrWd_WD : RegField := ⟨.timCorrWd, 15, 0⟩
def timAonNs_AON_NS : RegField := ⟨.timAonNs, 31, 0⟩
def timHoldErr_ERR : RegField := ⟨.timHoldErr, 31, 0⟩
def timPinCfg_EN : RegField := ⟨.timPinCfg, 31, 31⟩
def timPinCfg_EDGE : RegField := ⟨.timPinCfg, 5, 4⟩
def timPinCfg_TB : RegField := ⟨.timPinCfg, 2, 0⟩
def timPinNs_NEW : RegField := ⟨.timPinNs, 31, 31⟩
def timPinNs_RISE : RegField := ⟨.timPinNs, 30, 30⟩
def timPinNs_NS : RegField := ⟨.timPinNs, 29, 0⟩
def timPinSl_SEC : RegField := ⟨.timPinSl, 31, 0⟩
def timPinSh_SEC : RegField := ⟨.timPinSh, 15, 0⟩
def timPinMiss_MISSED : RegField := ⟨.timPinMiss, 31, 0⟩
def timPoutCfg_EN : RegField := ⟨.timPoutCfg, 31, 31⟩
def timPoutCfg_HOLD_MUTE : RegField := ⟨.timPoutCfg, 30, 30⟩
def timPoutCfg_TB : RegField := ⟨.timPoutCfg, 2, 0⟩
def timPoutStartNs_NS : RegField := ⟨.timPoutStartNs, 29, 0⟩
def timPoutStartSl_SEC : RegField := ⟨.timPoutStartSl, 31, 0⟩
def timPoutStartSh_SEC : RegField := ⟨.timPoutStartSh, 15, 0⟩
def timPoutPeriod_PERIOD : RegField := ⟨.timPoutPeriod, 31, 0⟩
def timPoutWidth_WIDTH : RegField := ⟨.timPoutWidth, 31, 0⟩
def timPortCfg_RX_TS : RegField := ⟨.timPortCfg, 31, 31⟩
def timPortAdj_TX_ADJ : RegField := ⟨.timPortAdj, 31, 16⟩
def timPortAdj_RX_ADJ : RegField := ⟨.timPortAdj, 15, 0⟩
def cvuDgCfg_CRC32 : RegField := ⟨.cvuDgCfg, 5, 0⟩
def cvuCtxCfg_BUSY : RegField := ⟨.cvuCtxCfg, 31, 31⟩
def cvuCtxCfg_SWAP : RegField := ⟨.cvuCtxCfg, 4, 4⟩
def cvuCtxCfg_ALG : RegField := ⟨.cvuCtxCfg, 1, 0⟩
def cvuCtxCmd_INIT : RegField := ⟨.cvuCtxCmd, 0, 0⟩
def cvuCtxFeed_DATA : RegField := ⟨.cvuCtxFeed, 31, 0⟩
def cvuCtxState_S : RegField := ⟨.cvuCtxState, 31, 0⟩
def cvuCtxResult_RESULT : RegField := ⟨.cvuCtxResult, 31, 0⟩
def cvuCtxCount_COUNT : RegField := ⟨.cvuCtxCount, 31, 0⟩
def hdmCtl_RESUME : RegField := ⟨.hdmCtl, 0, 0⟩
def hdmStat_STOPPED : RegField := ⟨.hdmStat, 31, 31⟩
def hdmStat_ACTIVE_VALID : RegField := ⟨.hdmStat, 30, 30⟩
def hdmStat_ACTIVE : RegField := ⟨.hdmStat, 27, 24⟩
def hdmStat_CPL_COUNT : RegField := ⟨.hdmStat, 8, 0⟩
def hdmEvt_REFUSED : RegField := ⟨.hdmEvt, 5, 5⟩
def hdmEvt_TRIG_MISS : RegField := ⟨.hdmEvt, 4, 4⟩
def hdmEvt_CPL_FULL : RegField := ⟨.hdmEvt, 3, 3⟩
def hdmEvt_STOPPED : RegField := ⟨.hdmEvt, 2, 2⟩
def hdmEvt_ERROR : RegField := ⟨.hdmEvt, 1, 1⟩
def hdmEvt_CPL : RegField := ⟨.hdmEvt, 0, 0⟩
def hdmRspTo_US : RegField := ⟨.hdmRspTo, 15, 0⟩
def hdmCplPop_POP : RegField := ⟨.hdmCplPop, 0, 0⟩
def hdmErrInfo_NEW : RegField := ⟨.hdmErrInfo, 31, 31⟩
def hdmErrInfo_CH : RegField := ⟨.hdmErrInfo, 30, 27⟩
def hdmErrInfo_STATUS : RegField := ⟨.hdmErrInfo, 23, 16⟩
def hdmErrAddrLo_ADDR : RegField := ⟨.hdmErrAddrLo, 31, 0⟩
def hdmErrAddrHi_ADDR : RegField := ⟨.hdmErrAddrHi, 31, 0⟩
def hdmCplHead_DATA : RegField := ⟨.hdmCplHead, 31, 0⟩
def hdmChCtl_EN : RegField := ⟨.hdmChCtl, 31, 31⟩
def hdmChCtl_START : RegField := ⟨.hdmChCtl, 30, 30⟩
def hdmChCtl_WAIT_WR : RegField := ⟨.hdmChCtl, 27, 27⟩
def hdmChCtl_CHAIN_EN : RegField := ⟨.hdmChCtl, 26, 26⟩
def hdmChCtl_CHAIN_TO : RegField := ⟨.hdmChCtl, 23, 20⟩
def hdmChCtl_QUIET : RegField := ⟨.hdmChCtl, 2, 2⟩
def hdmChCtl_TIMER_EN : RegField := ⟨.hdmChCtl, 1, 1⟩
def hdmChCtl_MODE : RegField := ⟨.hdmChCtl, 0, 0⟩
def hdmChCfg_TENANT : RegField := ⟨.hdmChCfg, 31, 20⟩
def hdmChCfg_PORT : RegField := ⟨.hdmChCfg, 18, 16⟩
def hdmChCfg_REG_BLK : RegField := ⟨.hdmChCfg, 15, 8⟩
def hdmChCfg_DST_SPACE : RegField := ⟨.hdmChCfg, 1, 1⟩
def hdmChCfg_SRC_SPACE : RegField := ⟨.hdmChCfg, 0, 0⟩
def hdmChSrcLo_ADDR : RegField := ⟨.hdmChSrcLo, 31, 0⟩
def hdmChSrcHi_ADDR : RegField := ⟨.hdmChSrcHi, 31, 0⟩
def hdmChDstLo_ADDR : RegField := ⟨.hdmChDstLo, 31, 0⟩
def hdmChDstHi_ADDR : RegField := ⟨.hdmChDstHi, 31, 0⟩
def hdmChCount_COUNT : RegField := ⟨.hdmChCount, 23, 0⟩
def hdmChTimer_PERIOD : RegField := ⟨.hdmChTimer, 23, 0⟩
def hdmChLeft_LEFT : RegField := ⟨.hdmChLeft, 23, 0⟩
def hdmChStat_STATE : RegField := ⟨.hdmChStat, 31, 29⟩
def hdmChStat_OVERRUN : RegField := ⟨.hdmChStat, 28, 28⟩
def pmnCtl_RUN : RegField := ⟨.pmnCtl, 31, 31⟩
def pmnCtl_CLEAR_ALL : RegField := ⟨.pmnCtl, 30, 30⟩
def pmnStat_DRAINING : RegField := ⟨.pmnStat, 31, 31⟩
def pmnEvt_WRAP : RegField := ⟨.pmnEvt, 24, 16⟩
def pmnEvt_HALF : RegField := ⟨.pmnEvt, 8, 0⟩
def pmnCycleLo_LOW : RegField := ⟨.pmnCycleLo, 31, 0⟩
def pmnCycleHi_WRAP : RegField := ⟨.pmnCycleHi, 31, 31⟩
def pmnCycleHi_HIGH : RegField := ⟨.pmnCycleHi, 15, 0⟩
def pmnCfg_EN : RegField := ⟨.pmnCfg, 31, 31⟩
def pmnCfg_MODE : RegField := ⟨.pmnCfg, 27, 26⟩
def pmnCfg_TARGET : RegField := ⟨.pmnCfg, 25, 16⟩
def pmnCfg_EVENT : RegField := ⟨.pmnCfg, 7, 0⟩
def pmnCntLo_LOW : RegField := ⟨.pmnCntLo, 31, 0⟩
def pmnCntHi_WRAP : RegField := ⟨.pmnCntHi, 31, 31⟩
def pmnCntHi_HIGH : RegField := ⟨.pmnCntHi, 15, 0⟩
def flkCtl_CMD : RegField := ⟨.flkCtl, 3, 0⟩
def flkStat_STATE : RegField := ⟨.flkStat, 31, 29⟩
def flkStat_ADDR_VALID : RegField := ⟨.flkStat, 28, 28⟩
def flkStat_TRIES : RegField := ⟨.flkStat, 19, 16⟩
def flkStat_ADDR : RegField := ⟨.flkStat, 11, 0⟩
def flkAddr_ADDR : RegField := ⟨.flkAddr, 11, 0⟩
def flkEvt_LINK_CHG : RegField := ⟨.flkEvt, 4, 4⟩
def flkEvt_NO_ROUTE : RegField := ⟨.flkEvt, 3, 3⟩
def flkEvt_SEAL_ERR : RegField := ⟨.flkEvt, 2, 2⟩
def flkEvt_CONFLICT : RegField := ⟨.flkEvt, 1, 1⟩
def flkEvt_CLAIMED : RegField := ⟨.flkEvt, 0, 0⟩
def flkIdentLo_ID : RegField := ⟨.flkIdentLo, 31, 0⟩
def flkIdentHi_ID : RegField := ⟨.flkIdentHi, 31, 0⟩
def flkRivalLo_ID : RegField := ⟨.flkRivalLo, 31, 0⟩
def flkRivalHi_ID : RegField := ⟨.flkRivalHi, 31, 0⟩
def flkLinkUp_UP : RegField := ⟨.flkLinkUp, 31, 0⟩
def flkLinkChg_CHG : RegField := ⟨.flkLinkChg, 31, 0⟩
def flkDrop_COUNT : RegField := ⟨.flkDrop, 31, 0⟩
def flkLinkStat_STATE : RegField := ⟨.flkLinkStat, 31, 30⟩
def flkLinkStat_NBR_HAS_ADDR : RegField := ⟨.flkLinkStat, 29, 29⟩
def flkLinkStat_NBR_LINK : RegField := ⟨.flkLinkStat, 28, 24⟩
def flkLinkStat_NBR_ADDR : RegField := ⟨.flkLinkStat, 23, 12⟩
def flkLinkStat_PORT : RegField := ⟨.flkLinkStat, 9, 0⟩
def flkNbrLo_ID : RegField := ⟨.flkNbrLo, 31, 0⟩
def flkNbrHi_ID : RegField := ⟨.flkNbrHi, 31, 0⟩
def flkLcnt_COUNT : RegField := ⟨.flkLcnt, 31, 0⟩
def flkRoute_LINKS : RegField := ⟨.flkRoute, 31, 0⟩
def penLinkCtl_UP_HOLD : RegField := ⟨.penLinkCtl, 31, 16⟩
def penLinkCtl_SIG_DET_IGNORE : RegField := ⟨.penLinkCtl, 8, 8⟩
def penLinkCtl_LOOP : RegField := ⟨.penLinkCtl, 5, 4⟩
def penLinkCtl_DOWN_DISCARD : RegField := ⟨.penLinkCtl, 1, 1⟩
def penLinkCtl_ADMIN : RegField := ⟨.penLinkCtl, 0, 0⟩
def penLinkStat_STATE : RegField := ⟨.penLinkStat, 31, 28⟩
def penLinkStat_RX_LPI : RegField := ⟨.penLinkStat, 19, 19⟩
def penLinkStat_TX_LPI : RegField := ⟨.penLinkStat, 18, 18⟩
def penLinkStat_HI_ERR : RegField := ⟨.penLinkStat, 17, 17⟩
def penLinkStat_ALIGNED : RegField := ⟨.penLinkStat, 16, 16⟩
def penLinkStat_LOCK : RegField := ⟨.penLinkStat, 15, 8⟩
def penLinkStat_SIG : RegField := ⟨.penLinkStat, 7, 0⟩
def penLinkChg_CHG : RegField := ⟨.penLinkChg, 15, 0⟩
def penLpiCtl_TW_TX : RegField := ⟨.penLpiCtl, 31, 16⟩
def penLpiCtl_IDLE_ENTRY : RegField := ⟨.penLpiCtl, 15, 0⟩
def penLaneTest_CHK_LOCK : RegField := ⟨.penLaneTest, 15, 15⟩
def penLaneTest_RX_PAT : RegField := ⟨.penLaneTest, 11, 8⟩
def penLaneTest_TX_PAT : RegField := ⟨.penLaneTest, 3, 0⟩
def penLaneErrs_ERRS : RegField := ⟨.penLaneErrs, 31, 0⟩
def penLaneUser_WORD : RegField := ⟨.penLaneUser, 31, 0⟩
def penRxCtl_WD_ACTION : RegField := ⟨.penRxCtl, 16, 16⟩
def penRxCtl_WD_EN : RegField := ⟨.penRxCtl, 15, 8⟩
def penRxCtl_PAUSE_DA_OWN : RegField := ⟨.penRxCtl, 3, 3⟩
def penRxCtl_MM_RX_EN : RegField := ⟨.penRxCtl, 2, 2⟩
def penRxCtl_CTRL_FWD : RegField := ⟨.penRxCtl, 1, 1⟩
def penRxCtl_PAUSE_RX : RegField := ⟨.penRxCtl, 0, 0⟩
def penRxFiltCtl_MCAST_ALL : RegField := ⟨.penRxFiltCtl, 2, 2⟩
def penRxFiltCtl_BCAST : RegField := ⟨.penRxFiltCtl, 1, 1⟩
def penRxFiltCtl_FILT_EN : RegField := ⟨.penRxFiltCtl, 0, 0⟩
def penRxPauseStat_STORM : RegField := ⟨.penRxPauseStat, 15, 8⟩
def penRxPauseStat_PAUSED : RegField := ⟨.penRxPauseStat, 7, 0⟩
def penRxStormChg_CHG : RegField := ⟨.penRxStormChg, 15, 0⟩
def penRxTpid_TPID_1 : RegField := ⟨.penRxTpid, 31, 16⟩
def penRxTpid_TPID_0 : RegField := ⟨.penRxTpid, 15, 0⟩
def penRxWd_RESTORE : RegField := ⟨.penRxWd, 31, 16⟩
def penRxWd_LIMIT : RegField := ⟨.penRxWd, 15, 0⟩
def penRxStageStat_BYTES_HWM : RegField := ⟨.penRxStageStat, 31, 20⟩
def penRxStageStat_BYTES : RegField := ⟨.penRxStageStat, 19, 8⟩
def penRxStageStat_ENTRIES : RegField := ⟨.penRxStageStat, 7, 0⟩
def penRxAddrLo_ADDR_LO : RegField := ⟨.penRxAddrLo, 31, 0⟩
def penRxAddrHi_EN : RegField := ⟨.penRxAddrHi, 31, 31⟩
def penRxAddrHi_ADDR_HI : RegField := ⟨.penRxAddrHi, 15, 0⟩
def penWakeData_DATA : RegField := ⟨.penWakeData, 31, 0⟩
def penWakeMask_MASK : RegField := ⟨.penWakeMask, 31, 0⟩
def penWakeCtl_EN : RegField := ⟨.penWakeCtl, 31, 31⟩
def penWakeCtl_MAGIC : RegField := ⟨.penWakeCtl, 30, 30⟩
def penWakeCtl_PORTS : RegField := ⟨.penWakeCtl, 15, 0⟩
def penWakeHit_SLOT : RegField := ⟨.penWakeHit, 11, 8⟩
def penWakeHit_HIT : RegField := ⟨.penWakeHit, 3, 0⟩
def penWakeCap_CAP : RegField := ⟨.penWakeCap, 31, 0⟩
def penSortField_OFS : RegField := ⟨.penSortField, 7, 0⟩
def penParseStat_NEW : RegField := ⟨.penParseStat, 31, 31⟩
def penParseStat_KIND : RegField := ⟨.penParseStat, 30, 30⟩
def penParseStat_EXT : RegField := ⟨.penParseStat, 29, 25⟩
def penParseStat_SLOT : RegField := ⟨.penParseStat, 24, 21⟩
def penParseStat_PASS : RegField := ⟨.penParseStat, 20, 19⟩
def penParseStat_PROFILE : RegField := ⟨.penParseStat, 15, 8⟩
def penGrazeCtl_WIN_LIMIT : RegField := ⟨.penGrazeCtl, 14, 8⟩
def penGrazeCtl_EN : RegField := ⟨.penGrazeCtl, 0, 0⟩
def penGrazeStat_WIN_HWM : RegField := ⟨.penGrazeStat, 22, 16⟩
def penGrazeStat_WINDOWS : RegField := ⟨.penGrazeStat, 6, 0⟩
def penTblSel_KIND : RegField := ⟨.penTblSel, 31, 30⟩
def penTblSel_INDEX : RegField := ⟨.penTblSel, 28, 16⟩
def penTblSel_WORD : RegField := ⟨.penTblSel, 5, 0⟩
def penTblData_DATA : RegField := ⟨.penTblData, 31, 0⟩
def penParsePort_DEF_MODE : RegField := ⟨.penParsePort, 31, 30⟩
def penParsePort_DEF_TC : RegField := ⟨.penParsePort, 29, 27⟩
def penParsePort_DEF_PORT : RegField := ⟨.penParsePort, 25, 16⟩
def penParsePort_DEF_PROFILE : RegField := ⟨.penParsePort, 15, 8⟩
def penParsePort_HINT : RegField := ⟨.penParsePort, 7, 0⟩
def penMerge_MISS_DROP : RegField := ⟨.penMerge, 31, 28⟩
def penMerge_GZ_ACT : RegField := ⟨.penMerge, 27, 26⟩
def penMerge_GZ_PARTIAL : RegField := ⟨.penMerge, 25, 24⟩
def penMerge_GZ_CLASS : RegField := ⟨.penMerge, 21, 16⟩
def penMerge_CK_OFS : RegField := ⟨.penMerge, 15, 8⟩
def penMerge_CK_DROP : RegField := ⟨.penMerge, 7, 7⟩
def penLooplen_EN : RegField := ⟨.penLooplen, 31, 31⟩
def penLooplen_SHIFT : RegField := ⟨.penLooplen, 26, 24⟩
def penLooplen_MASK : RegField := ⟨.penLooplen, 15, 8⟩
def penLooplen_OFS : RegField := ⟨.penLooplen, 7, 0⟩
def penTxCtl_CT_MARGIN : RegField := ⟨.penTxCtl, 27, 16⟩
def penTxCtl_IPG : RegField := ⟨.penTxCtl, 13, 8⟩
def penTxCtl_MTU_CHK : RegField := ⟨.penTxCtl, 0, 0⟩
def penTxFc_QUANTA : RegField := ⟨.penTxFc, 31, 16⟩
def penTxFc_REFRESH : RegField := ⟨.penTxFc, 15, 0⟩
def penTxSaLo_SA_LO : RegField := ⟨.penTxSaLo, 31, 0⟩
def penTxSaHi_SA_HI : RegField := ⟨.penTxSaHi, 15, 0⟩
def penMmCtl_VERIFY_TIME : RegField := ⟨.penMmCtl, 23, 16⟩
def penMmCtl_VERIFY_LIMIT : RegField := ⟨.penMmCtl, 11, 8⟩
def penMmCtl_ADD_FRAG : RegField := ⟨.penMmCtl, 3, 2⟩
def penMmCtl_VERIFY_DIS : RegField := ⟨.penMmCtl, 1, 1⟩
def penMmCtl_RESTART : RegField := ⟨.penMmCtl, 0, 0⟩
def penMmStat_TRIES : RegField := ⟨.penMmStat, 15, 8⟩
def penMmStat_ACTIVE : RegField := ⟨.penMmStat, 3, 3⟩
def penMmStat_VERIFY : RegField := ⟨.penMmStat, 2, 0⟩
def penMmChg_CHG : RegField := ⟨.penMmChg, 15, 0⟩
def penTallyLo_LOW : RegField := ⟨.penTallyLo, 31, 0⟩
def penTallyHi_WRAP : RegField := ⟨.penTallyHi, 31, 31⟩
def penTallyHi_HIGH : RegField := ⟨.penTallyHi, 23, 0⟩
def penTsnapLo_LOW : RegField := ⟨.penTsnapLo, 31, 0⟩
def penTsnapHi_WRAP : RegField := ⟨.penTsnapHi, 31, 31⟩
def penTsnapHi_HIGH : RegField := ⟨.penTsnapHi, 23, 0⟩
def penTallyCtl_SNAP : RegField := ⟨.penTallyCtl, 31, 31⟩
def penTallyCtl_CLEAR : RegField := ⟨.penTallyCtl, 30, 30⟩
def penTallyCtl_PORT : RegField := ⟨.penTallyCtl, 3, 0⟩
def penTallyEvt_WRAP : RegField := ⟨.penTallyEvt, 31, 16⟩
def penTallyEvt_HALF : RegField := ⟨.penTallyEvt, 15, 0⟩
def larCmd_COPY : RegField := ⟨.larCmd, 12, 12⟩
def larCmd_TABLE : RegField := ⟨.larCmd, 11, 8⟩
def larCmd_OP : RegField := ⟨.larCmd, 3, 0⟩
def larLoc_BANK : RegField := ⟨.larLoc, 23, 16⟩
def larLoc_BUCKET : RegField := ⟨.larLoc, 11, 2⟩
def larLoc_SLOT : RegField := ⟨.larLoc, 1, 0⟩
def larStat_CODE : RegField := ⟨.larStat, 31, 24⟩
def larStat_MOVES : RegField := ⟨.larStat, 21, 16⟩
def larStat_BUSY : RegField := ⟨.larStat, 15, 15⟩
def larStat_WAIT_SETTLE : RegField := ⟨.larStat, 14, 14⟩
def larStat_STARVED : RegField := ⟨.larStat, 13, 13⟩
def larStat_FLIP_PENDING : RegField := ⟨.larStat, 12, 12⟩
def larStat_ATTIC_FIFO : RegField := ⟨.larStat, 6, 0⟩
def larEvt_WATCH_1 : RegField := ⟨.larEvt, 5, 5⟩
def larEvt_WATCH_0 : RegField := ⟨.larEvt, 4, 4⟩
def larEvt_ATTIC_REJECT : RegField := ⟨.larEvt, 3, 3⟩
def larEvt_EPOCH_REFUSED : RegField := ⟨.larEvt, 2, 2⟩
def larEvt_ERROR : RegField := ⟨.larEvt, 1, 1⟩
def larEvt_DONE : RegField := ⟨.larEvt, 0, 0⟩
def larLive_COPY : RegField := ⟨.larLive, 15, 0⟩
def larEngCfg_MAX_MOVES : RegField := ⟨.larEngCfg, 5, 0⟩
def larEpoch_OLDEST : RegField := ⟨.larEpoch, 31, 16⟩
def larEpoch_CUR : RegField := ⟨.larEpoch, 15, 0⟩
def larEpochReq_REQ : RegField := ⟨.larEpochReq, 0, 0⟩
def larCand_BANK : RegField := ⟨.larCand, 23, 16⟩
def larCand_BUCKET : RegField := ⟨.larCand, 11, 2⟩
def larEpochWatch_ARM : RegField := ⟨.larEpochWatch, 31, 31⟩
def larEpochWatch_TARGET : RegField := ⟨.larEpochWatch, 15, 0⟩
def larStage_DATA : RegField := ⟨.larStage, 31, 0⟩
def larSymFmt_NO_PORTS : RegField := ⟨.larSymFmt, 25, 25⟩
def larSymFmt_AW16 : RegField := ⟨.larSymFmt, 24, 24⟩
def larSymFmt_P2_OFS : RegField := ⟨.larSymFmt, 23, 18⟩
def larSymFmt_P1_OFS : RegField := ⟨.larSymFmt, 17, 12⟩
def larSymFmt_A2_OFS : RegField := ⟨.larSymFmt, 11, 6⟩
def larSymFmt_A1_OFS : RegField := ⟨.larSymFmt, 5, 0⟩
def larSymExtra_X_LEN : RegField := ⟨.larSymExtra, 12, 8⟩
def larSymExtra_X_OFS : RegField := ⟨.larSymExtra, 5, 0⟩
def larSymSeed_SEED : RegField := ⟨.larSymSeed, 31, 0⟩
def larGeom_EN : RegField := ⟨.larGeom, 31, 31⟩
def larGeom_ATTIC : RegField := ⟨.larGeom, 30, 30⟩
def larGeom_RW : RegField := ⟨.larGeom, 23, 16⟩
def larGeom_KW : RegField := ⟨.larGeom, 15, 8⟩
def larGeom_EPB : RegField := ⟨.larGeom, 7, 0⟩
def larSpan_BANK_BASE : RegField := ⟨.larSpan, 31, 24⟩
def larSpan_BANK_LOG2 : RegField := ⟨.larSpan, 23, 20⟩
def larSpan_BKT_LOG2 : RegField := ⟨.larSpan, 19, 16⟩
def larSpan_BKT_BASE : RegField := ⟨.larSpan, 10, 0⟩
def larSeeda_SEED : RegField := ⟨.larSeeda, 31, 0⟩
def larSeedb_SEED : RegField := ⟨.larSeedb, 31, 0⟩
def larAttic0_COPY : RegField := ⟨.larAttic0, 28, 28⟩
def larAttic0_TABLE : RegField := ⟨.larAttic0, 27, 24⟩
def larAttic0_BANK : RegField := ⟨.larAttic0, 23, 16⟩
def larAttic0_BUCKET : RegField := ⟨.larAttic0, 11, 2⟩
def larAttic_DATA : RegField := ⟨.larAttic, 31, 0⟩
def larCseed_SEED : RegField := ⟨.larCseed, 31, 0⟩
def actCmd_INDEX : RegField := ⟨.actCmd, 20, 4⟩
def actCmd_OP : RegField := ⟨.actCmd, 3, 0⟩
def actStat_CODE : RegField := ⟨.actStat, 7, 0⟩
def actMcCfg_HEAD_LINES : RegField := ⟨.actMcCfg, 21, 12⟩
def actMcCfg_HEAD_BASE : RegField := ⟨.actMcCfg, 11, 0⟩
def actLoopCfg_PASS_LIMIT : RegField := ⟨.actLoopCfg, 3, 0⟩
def actEvt_TARGET_ERR : RegField := ⟨.actEvt, 2, 2⟩
def actEvt_EDIT_ERR : RegField := ⟨.actEvt, 1, 1⟩
def actEvt_LOOP_LIMIT : RegField := ⟨.actEvt, 0, 0⟩
def actData_DATA : RegField := ⟨.actData, 31, 0⟩
def actEcmp_EN : RegField := ⟨.actEcmp, 31, 31⟩
def actEcmp_SYM_FMT : RegField := ⟨.actEcmp, 26, 24⟩
def actEcmp_BASE : RegField := ⟨.actEcmp, 11, 0⟩
def actSampCfg_N : RegField := ⟨.actSampCfg, 31, 8⟩
def actSampCfg_TRUNC : RegField := ⟨.actSampCfg, 7, 4⟩
def actSampCfg_TC : RegField := ⟨.actSampCfg, 2, 0⟩
def actSampDest_PORT : RegField := ⟨.actSampDest, 25, 16⟩
def actSampDest_QVALID : RegField := ⟨.actSampDest, 15, 15⟩
def actSampDest_QUEUE : RegField := ⟨.actSampDest, 14, 0⟩
def actSampLeft_C : RegField := ⟨.actSampLeft, 23, 0⟩
def celCfg_LOFT_HOLD : RegField := ⟨.celCfg, 31, 16⟩
def celStat_FREE_CELLS : RegField := ⟨.celStat, 19, 0⟩
def celEvt_NO_RECORD : RegField := ⟨.celEvt, 3, 3⟩
def celEvt_WRITE_STALL : RegField := ⟨.celEvt, 2, 2⟩
def celEvt_MIN_REFUSED : RegField := ⟨.celEvt, 1, 1⟩
def celEvt_FLUSH_DONE : RegField := ⟨.celEvt, 0, 0⟩
def celRedSeed_SEED : RegField := ⟨.celRedSeed, 15, 0⟩
def celFlushCmd_PORT : RegField := ⟨.celFlushCmd, 25, 16⟩
def celFlushCmd_TC : RegField := ⟨.celFlushCmd, 7, 0⟩
def celFlushStat_BUSY : RegField := ⟨.celFlushStat, 31, 31⟩
def celFlushStat_LEFT : RegField := ⟨.celFlushStat, 19, 0⟩
def celMinStat_SUM : RegField := ⟨.celMinStat, 19, 0⟩
def celRecStat_FREE_REC : RegField := ⟨.celRecStat, 19, 0⟩
def celPoolLimit_SIZE : RegField := ⟨.celPoolLimit, 19, 0⟩
def celPoolUse_USE : RegField := ⟨.celPoolUse, 19, 0⟩
def celPoolHr_SIZE : RegField := ⟨.celPoolHr, 19, 0⟩
def celPoolHrUse_USE : RegField := ⟨.celPoolHrUse, 19, 0⟩
def celLandLimit_LIMIT : RegField := ⟨.celLandLimit, 15, 0⟩
def celLandUse_CLAIM : RegField := ⟨.celLandUse, 31, 16⟩
def celLandUse_USED : RegField := ⟨.celLandUse, 15, 0⟩
def celRedLo_EN : RegField := ⟨.celRedLo, 31, 31⟩
def celRedLo_ECN : RegField := ⟨.celRedLo, 30, 30⟩
def celRedLo_MIN : RegField := ⟨.celRedLo, 19, 0⟩
def celRedHi_MAXP : RegField := ⟨.celRedHi, 31, 20⟩
def celRedHi_MAX : RegField := ⟨.celRedHi, 19, 0⟩
def celPortCfg_CT_EN : RegField := ⟨.celPortCfg, 31, 31⟩
def celPortCfg_FC_MODE : RegField := ⟨.celPortCfg, 30, 29⟩
def celPortCfg_XOFF : RegField := ⟨.celPortCfg, 27, 14⟩
def celPortCfg_XON : RegField := ⟨.celPortCfg, 13, 0⟩
def celFcStat_HR : RegField := ⟨.celFcStat, 15, 8⟩
def celFcStat_XOFF : RegField := ⟨.celFcStat, 7, 0⟩
def celIgUse_USE : RegField := ⟨.celIgUse, 19, 0⟩
def celQCfg_POOL : RegField := ⟨.celQCfg, 31, 30⟩
def celQCfg_ALPHA : RegField := ⟨.celQCfg, 29, 26⟩
def celQCfg_RED : RegField := ⟨.celQCfg, 25, 20⟩
def celQCfg_MIN : RegField := ⟨.celQCfg, 19, 0⟩
def celQRed_W : RegField := ⟨.celQRed, 31, 28⟩
def celQRed_AVG : RegField := ⟨.celQRed, 26, 0⟩
def celQUse_DISCARD : RegField := ⟨.celQUse, 31, 31⟩
def celQUse_LOFT : RegField := ⟨.celQUse, 30, 30⟩
def celQUse_USE : RegField := ⟨.celQUse, 19, 0⟩
def celQDrop_FRAMES : RegField := ⟨.celQDrop, 31, 0⟩
def drvEvt_LT_DROP : RegField := ⟨.drvEvt, 3, 3⟩
def drvEvt_GATE_WR_REFUSED : RegField := ⟨.drvEvt, 2, 2⟩
def drvEvt_GATE_ERR : RegField := ⟨.drvEvt, 1, 1⟩
def drvEvt_GATE_SWITCH : RegField := ⟨.drvEvt, 0, 0⟩
def drvPortCfg_PREEMPT_FORCE : RegField := ⟨.drvPortCfg, 31, 31⟩
def drvPortCfg_OVH : RegField := ⟨.drvPortCfg, 5, 0⟩
def drvPortRate_RATE : RegField := ⟨.drvPortRate, 31, 0⟩
def drvPortBurst_BURST : RegField := ⟨.drvPortBurst, 23, 0⟩
def drvPortTok_TOK : RegField := ⟨.drvPortTok, 31, 0⟩
def drvClassCfg_STRICT : RegField := ⟨.drvClassCfg, 31, 31⟩
def drvClassCfg_LT_EN : RegField := ⟨.drvClassCfg, 30, 30⟩
def drvClassCfg_QUANTUM : RegField := ⟨.drvClassCfg, 11, 0⟩
def drvClassRate_RATE : RegField := ⟨.drvClassRate, 31, 0⟩
def drvClassBurst_BURST : RegField := ⟨.drvClassBurst, 23, 0⟩
def drvClassTok_TOK : RegField := ⟨.drvClassTok, 31, 0⟩
def drvClassDef_DEF : RegField := ⟨.drvClassDef, 31, 0⟩
def drvGateCtl_COMMIT : RegField := ⟨.drvGateCtl, 31, 31⟩
def drvGateCtl_RUN : RegField := ⟨.drvGateCtl, 30, 30⟩
def drvGateCtl_LEN : RegField := ⟨.drvGateCtl, 24, 16⟩
def drvGateCtl_START : RegField := ⟨.drvGateCtl, 7, 0⟩
def drvGateCycle_CYCLE : RegField := ⟨.drvGateCycle, 31, 0⟩
def drvGateBaseNs_NS : RegField := ⟨.drvGateBaseNs, 29, 0⟩
def drvGateBaseSl_SEC : RegField := ⟨.drvGateBaseSl, 31, 0⟩
def drvGateBaseSh_SEC : RegField := ⟨.drvGateBaseSh, 15, 0⟩
def drvGateStat_MODE : RegField := ⟨.drvGateStat, 31, 30⟩
def drvGateStat_PENDING : RegField := ⟨.drvGateStat, 29, 29⟩
def drvGateStat_ENTRY : RegField := ⟨.drvGateStat, 7, 0⟩
def drvGclLo_GATES : RegField := ⟨.drvGclLo, 7, 0⟩
def drvGclHi_INTERVAL : RegField := ⟨.drvGclHi, 31, 0⟩
def trgTxqCtl_STATE : RegField := ⟨.trgTxqCtl, 31, 28⟩
def trgTxqCtl_ERR : RegField := ⟨.trgTxqCtl, 23, 16⟩
def trgTxqCtl_CMD : RegField := ⟨.trgTxqCtl, 3, 0⟩
def trgTxqBaseLo_ADDR : RegField := ⟨.trgTxqBaseLo, 31, 8⟩
def trgTxqBaseHi_ADDR : RegField := ⟨.trgTxqBaseHi, 31, 0⟩
def trgTxqCfg_TENANT : RegField := ⟨.trgTxqCfg, 31, 20⟩
def trgTxqCfg_BUF_WIN : RegField := ⟨.trgTxqCfg, 19, 16⟩
def trgTxqCfg_POLL_CLASS : RegField := ⟨.trgTxqCfg, 15, 13⟩
def trgTxqCfg_PAD : RegField := ⟨.trgTxqCfg, 12, 12⟩
def trgTxqCfg_CPL_LATE : RegField := ⟨.trgTxqCfg, 11, 11⟩
def trgTxqCfg_SIZE_LOG2 : RegField := ⟨.trgTxqCfg, 4, 0⟩
def trgTxqCfg2_MAX_LEN : RegField := ⟨.trgTxqCfg2, 30, 16⟩
def trgTxqCfg2_CQ : RegField := ⟨.trgTxqCfg2, 11, 0⟩
def trgTxqIdx_PHASE : RegField := ⟨.trgTxqIdx, 31, 31⟩
def trgTxqIdx_READY : RegField := ⟨.trgTxqIdx, 19, 16⟩
def trgTxqIdx_FETCH : RegField := ⟨.trgTxqIdx, 15, 0⟩
def trgTxqFrames_FRAMES : RegField := ⟨.trgTxqFrames, 31, 0⟩
def trgTxqErrs_ERRS : RegField := ⟨.trgTxqErrs, 31, 0⟩
def trgRxqCtl_STATE : RegField := ⟨.trgRxqCtl, 31, 28⟩
def trgRxqCtl_ERR : RegField := ⟨.trgRxqCtl, 23, 16⟩
def trgRxqCtl_CMD : RegField := ⟨.trgRxqCtl, 3, 0⟩
def trgRxqBaseLo_ADDR : RegField := ⟨.trgRxqBaseLo, 31, 8⟩
def trgRxqBaseHi_ADDR : RegField := ⟨.trgRxqBaseHi, 31, 0⟩
def trgRxqCfg_TENANT : RegField := ⟨.trgRxqCfg, 31, 20⟩
def trgRxqCfg_BUF_WIN : RegField := ⟨.trgRxqCfg, 19, 16⟩
def trgRxqCfg_POLL_CLASS : RegField := ⟨.trgRxqCfg, 15, 13⟩
def trgRxqCfg_DELIVER_BAD : RegField := ⟨.trgRxqCfg, 12, 12⟩
def trgRxqCfg_SPREAD_EN : RegField := ⟨.trgRxqCfg, 11, 11⟩
def trgRxqCfg_SYM_FMT : RegField := ⟨.trgRxqCfg, 10, 8⟩
def trgRxqCfg_DG_RX : RegField := ⟨.trgRxqCfg, 7, 7⟩
def trgRxqCfg_SIZE_LOG2 : RegField := ⟨.trgRxqCfg, 4, 0⟩
def trgRxqCfg2_SPREAD_TBL : RegField := ⟨.trgRxqCfg2, 31, 24⟩
def trgRxqCfg2_CQ : RegField := ⟨.trgRxqCfg2, 11, 0⟩
def trgRxqLimit_LIMIT : RegField := ⟨.trgRxqLimit, 19, 0⟩
def trgRxqIdx_PHASE : RegField := ⟨.trgRxqIdx, 31, 31⟩
def trgRxqIdx_READY : RegField := ⟨.trgRxqIdx, 19, 16⟩
def trgRxqIdx_FETCH : RegField := ⟨.trgRxqIdx, 15, 0⟩
def trgRxqUse_USE : RegField := ⟨.trgRxqUse, 19, 0⟩
def trgRxqFrames_FRAMES : RegField := ⟨.trgRxqFrames, 31, 0⟩
def trgRxqDrops_DROPS : RegField := ⟨.trgRxqDrops, 31, 0⟩
def trgCqCtl_STATE : RegField := ⟨.trgCqCtl, 31, 28⟩
def trgCqCtl_ERR : RegField := ⟨.trgCqCtl, 23, 16⟩
def trgCqCtl_CMD : RegField := ⟨.trgCqCtl, 3, 0⟩
def trgCqBaseLo_ADDR : RegField := ⟨.trgCqBaseLo, 31, 8⟩
def trgCqBaseHi_ADDR : RegField := ⟨.trgCqBaseHi, 31, 0⟩
def trgCqCfg_TENANT : RegField := ⟨.trgCqCfg, 31, 20⟩
def trgCqCfg_SIZE_LOG2 : RegField := ⟨.trgCqCfg, 4, 0⟩
def trgCqCiLo_ADDR : RegField := ⟨.trgCqCiLo, 31, 3⟩
def trgCqCiHi_ADDR : RegField := ⟨.trgCqCiHi, 31, 0⟩
def trgCqIdx_PHASE : RegField := ⟨.trgCqIdx, 31, 31⟩
def trgCqIdx_PI : RegField := ⟨.trgCqIdx, 15, 0⟩
def trgCqStat_FULL : RegField := ⟨.trgCqStat, 31, 31⟩
def trgCqStat_CI_PHASE : RegField := ⟨.trgCqStat, 30, 30⟩
def trgCqStat_HELD : RegField := ⟨.trgCqStat, 27, 16⟩
def trgCqStat_CI : RegField := ⟨.trgCqStat, 15, 0⟩
def trgCqStalls_STALLS : RegField := ⟨.trgCqStalls, 31, 0⟩
def trgTenBlo_BASE : RegField := ⟨.trgTenBlo, 31, 12⟩
def trgTenBlo_EN : RegField := ⟨.trgTenBlo, 0, 0⟩
def trgTenBhi_ADDR : RegField := ⟨.trgTenBhi, 31, 0⟩
def trgTenLlo_LIMIT : RegField := ⟨.trgTenLlo, 31, 12⟩
def trgTenLhi_ADDR : RegField := ⟨.trgTenLhi, 31, 0⟩
def trgSpread_VALID : RegField := ⟨.trgSpread, 31, 31⟩
def trgSpread_QUEUE : RegField := ⟨.trgSpread, 14, 0⟩
def trgEvt_HOLD_FULL : RegField := ⟨.trgEvt, 5, 5⟩
def trgEvt_POLL_LATE : RegField := ⟨.trgEvt, 4, 4⟩
def trgEvt_CTX_REFUSED : RegField := ⟨.trgEvt, 3, 3⟩
def trgEvt_CQ_ERR : RegField := ⟨.trgEvt, 2, 2⟩
def trgEvt_QUEUE_ERR : RegField := ⟨.trgEvt, 1, 1⟩
def trgEvt_CQ_FULL : RegField := ⟨.trgEvt, 0, 0⟩
def trgCfg_HOT_IDLE : RegField := ⟨.trgCfg, 31, 16⟩
def trgCfg_CI_POLL : RegField := ⟨.trgCfg, 15, 0⟩
def trgHoldCfg_HOLD_MAX : RegField := ⟨.trgHoldCfg, 11, 0⟩
def trgPollIvl_IVL : RegField := ⟨.trgPollIvl, 23, 0⟩
def trgPollLate_LATE : RegField := ⟨.trgPollLate, 31, 0⟩
def trgPenStat_HOT : RegField := ⟨.trgPenStat, 31, 22⟩
def trgPenStat_HELD : RegField := ⟨.trgPenStat, 11, 0⟩
def stpCfg_TICK_LOG2 : RegField := ⟨.stpCfg, 3, 0⟩
def stpEvt_HOLD_CUT : RegField := ⟨.stpEvt, 2, 2⟩
def stpEvt_RESP_ERR : RegField := ⟨.stpEvt, 1, 1⟩
def stpEvt_PROTO_ERR : RegField := ⟨.stpEvt, 0, 0⟩
def stpQuota_QUOTA : RegField := ⟨.stpQuota, 15, 0⟩
def stpPortCfg_WINDOW : RegField := ⟨.stpPortCfg, 15, 0⟩
def stpPortStat_PROTO : RegField := ⟨.stpPortStat, 31, 31⟩
def stpPortStat_BUSY : RegField := ⟨.stpPortStat, 30, 30⟩
def stpPortStat_TAGS : RegField := ⟨.stpPortStat, 29, 16⟩
def stpPortStat_WRITES : RegField := ⟨.stpPortStat, 10, 0⟩
def stpErrCtl_NEW : RegField := ⟨.stpErrCtl, 31, 31⟩
def stpErrCtl_REQ : RegField := ⟨.stpErrCtl, 30, 28⟩
def stpErrCtl_CODE : RegField := ⟨.stpErrCtl, 27, 26⟩
def stpErrCtl_DIR : RegField := ⟨.stpErrCtl, 25, 25⟩
def stpErrCtl_LEN : RegField := ⟨.stpErrCtl, 19, 16⟩
def stpErrCtl_TAG : RegField := ⟨.stpErrCtl, 12, 0⟩
def stpErrAddrLo_ADDR : RegField := ⟨.stpErrAddrLo, 31, 0⟩
def stpErrAddrHi_ADDR : RegField := ⟨.stpErrAddrHi, 31, 0⟩
def stpErrOwner_TENANT : RegField := ⟨.stpErrOwner, 31, 20⟩
def stpErrOwner_OWNER : RegField := ⟨.stpErrOwner, 14, 0⟩
def stpReqCfg_CLASS : RegField := ⟨.stpReqCfg, 31, 30⟩
def stpReqCfg_TAG_MAX : RegField := ⟨.stpReqCfg, 25, 12⟩
def stpReqCfg_HOLD_LIMIT : RegField := ⟨.stpReqCfg, 11, 0⟩
def stpReqStat_HOLD : RegField := ⟨.stpReqStat, 31, 31⟩
def stpReqStat_WAIT : RegField := ⟨.stpReqStat, 30, 30⟩
def stpReqStat_GCLASS : RegField := ⟨.stpReqStat, 29, 28⟩
def stpReqStat_TAGS : RegField := ⟨.stpReqStat, 25, 12⟩
def stpReqStat_AGE : RegField := ⟨.stpReqStat, 11, 0⟩
def stpReqCuts_CUTS : RegField := ⟨.stpReqCuts, 31, 0⟩

end Sys2Proof.Machine.F
end

