-- ==== Sys2Proof/Machine/Tab.lean ====
section
/-! DEFINITION. Sparse tables: lists of key and value pairs with strictly rising keys. Register files,
memories, queues and counters of the block are tables; a key that a table does not list holds the default its
reader names. -/

namespace Sys2Proof.Machine

/-- A sparse table keyed by natural numbers, keys strictly rising. -/
abbrev Tab (α : Type) := List (Nat × α)

/-- The value a table lists at a key. -/
def Tab.find {α : Type} : Tab α → Nat → Option α
  | [], _ => none
  | (k', v) :: t, k => if k' = k then some v else Tab.find t k

/-- The value at a key, d where the table lists none. -/
def Tab.get {α : Type} (t : Tab α) (k : Nat) (d : α) : α := (Tab.find t k).getD d

/-- The table with v listed at k. -/
def Tab.set {α : Type} : Tab α → Nat → α → Tab α
  | [], k, v => [(k, v)]
  | (k', v') :: t, k, v =>
    if k' < k then (k', v') :: Tab.set t k v
    else if k' = k then (k, v) :: t
    else (k, v) :: (k', v') :: t

/-- The table with nothing listed at k. -/
def Tab.erase {α : Type} : Tab α → Nat → Tab α
  | [], _ => []
  | (k', v') :: t, k => if k' = k then Tab.erase t k else (k', v') :: Tab.erase t k

/-- Writes v at k in a table whose unlisted keys hold d: writing d removes the entry, so equal contents are
equal tables. -/
def Tab.put {α : Type} [DecidableEq α] (t : Tab α) (k : Nat) (v d : α) : Tab α :=
  if v = d then Tab.erase t k else Tab.set t k v

/-- Applies f to the value at k. -/
def Tab.upd {α : Type} [DecidableEq α] (t : Tab α) (k : Nat) (d : α) (f : α → α) : Tab α :=
  Tab.put t k (f (Tab.get t k d)) d

/-- The canonical form: keys strictly rising. -/
def Tab.rising {α : Type} : Tab α → Bool
  | [] => true
  | [_] => true
  | (k, _) :: (k', v') :: t => decide (k < k') && Tab.rising ((k', v') :: t)

/-- The canonical form of a table whose unlisted keys hold d: keys strictly rising, no entry equal to d. -/
def Tab.wf {α : Type} [DecidableEq α] (t : Tab α) (d : α) : Bool :=
  Tab.rising t && t.all (fun e => decide (e.2 ≠ d))

/-- The entries whose key fails the test, kept. -/
def Tab.drop {α : Type} (t : Tab α) (p : Nat → Bool) : Tab α := t.filter (fun e => !p e.1)

/-- The sum of f over a table. -/
def Tab.sum {α : Type} (t : Tab α) (f : Nat → α → Nat) : Nat := t.foldl (fun n e => n + f e.1 e.2) 0

/-- The entries of a table that pass a test. -/
def Tab.where' {α : Type} (t : Tab α) (p : Nat → α → Bool) : List (Nat × α) := t.filter (fun e => p e.1 e.2)

/-- The smallest number from `from'` on that the table does not list; the search looks at as many numbers as
the table has entries, which is enough. -/
def Tab.fresh {α : Type} (t : Tab α) (from' : Nat) : Nat :=
  t.foldl (fun n e => if e.1 = n then n + 1 else n) from'

/-- Applies f to the element at an index of a list, which keeps its length. -/
def modAt {α : Type} (f : α → α) : List α → Nat → List α
  | [], _ => []
  | x :: xs, 0 => f x :: xs
  | x :: xs, n + 1 => x :: modAt f xs n

/-- Runs f over 0, 1, …, n - 1. -/
def loop {σ : Type} (n : Nat) (f : Nat → σ → σ) (s : σ) : σ := (List.range n).foldl (fun s k => f k s) s

end Sys2Proof.Machine
end

