-- ==== Sys2Proof/Machine/RegCore.lean ====
section
/-! DEFINITION. Register addresses, reset words and the effect of a write on the fields of one register by
their access codes (R7 to R16, R620 to R622). -/

namespace Sys2Proof.Machine

/-- The byte address of a register with its indices (R622). -/
def Reg.addr (r : Reg) (i j : Nat) : Nat := r.geom.base + r.geom.s1 * i + r.geom.s2 * j

/-- The indices at which a register's formula gives an address, if it does (R622). -/
def RegGeom.index (g : RegGeom) (a : Nat) : Option (Nat × Nat) :=
  if a < g.base then none else
  let d := a - g.base
  let i := d / g.s1
  let j := (d % g.s1) / g.s2
  if i < g.n1 ∧ j < g.n2 ∧ g.base + g.s1 * i + g.s2 * j = a then some (i, j) else none

/-- The register and indices listed at a byte address; none at an unlisted address (R12, R622). -/
def Reg.ofAddr (a : Nat) : Option (Reg × Nat × Nat) :=
  Reg.all.findSome? (fun r => (r.geom.index a).map (fun x => (r, x)))

/-- The word a register holds after the reset of its domain: the Reset column of its fields. The indexed
resets are those of STP_QUOTA_n, STP_REQ_CFG_m (R477) and TRG_POLL_IVL_k (R465). -/
def Reg.resetWord (r : Reg) (i _j : Nat) : Word :=
  match r with
  | .shpVersion => BitVec.ofNat 32 (0x00030000 + Config.patch.toNat)
  | .trgPollIvl => BitVec.ofNat 32 (500 <<< i)
  | .stpQuota => BitVec.ofNat 32 (if i % 4 = 1 then 512 else if i % 4 = 0 then 0 else 128)
  | .stpReqCfg =>
    let c := match i % 8 with
      | 0 => 3 | 1 => 2 | 2 => 2 | 3 => 1 | 4 => 1 | _ => 0
    BitVec.ofNat 32 (c <<< 30 + 8192 <<< 12 + 64)
  | _ => BitVec.ofNat 32 (r.fields.foldl (fun n f => n + f.rst <<< f.lo) 0)

/-- The bits of a word that a field covers. -/
def FieldSpec.mask (f : FieldSpec) : Nat := (2 ^ (f.hi + 1 - f.lo) - 1) <<< f.lo

/-- One field of a written word by its access code (R7), on the enabled bytes (R11), an E field only while
its unit is unlocked (R13, R14). -/
def FieldSpec.write (f : FieldSpec) (unlocked : Bool) (en data : Nat) (w : Nat) : Nat :=
  let m := f.mask &&& en
  if f.expert && !unlocked then w else
  match f.acc with
  | .rw => (w &&& (0xFFFFFFFF ^^^ m)) ||| (data &&& m)
  | .w1c => w &&& (0xFFFFFFFF ^^^ (data &&& m))
  | .w1s => w ||| (data &&& m)
  | .ro | .wo | .rc => w

/-- A write of a register word by the access codes of its fields; reserved bits take no write (R10). -/
def Reg.writeWord (r : Reg) (unlocked : Bool) (be : BitVec 4) (data old : Word) : Word :=
  BitVec.ofNat 32 (r.fields.foldl (fun w f => f.write unlocked (beMask be) data.toNat w) old.toNat)

/-- The word a read returns: WO fields and reserved bits read 0 (R7, R10). -/
def Reg.readWord (r : Reg) (w : Word) : Word :=
  BitVec.ofNat 32 (r.fields.foldl
    (fun v f => match f.acc with
      | .wo => v
      | _ => v ||| (w.toNat &&& f.mask)) 0)

/-- The word after a read: RC fields are cleared (R7). -/
def Reg.afterRead (r : Reg) (w : Word) : Word :=
  BitVec.ofNat 32 (r.fields.foldl
    (fun v f => match f.acc with
      | .rc => v &&& (0xFFFFFFFF ^^^ f.mask)
      | _ => v) w.toNat)

/-- Whether a register has a field that a read clears. -/
def Reg.hasRc (r : Reg) : Bool := r.fields.any (fun f => f.acc = .rc)

/-- A register file: the words of the registers by byte address; an unlisted address holds its register's
reset word. -/
abbrev RegFile := Tab Word

/-- The word of a register. -/
def RegFile.word (t : RegFile) (r : Reg) (i j : Nat) : Word := Tab.get t (r.addr i j) (r.resetWord i j)

/-- The register file with the word of a register replaced. -/
def RegFile.setWord (t : RegFile) (r : Reg) (i j : Nat) (w : Word) : RegFile :=
  Tab.put t (r.addr i j) w (r.resetWord i j)

/-- A field of a register. -/
def RegFile.rd (t : RegFile) (f : RegField) (i j : Nat) : Nat := bitsOf (RegFile.word t f.reg i j) f.hi f.lo

/-- The register file with one field replaced by the hardware. -/
def RegFile.wr (t : RegFile) (f : RegField) (i j v : Nat) : RegFile :=
  RegFile.setWord t f.reg i j (putBits (RegFile.word t f.reg i j) f.hi f.lo v)

/-- A field of a word given for a register, with no register file. -/
def RegField.of (f : RegField) (w : Word) : Nat := bitsOf w f.hi f.lo

/-- The value of a field at reset. -/
def RegField.rst (f : RegField) (i j : Nat) : Nat := bitsOf (f.reg.resetWord i j) f.hi f.lo

/-- Whether byte enables select every byte that a field lies in. -/
def RegField.enabled (f : RegField) (be : BitVec 4) : Bool :=
  let m := (2 ^ (f.hi + 1 - f.lo) - 1) <<< f.lo
  (m &&& beMask be) == m

/-- The value a WO field is written with: its enabled bits, bits of bytes that are not enabled counting as 0
(R11). -/
def RegField.wo (f : RegField) (be : BitVec 4) (data : Word) : Nat :=
  bitsOf (BitVec.ofNat 32 (data.toNat &&& beMask be)) f.hi f.lo

/-- The unit of an address (R620), with the number of the pen for the PEN ranges. -/
inductive Unit' where
  | shp | pwr | fld | tim | cvu | hdm | pmn | flk | pen | lar | act | cel | drv | trg | stp | none
  deriving DecidableEq, Repr

/-- The unit whose range holds an address (R620). -/
def unitOf (a : Nat) : Unit' :=
  if a < 0x0010000 then .shp else if a < 0x0020000 then .pwr else if a < 0x0030000 then .fld
  else if a < 0x0040000 then .tim else if a < 0x0050000 then .cvu else if a < 0x0060000 then .hdm
  else if a < 0x0070000 then .pmn else if a < 0x0080000 then .flk
  else if 0x0100000 ≤ a ∧ a < 0x0380000 then .pen
  else if 0x0400000 ≤ a ∧ a < 0x0500000 then .lar
  else if 0x0500000 ≤ a ∧ a < 0x0600000 then .act
  else if 0x0600000 ≤ a ∧ a < 0x0800000 then .cel
  else if 0x0800000 ≤ a ∧ a < 0x0C00000 then .drv
  else if 0x1000000 ≤ a ∧ a < 0x2000000 then .trg
  else if 0x2000000 ≤ a ∧ a < 0x2010000 then .stp
  else .none

/-- The bit of SHP_EXPERT that unlocks a unit (R98). -/
def Unit'.expertBit : Unit' → Nat
  | .shp => 0 | .pwr => 1 | .fld => 2 | .tim => 3 | .cvu => 4 | .hdm => 5 | .pmn => 6 | .flk => 7
  | .pen => 8 | .lar => 9 | .act => 10 | .cel => 11 | .drv => 12 | .trg => 13 | .stp => 14 | .none => 15

/-- The power domain of a pen (R620). -/
def penDomain (p : Nat) : Nat := if p < 32 then 1 + p / 4 else if p < 38 then 9 else 10

/-- The power domain that counts as holding an address (R620, R621); 0 is PD0, which is never off, and an
address outside every unit range belongs to none and is answered likewise. -/
def domainOf (a : Nat) : Nat :=
  match unitOf a with
  | .shp | .pwr | .none => 0
  | .fld | .cvu | .hdm | .pmn | .flk => 19
  | .tim => 18
  | .pen =>
    let p := (a - 0x0100000) / 0x10000
    let o := a % 0x10000
    if 32 ≤ p ∧ 0x8000 ≤ o ∧ o ≤ 0xC407 then 19 else penDomain p
  | .lar | .act | .drv => 17
  | .cel => 15
  | .trg | .stp => 9

end Sys2Proof.Machine
end

