-- ==== Sys2Proof/Machine/State.lean ====
section
/-! DEFINITION. The state of the block as plain data: the shepherd macro, the datapath macro and the queue of
waiting commands, with the reasons a step can stop and the state after reset. The default value of a field is
its value at reset. -/

namespace Sys2Proof.Machine

/-! ## Memories -/

/-- A byte memory some of whose bytes are undefined: `cells` lists what has been written since, `undef` the
ranges (lo, hi, seed) that lost their content, newest first (R153, R152). -/
structure URam where
  cells : Tab Byte := []
  undef : List (Nat × Nat × Nat) := []
  deriving DecidableEq, Repr

/-- A time of a time base: seconds and nanoseconds (R481). -/
structure Time where
  sec : Nat := 0
  ns : Nat := 0
  deriving DecidableEq, Repr

/-! ## The shepherd: register ports and link -/

/-- The three response codes of a register port (R43). -/
inductive RspCode where
  | ok | off | error
  deriving DecidableEq, Repr

/-- A response given on a register port (R45, R46). -/
structure Rsp where
  code : RspCode
  rdata : Word
  deriving DecidableEq, Repr

/-- Where an outstanding access of a register port stands: at the register core (R85), waiting for the link, or
sent on it (R54). -/
inductive AccStage where
  | atCore | waitLink | inFlight
  deriving DecidableEq, Repr

/-- The outstanding access of a register port (R44); `armed` tells whether the port's arm covers it (R99). -/
structure OutAccess where
  write : Bool
  addr : Nat
  be : BitVec 4
  data : Word
  stage : AccStage
  armed : Bool
  deriving DecidableEq, Repr

/-- A register port: its reset input, its outstanding access and the last response it gave (R43 to R48).
`overlap` records that the present low pulse of the reset overlaps a block reset (R164), `pulses` counts the valid
releases that the register core has not recorded because clk_shf is stopped (R86, R114). -/
structure RegPort where
  rstN : Bool := true
  acc : Option OutAccess := none
  rsp : Option Rsp := none
  overlap : Bool := false
  pulses : Nat := 0
  deriving DecidableEq, Repr

/-- A request that waits for the shepherd link (R53, R54): a port's access, or a word of the loader's operation
in that port's slot (R142). -/
structure LinkReq where
  master : RPort
  loader : Bool
  write : Bool
  addr : Nat
  be : BitVec 4
  data : Word
  deriving DecidableEq, Repr

/-- A request at the datapath end whose response has not been sent: `done` holds the read data once its access
has been performed. -/
structure DpReq where
  req : LinkReq
  done : Option Word
  deriving DecidableEq, Repr

/-- One slot of the link, per MASTER value: the request the shepherd waits for, the request the datapath end
holds, the drain period of R59, and whether the loader used the slot last (R142). `formed` holds the word of the shepherd's own
value that a write in flight changed, before and after it, so that a write answered ERROR can be taken back (R46, R133). -/
structure LinkSlot where
  sent : Option LinkReq := none
  dp : Option DpReq := none
  formed : Option (Word × Word) := none
  drain : Bool := false
  loaderLast : Bool := true
  deriving DecidableEq, Repr

/-- The shepherd link (R50 to R61): waiting requests in arrival order, one slot per port, the port served last,
and the last words on the request and response channels. DESIGN CHOICE: before any request was sent port B counts as the
one served last, so that port A wins the first tie; R54 gives no initial value (log entry 82). -/
structure Link where
  fifo : List LinkReq := []
  slotA : LinkSlot := {}
  slotB : LinkSlot := {}
  last : RPort := .b
  reqWords : List Word := []
  rspWords : List Word := []
  deriving DecidableEq, Repr

/-! ## The shepherd: SHP -/

/-- The SHP state of one port (R91, R114), with the port's shadow of the sleep tally (R618). -/
structure View where
  epoch : Nat := 0
  armed : Bool := false
  linkTo : Bool := false
  peerReset : Bool := false
  linkToAddr : Nat := 0
  orphan : Nat := 0
  fault : Nat := 0
  dbIn : Nat := 0
  dbMask : Nat := 0xFFFFFFFF
  intEn : Tab Nat := []
  intRoute : Tab Nat := []
  sleepHi : Nat := 0
  deriving DecidableEq, Repr

/-- A mailbox (R108 to R110): the eight words, FULL, COLLISION and SENDER_EPOCH. -/
structure Mailbox where
  data : List Word := List.replicate 8 0
  full : Bool := false
  collision : Bool := false
  epoch : Nat := 0
  deriving DecidableEq, Repr

/-! ## The shepherd: fold loader -/

/-- The states of the loader, coded as FLD_STAT.STATE (R137). -/
inductive FldState where
  | idle | pull | check | apply | hold | refold | splice | peek | restore
  deriving DecidableEq, Repr

/-- The fold loader (R133 to R153): the state, the operation's lent port, offset, length in words, pen and progress in
words, whether a write was refused with BUSY (R145), the domains that stayed on before a wake restore (R608), the
fold store, and the pens that a failed or aborted re-fold left held (R151). The FLD registers lie in the shepherd's
register file. -/
structure Loader where
  state : FldState := .idle
  port : RPort := .a
  ofs : Nat := 0
  len : Nat := 0
  pen : Nat := 0
  pos : Nat := 0
  busyRefused : Bool := false
  kept : List Nat := []
  store : URam := { undef := [(0, 1048576, 0)] }
  held : List Nat := []
  deriving DecidableEq, Repr

/-! ## The shepherd: power sequencer -/

/-- The six power states, coded 0 to 5 as in PWR_STAT.STATE (R597, R618). -/
inductive PState where
  | run | trim | doze | watch | hibernate | off
  deriving DecidableEq, Repr

/-- The steps of a sequence of the power sequencer (R156, R158, R605, R607, R609, R612, R616), in the order it
runs them. A step either acts at once or waits for an event of the environment. -/
inductive SeqStep where
  | phase (n : Nat)                         -- PWR_STAT.PHASE takes n
  | avs (rail mv : Nat)                     -- a write frame; waits for its end (R611)
  | settle                                  -- waits for the settle time
  | clkSel (v : Bool)                       -- clk_sel_core (R39)
  | clkUp (x : List Nat)                    -- raises clock requests; waits for every acknowledge (R36)
  | clkDown (x : List Nat)                  -- lowers clock requests; waits for every acknowledge to fall
  | up (d : Nat)                            -- raises pwr_req of a domain; waits for ready (R157)
  | down (d : Nat) (ret : Bool)             -- iso, ret, pwr_req of R605; waits for ready to fall
  | lower (d : Nat)                         -- lowers pwr_req after a failure (R158, R609)
  | memory (doms : List Nat) (cold : Bool)  -- memory phase; waits for the engines (R159, R607)
  | logic (release : Bool)                  -- releases shl_dp_rst_n; waits 32 clk_shf cycles (R156)
  | iso (d : Nat)                           -- lowers a domain's isolation on a clk_aon cycle (R157)
  | restore                                 -- wake restore of R148
  | retry                                   -- the 1 ms wait before the next attempt
  deriving DecidableEq, Repr

/-- What the sequencer runs (R156, R602, R606, R612, R616). -/
inductive SeqKind where
  | none | cold | wakeOff | wake | window | quiesce | entry | cruise | startMove
  deriving DecidableEq, Repr

/-- An AVSBus frame (R611): operation as in PWR_AVS_CMD.OP (1 read voltage, 2 read status, 3 write voltage). -/
structure AvsFrame where
  op : Nat
  rail : Nat
  data : Nat
  deriving DecidableEq, Repr

/-- The power sequencer (R595 to R619). `ret` and `retCruise` are the state and cruise point that a wake returns
to (R606); `wakeTo` and `wakeCruise` those of the running wake; `failed` marks the lowering after a failure, `stopped`
the end of a cold start's third failure (R158); `turned` marks a move to the cruise point that is turned away as clk_core stands
(R31); `blocked` keeps the conditions of a QUIESCE_FAIL (R618), `cruiseExit`
marks a change of R613 that is due or runs, `plan` one of the start move of R616, `faulted` lists the domains of R610,
`lost` those among them whose isolation waits for a request outstanding on the link (R90). -/
structure Seq where
  kind : SeqKind := .none
  todo : List SeqStep := []
  started : Bool := false
  state : PState := .run
  latched : PState := .run
  latchedCruise : Bool := false
  waiter : RPort := .a
  cruiseOn : Bool := false
  phase : Nat := 0
  attempt : Nat := 0
  failed : Bool := false
  stopped : Bool := false
  ret : PState := .run
  retCruise : Bool := false
  wakeTo : PState := .run
  wakeCruise : Bool := false
  blocked : Option Nat := none
  cruiseExit : Bool := false
  plan : Bool := false
  turned : Bool := false
  faulted : List Nat := []
  lost : List Nat := []
  deriving DecidableEq, Repr

/-- The handshake signals of one power domain (R81). -/
structure DomPins where
  pwrReq : Bool := false
  ready : Bool := false
  iso : Bool := true
  ret : Bool := false
  deriving DecidableEq, Repr

/-- One clock request pair (R36). -/
structure ClkPins where
  req : Bool := false
  ack : Bool := false
  deriving DecidableEq, Repr

/-- A time base's state saved by the shepherd when PD18 goes off (R491): seconds, nanoseconds, fraction, RATE, THRESH,
WD, AON_NS, AON_MEAS and the flags HOLDOVER and VIRGIN. -/
structure TimeSave where
  sec : Nat
  ns : Nat
  frac : Nat
  rate : Nat
  thresh : Nat
  wd : Nat
  aonNs : Nat
  aonMeas : Nat
  holdover : Bool
  virgin : Bool
  deriving DecidableEq, Repr

/-- The shepherd macro (PD0). -/
structure Shepherd where
  portA : RegPort := {}
  portB : RegPort := {}
  link : Link := {}
  viewA : View := {}
  viewB : View := {}
  mboxAB : Mailbox := {}
  mboxBA : Mailbox := {}
  sem : List (Option RPort) := List.replicate 32 none
  token : RPort := .a
  expert : Nat := 0
  cause : Tab Nat := []
  regs : RegFile := []
  fld : Loader := {}
  seq : Seq := {}
  doms : List DomPins := List.replicate 20 {}
  clks : List ClkPins := List.replicate 4 {}
  selCore : Bool := false
  dpRstN : Bool := false
  blkN : Bool := true
  avsRun : Option (AvsFrame × Bool) := none
  avsWait : Option AvsFrame := none
  sleepN : Nat := 0
  sleepRun : Bool := false
  saves : List TimeSave := []
  live : Nat := 0
  cseed : Tab Nat := []
  aonTol : Nat := 100000
  tick : Nat := 0
  deriving DecidableEq, Repr

/-! ## The datapath: receive MAC -/

/-- What the flock receive has made of a frame at its bytes 14 to 17 (R518 to R521): an ordinary frame or one not
judged yet, a dropped one, a control frame, a local one, a transit one. -/
inductive FlkMark where
  | plain | bad | control | local' | transit
  deriving DecidableEq, Repr

/-- A frame in reception on a line port (R201 to R230). `raw` holds every frame byte received, the FCS among
them; on the reassembly path `raw` holds the data of the fragments already judged and `frag` the bytes of the
fragment being received. `fid` names the frame in `frames` once it is accepted. `stage` is none before the
staging decision, else whether it was accepted (R215). -/
structure RxFrame where
  flk : FlkMark := .plain
  raw : List Byte := []
  frag : List Byte := []
  fid : Option Nat := none
  accepted : Bool := false
  dropped : Bool := false
  filtered : Bool := false
  addrHit : Nat := 15
  long : Bool := false
  count : Nat := 0
  nextFrag : Option Nat := none
  frags : Nat := 0
  inFrag : Bool := false
  deriving DecidableEq, Repr

/-- The state of one class's pause (R223). -/
inductive PauseState where
  | running | paused | storm
  deriving DecidableEq, Repr

/-- One class of a port: its pause state, the pause time applied last in quanta (R221), whether W stands at
LIMIT (R223), whether the class entered STORM with WD_ACTION 1 (R358). -/
structure PauseClass where
  st : PauseState := .running
  quanta : Nat := 0
  wLimit : Bool := false
  drop : Bool := false
  deriving DecidableEq, Repr

/-- The receive MAC of one line port: the express path, the reassembly path, and the SMD of a verify or respond
frame in reception (R227, R230). -/
structure RxPort where
  express : Option RxFrame := none
  pre : Option RxFrame := none
  mmFrame : Option (Nat × List Byte) := none
  pause : List PauseClass := List.replicate 8 {}
  deriving DecidableEq, Repr

/-! ## The datapath: verdicts, frames and copies -/

/-- The FWD group of an action record (R300): kind 0 PORT, 1 ECMP, 2 MCAST, 3 DROP. -/
structure Fwd where
  kind : Nat
  target : Nat
  queue : Nat
  qvalid : Bool
  deriving DecidableEq, Repr

/-- A verdict: one instance of each group (R301). Colours are 0 green, 1 yellow, 2 red. -/
structure Verdict where
  fwd : Option Fwd := none
  colour : Nat := 0
  tc : Nat := 0
  edit : Option Nat := none
  loop : Option (Nat × Nat) := none     -- HINT, BASE_ADV
  meter : Option (Nat × Bool) := none   -- METER, AWARE
  count : Option Nat := none
  sample : Option Nat := none
  ts : Option (Nat × Nat) := none       -- TS_MODE, PTP_OFS
  tsAt : Option (Nat × Bool) := none    -- of a carried TS: where its header stands, and R500's condition on it
  deriving DecidableEq, Repr

/-- The grazer result of a pass (R259). -/
structure GrazeRes where
  state : Nat := 0
  scanned : Nat := 0
  hits : Nat := 0
  first : Option (Nat × Nat) := none    -- pattern, offset
  deriving DecidableEq, Repr

/-- What a frame carries through its passes (R235, R249, R325, R326). -/
structure PassInfo where
  pass : Nat := 1
  base : Nat := 0
  hint : Nat := 0
  port : Nat := 0                       -- input port of this pass
  prevProfile : Nat := 0
  prev : GrazeRes := {}
  verdict : Verdict := {}
  deriving DecidableEq, Repr

/-- The transmit descriptor data that a client frame carries (R249, R378, R425, R445): queue, ring slot, tenant, the number
of its transmit record and its launch time. -/
structure TxInfo where
  txq : Nat
  slot : Nat := 0
  tenant : Nat
  txRec : Nat
  launch : Option Time := none
  deriving DecidableEq, Repr

/-- A frame inside the block. `bytes` are the bytes passed on so far, without FCS once the end is known;
`ended` tells that its class RX_ERR is final. `resv` is its staging reservation (R215), `written` the sectors
stored; entry j of `locs` tells where sector j lies: 2 s in sector s of its loft, counted without wrapping, 2 s + 1
in sector s of the cellar, which is column s mod 8 of cell s / 8. `chMin` to `chLand` count its charged cells by
source, and `srcs` names the source of each, 0 minimum, 1 pool, 2 headroom, 3 landing (R346). -/
structure Frame where
  pen : Nat
  port : Nat                            -- input port of the first pass
  bytes : List Byte := []
  fcsLen : Nat := 0                     -- FCS bytes stored behind them (R19, R201)
  ended : Bool := false
  len : Nat := 0
  tags : Nat := 0
  addrHit : Nat := 15
  rxErr : Nat := 0
  preempted : Bool := false
  rxTs : Option Time := none
  rxHold : Bool := false                -- the base was in HOLDOVER at that time (R501)
  tx : Option TxInfo := none
  epoch : Nat := 0
  staged : Bool := false
  resv : Nat := 0
  ready : Bool := false
  info : PassInfo := {}
  inPen : Nat := 0                      -- input pen of this pass
  inside : Bool := false                -- R294
  strip : Option (Nat × Nat) := none    -- start and length of the strip of R318, applied to arriving bytes
  admitted : Bool := false
  mcast : Bool := false
  record : Bool := false                -- holds a frame record
  loft : Option Nat := none             -- loft it was placed in (40 * input pen + output pen)
  headroom : Bool := false
  claim : Nat := 0
  tc : Nat := 0
  queue : Nat := 0                      -- class queue of a unicast frame
  pool : Nat := 0
  written : Nat := 0
  locs : List Nat := []
  chMin : Nat := 0
  chPool : Nat := 0
  chHr : Nat := 0
  chLand : Nat := 0
  srcs : Tab Nat := []
  ecnAt : Option Nat := none            -- h of R354
  lenField : Bool := false
  transit : Bool := false               -- a transit flock frame (R520)
  sample : Bool := false                -- a sample (R322)
  sampleOf : Nat := 0                   -- the frame it samples, by number
  trunc : Nat := 0                      -- data bytes it takes of it
  moving : Bool := false                -- sinks: its loft sectors are being moved (R339)
  deriving DecidableEq, Repr

/-- A capture of R425 that awaits the end of its copy: the egress time, whether a one-step value was written, the
message's type, domain and sequence number, and the transmit queue and slot of the frame. `waits` marks one whose request
is judged at the end of its copy, since Lout was not known at the start (R421). -/
structure Capture where
  te : Time
  mode : Nat
  hold : Bool
  oneStep : Bool
  msg : Nat
  dom : Nat
  seq : Nat
  txq : Option (Nat × Nat) := none
  waits : Bool := false
  deriving DecidableEq, Repr

/-- How the drover has judged a copy's launch time (R376). -/
inductive Judge where
  | not | held | due
  deriving DecidableEq, Repr

/-- A copy of a stored frame in its output queue (R335). `q` is the class queue 8 * port + class; `rxq` the
receive queue of a copy for a client port. `read` sectors have been read in order, `ahead` beyond them. -/
structure Copy where
  fid : Nat
  q : Nat
  rxq : Option Nat := none
  colour : Nat := 0
  tpl : Option Nat := none
  mcast : Bool := false
  entry : Bool := false                 -- holds a copy entry (R334)
  mark : Bool := false                  -- ECN mark (R354)
  ts : Option (Nat × Nat) := none       -- TS_MODE and where the header stands before the push
  launch : Option Time := none
  judge : Judge := .not
  granted : Bool := false
  expressStream : Bool := true
  started : Bool := false
  away : Bool := false                  -- read to its end, its completion still to be placed (R294)
  read : Nat := 0
  ahead : List Nat := []
  next : Option PassInfo := none        -- a loop copy's next pass
  nextFid : Option Nat := none          -- the frame of that pass, once its bytes arrive on the loop pen
  kind : Nat := 0                       -- 0 forwarded frame, 1 sample, 2 flock control frame
  hash : Nat := 0                       -- symmetric hash of R448
  tplData : List Byte := []             -- template read at the start (R319)
  cap : Option Capture := none          -- capture of R420, R425
  flow : Nat := 0                       -- FLOW of an origin copy (R525)
  flock : Bool := false                 -- sent as a flock frame (R524, R526)
  timed : Bool := false                 -- started at the instant of its grant (R385)
  deriving DecidableEq, Repr

/-- A lookup of a pass (R245, R273): waiting for its bucket reads since `age` core clocks, reading with the
outcome its buckets gave, or done with its result. -/
inductive LookupState where
  | waiting (age : Nat)
  | reading (hit : Bool) (res : List Byte)
  | done (hit : Bool) (res : List Byte)
  deriving DecidableEq, Repr

/-- One enabled lookup of a pass: its number t, its table and its key. -/
structure Lookup where
  t : Nat
  table : Nat
  key : List Byte
  st : LookupState := .waiting 0
  deriving DecidableEq, Repr

/-- A graze window (R257, R260): its first frame byte, GRAZE_LEN, the blocks scanned; open until the deadline. -/
structure Window where
  start : Nat
  len : Nat
  blocks : Nat := 0
  closed : Bool := false
  deriving DecidableEq, Repr

/-- A pass between its parse start and its verdict (R236, R250). `dataEnd` is E of R237, none where the frame
had not ended when its slot started. `failed` marks a parse that failed and takes the default verdict of R251.
`head` holds the bytes of its head window as its slot found them, where the frame had not ended. `live` holds the live copies that
its slot saw (R289), `lost` the clocks its lookups have waited, `acct` whether
its slot's outcome is to be counted (R586). -/
structure Pass where
  fid : Nat
  slot : Nat
  profile : Nat := 0
  dataEnd : Option Nat := none
  head : List Byte := []
  live : Nat := 0
  lost : Nat := 0
  acct : Bool := false
  kv : List Byte := []
  shortOpt : Nat := 0
  metadata : List Byte := []
  lookups : List Lookup := []
  window : Option Window := none
  graze : GrazeRes := {}
  failed : Bool := false
  deriving DecidableEq, Repr

/-! ## The datapath: larder -/

/-- A record of the attic loader (R287): copy, table, bank, bucket within the copy and bucket bytes. -/
structure AtticRec where
  copy : Nat
  table : Nat
  bank : Nat
  bucket : Nat
  bytes : List Byte
  deriving DecidableEq, Repr

/-- A command accepted by the command engine (R281): OP, table, copy, LAR_LOC and staging at acceptance, its reads issued so far
(R274), the clocks its next read has waited, and whether one has waited 4,096 (R278). `behind` tells that a seed write for its
copy, which waits still, crossed the link before it (R291). -/
structure LarCmd where
  op : Nat
  table : Nat
  copy : Nat
  loc : Nat
  stage : List Byte
  reads : Nat := 0
  waited : Nat := 0
  starved : Bool := false
  behind : Bool := false
  deriving DecidableEq, Repr

/-- The larder (R265 to R299). `buckets` holds 64 bytes by 1536 * bank + physical bucket, `live` the copies in
force, `flips` the LAR_LIVE writes (some) and epoch requests (none) that wait, in order of arrival. `settling`
lists copies 2 * table + copy that are no longer live and not settled, each with the frames whose passes it waits
for. `cseed` holds the seeds in force by n = 4t + 2x + c. `headWait` counts the clocks that the loader's head record has waited
for a bank (R288), `draws` the model's own free choices drawn so far. -/
structure Larder where
  buckets : Tab (List Byte) := []
  live : Nat := 0
  flips : List (Option Nat) := []
  settling : Tab (List Nat) := []
  cseed : Tab Nat := []
  seedWait : List (Nat × Nat) := []
  fifo : List AtticRec := []
  headWait : Nat := 0
  draws : Nat := 0
  pushWait : List (Src × AtticRec) := []
  eng : Option LarCmd := none
  cmdWait : List (Src × Nat) := []
  deriving DecidableEq, Repr

/-! ## The datapath: performance monitor -/

/-- The contexts of the check-value units (R536, R546): the core clocks of work that a context still has to do, and the
contexts that have taken a write since PD19 powered on. The running values lie in the registers. -/
structure Cvu where
  owed : Tab Nat := []
  begun : List Nat := []
  deriving DecidableEq, Repr

/-- The performance monitor (R581 to R594): values 0 to 7 and 8 the cycle counter, wrap flags, the readers'
shadows, the passes started by each pen since the last tick, the clocks of lookup grants since then, and in how many of them each
pen's pipeline held (R587). -/
structure Pmn where
  cnt : Tab Nat := []
  wrap : Tab Bool := []
  shadow : Tab (Nat × Bool) := []
  started : Tab Nat := []
  grants : Nat := 0
  backs : Tab Nat := []
  deriving DecidableEq, Repr

/-! ## The datapath: cellar, lofts and drover -/

/-- A cell of the cellar that is not on its bank's free list: its sectors not yet released, and whether a writer
holds it open with that many sectors filled (R329, R330, R333). -/
structure Cell' where
  live : Nat := 0
  fill : Nat := 0
  open' : Bool := true
  deriving DecidableEq, Repr

/-- A loft (R337 to R340): its write position, counted without wrapping, the frames that hold its loft records in order,
the frames that a sink is still to move, which hold none, whether it sinks, and its sink engine (R339). -/
structure Loft where
  wpos : Nat := 0
  frames : List Nat := []
  moving : List Nat := []
  sinking : Bool := false
  engine : Option Nat := none
  deriving DecidableEq, Repr

/-- The cellar, the lofts and admission (R329 to R365). `openCell` names each writer's open cell: 0 to 39 the
input pens, 40 to 55 the sink engines; `second` lists those whose cell lies in a bank that another writer held when they
took it (R331). `sw` and `refold` hold discard reasons of R358; DOWN stands in the link state, STORM in the pause state. `sinkOrder` lists
sinking lofts in the order they began. `minQ` holds MIN as each class queue's last admission test found it (R362). `draws`
is the model's own: the free choices drawn so far. -/
structure Cellar where
  cells : Tab Cell' := []
  openCell : Tab Nat := []
  second : List Nat := []
  lofts : Tab Loft := []
  sinkOrder : List Nat := []
  rng : Tab Nat := []
  sw : List Nat := []
  refold : List Nat := []
  flushPtr : Nat := 0
  wait : Tab Nat := []
  minQ : Tab Nat := []
  draws : Nat := 0
  deriving DecidableEq, Repr

/-- A committed gate list (R381): its range, cycle and base time in ns, and for a pending list its first start
S'. -/
structure GateList where
  start : Nat
  len : Nat
  cycle : Nat
  base : Nat
  first : Nat
  deriving DecidableEq, Repr

/-- A gated port's lists (R382, R388): in force and pending. The mode lies in DRV_GATE_STAT. -/
structure GatePort where
  inForce : Option GateList := none
  pending : Option GateList := none
  deriving DecidableEq, Repr

/-- The drover (R366 to R392): the rates in force since the last tick (R374), tokens of the class shapers by m = 8n + c, of the port shapers and cap shapers by
port, in 2^-20 bytes, deficits, round robin pointers of the ports and of the pens. -/
structure Drover where
  rateClass : Tab Nat := []
  ratePort : Tab Nat := []
  tokClass : Tab Int := []
  tokPort : Tab Int := []
  tokCap : Tab Int := []
  deficit : Tab Int := []
  cur : Tab Nat := []
  lastPort : Tab Nat := []
  gates : Tab GatePort := []
  deriving DecidableEq, Repr

/-! ## The datapath: transmit MAC -/

/-- A copy read to its end whose FCS has not been sent (R396, R403): the bytes sent, whether its frame is bad, its
transmit record, its capture, the stream it was in, and whether pad stands before its flock trailer (R526). -/
structure TxTail where
  bytes : List Byte
  bad : Bool
  padded : Bool := false
  flock : Option Nat := none
  txRec : Option Nat := none
  cap : Option Capture := none
  pre : Bool := false
  deriving DecidableEq, Repr

/-- What a lane slot's lsl_tx_data carries (R182, R192, R194): nothing, a test pattern, remote-fault ordered sets, idle, the
port's frames with idle between them, the received stream of far-end loopback. -/
inductive LaneOut where
  | off | pattern (code : Nat) | remoteFault | idle | frames | returned
  deriving DecidableEq, Repr

/-- The transmit MAC of a line port (R396 to R419). `tail` holds the copy that was read to its end last, until its
frame ends; `sentTo` counts the data bytes of the preemptable copy sent in earlier fragments, `away` tells that it
waits for its continuation; `frags` counts its fragments, `smd` the preemptable frames started while preemption is
active, `hold` lists the express head copies for whose launch times the preemptable MAC is held (R418), `split` tells that the preemptable frame sent now started with SMD-S (R397, R409). `tailFrom` and `tailTo` bound the
FCS and the gap that follow the last byte accepted, on the port's time base (R401). `wireFrom` is the time at which the frame or fragment sent now began (R418). `last` holds the bytes sent last, from
the preamble of their frame or fragment to its check bytes; `lastErr` tells that an error control character ended them. -/
structure TxPort where
  ctrlPend : Bool := false
  respPend : Bool := false
  verPend : Bool := false
  announced : Nat := 0
  tail : Option TxTail := none
  away : Bool := false
  sentTo : Nat := 0
  frags : Nat := 0
  smd : Nat := 0
  hold : List Nat := []
  split : Bool := false
  wireFrom : Nat := 0
  tailFrom : Nat := 0
  tailTo : Nat := 0
  last : List Byte := []
  lastErr : Bool := false
  deriving DecidableEq, Repr

/-! ## The datapath: troughs -/

/-- A queue of the troughs: transmit or receive. -/
structure QRef where
  rx : Bool
  q : Nat
  deriving DecidableEq, Repr

/-- A transmit or receive descriptor as taken (R436, R438), with its ring slot. -/
structure Desc where
  slot : Nat
  addr : Nat
  cookie : Nat
  launch : Nat := 0
  dgOfs : Nat := 0
  dgMode : Nat := 0
  len : Nat
  lt : Bool := false
  more : Bool := false
  deriving DecidableEq, Repr

/-- The run time of a queue: descriptors taken and not used, those set aside for a copy in writing among them (R441),
and whether a poll result is outstanding. The receive list of a receive queue is its copies. -/
structure QueueRt where
  descs : List Desc := []
  waiting : Bool := false
  deriving DecidableEq, Repr

/-- The polling state of a client pen (R442, R443): kicked, due and hot queues, whether the hot list was served
last, the transmit queue fetched last, and poll results not yet taken (queue, first slot, beat). -/
structure TrgPen where
  kicks : List QRef := []
  due : List QRef := []
  hot : List QRef := []
  lastHot : Bool := false
  rrLast : Nat := 0
  polls : List (QRef × List Byte) := []
  deriving DecidableEq, Repr

/-- The run time of a completion ring (R434, R454, R455): ring slots reserved, holding-store places reserved, the
completions in the holding store, and whether a consumer-index read is outstanding. -/
structure RingRt where
  resv : Nat := 0
  heldResv : Nat := 0
  held : List (List Byte) := []
  ciWait : Bool := false
  deriving DecidableEq, Repr

/-- A transmit frame from its fetch to its completion (R445 to R447). `parts` holds the data fetched, by offset.
`code` is a rejection or TX_FETCH_ERR; `worst` the lowest-ordered R404 outcome other than TX_OK; `inRing` tells
where its completion is reserved. -/
structure TxRec where
  q : Nat
  pen : Nat
  slot : Nat
  cookie : Nat
  dlen : Nat
  fetchLen : Nat := 0
  ndesc : Nat
  lt : Bool := false
  dgMode : Nat := 0
  dgOfs : Nat := 0
  parts : List (Nat × List Byte) := []
  fid : Option Nat := none
  code : Option Nat := none
  admitted : Bool := false
  ltDrop : Bool := false
  late : Bool := false
  worst : Option Nat := none
  tc : Nat := 0
  crc32 : Bool := false                 -- its digest check is CRC-32 (R540)
  aux : Nat := 0
  inRing : Bool := true
  deriving DecidableEq, Repr

/-- A receive copy being written (R450 to R453): its queue, copy, descriptors, the data requests not yet
transferred, and what its completion reports once `read` is set. -/
structure RxRec where
  q : Nat
  cid : Nat
  descs : List Desc
  left : Nat := 0
  read : Bool := false
  len : Nat := 0
  status : Nat := 0
  rxErr : Nat := 0
  sample : Bool := false
  tc : Nat := 0
  port : Nat := 0
  stamp : Nat := 0
  crc32 : Bool := false                 -- its digest check is CRC-32 (R540)
  ndesc : Nat := 1
  aux : Nat := 0
  inRing : Bool := true
  own : Bool := true                    -- its queue has not been DISABLED since
  deriving DecidableEq, Repr

/-- The troughs (R426 to R465). The contexts lie in the register file. -/
structure Troughs where
  txq : Tab QueueRt := []
  rxq : Tab QueueRt := []
  pens : Tab TrgPen := []
  rings : Tab RingRt := []
  txRecs : Tab TxRec := []
  rxRecs : Tab RxRec := []
  nextRec : Nat := 1
  deriving DecidableEq, Repr

/-! ## The datapath: store-room ports -/

/-- What a store-room request is for. -/
inductive Job where
  | poll (rx : Bool) (q : Nat)
  | txData (rec' ofs skip n : Nat)      -- record, offset in the frame, bytes skipped in the data, bytes taken
  | rxData (rec' : Nat)
  | cpl (ring : Nat)
  | ci (ring ofs : Nat)                 -- ring, byte offset of the word in the beat
  | hdma (id : Nat)                     -- the request's number in Hdma.reqs
  deriving DecidableEq, Repr

/-- A store-room request (R62, R64, R468). `data` holds a write's bytes from byte `lo` of the first beat on; other
bytes have strobe 0. `untaken` marks a poll whose queue has left RUNNING: its slots are not taken (R457). `orphan` marks
a request whose owner has been DISABLED since: its errors act on the store-room registers alone (R476). -/
structure SReq where
  r : Nat
  write : Bool
  addr : Nat
  len : Nat                             -- beats
  tenant : Nat
  kind : Nat
  owner : Nat
  job : Job
  lo : Nat := 0
  data : List Byte := []
  untaken : Bool := false
  orphan : Bool := false
  deriving DecidableEq, Repr

/-- An outstanding read (R66): the beats so far, the first error code among them. -/
structure SRead where
  req : SReq
  got : Nat := 0
  err : Nat := 0
  bytes : List Byte := []
  deriving DecidableEq, Repr

/-- A write data beat (R62): address, the strobed range of its bytes, the data in that range, wd_last. -/
structure WBeat where
  addr : Nat
  lo : Nat
  data : List Byte
  last : Bool
  job : Job
  deriving DecidableEq, Repr

/-- A store-room port with its arbiter (R62 to R72, R466 to R480): requests ready to be issued, the grant with its
class, whether the holder is cut off, the presented request with its tag, outstanding reads by tag, outstanding
writes oldest first, the write data beats, quota counters, tick counter and sub-tick clocks, age stamps. -/
structure StpPort where
  want : List SReq := []
  grant : Option (Nat × Nat) := none
  lastClass : Tab Nat := []
  cut : Bool := false
  presented : Option (SReq × Nat) := none
  reads : Tab SRead := []
  writes : List SReq := []
  wbeats : List WBeat := []
  used : Tab Nat := []
  tick : Nat := 0
  sub : Nat := 0
  stamps : Tab Nat := []
  stopped : Bool := false
  deriving DecidableEq, Repr

/-! ## The datapath: time bases -/

/-- A command of a time base that awaits its tick (R487): CMD, the value of TIM_SET_b or TIM_OFS_b at its arrival,
and FORCE. -/
structure TbCmd where
  cmd : Nat
  setSec : Nat
  setNs : Nat
  ofs : Nat
  force : Bool
  deriving DecidableEq, Repr

/-- A time base (R481): seconds, nanoseconds and fraction, the commands that await its tick, and the measuring
window of R493: its start in units of 2^-32 ns, and whether it is clean so far. HOLDOVER and VIRGIN lie in
TIM_STAT. -/
structure TimeBase where
  sec : Nat := 0
  ns : Nat := 0
  frac : Nat := 0
  cmds : List TbCmd := []
  winStart : Nat := 0
  clean : Bool := false
  since : Nat := 0                      -- ticks since the correction watchdog last restarted (R490)
  deriving DecidableEq, Repr

/-- A pulse output's START, PERIOD and WIDTH in force, in ns (R504). -/
structure PulseOut where
  start : Nat := 0
  period : Nat := 1000000000
  width : Nat := 100000
  deriving DecidableEq, Repr

/-- The time unit beside its registers (R481 to R510): bases, the readers' seconds shadows by 8 * reader + base,
the two logs with the counts of records formed, pulse output settings in force and levels. -/
structure TimeUnit where
  bases : List TimeBase := List.replicate 8 {}
  shadow : Tab Nat := []
  txLog : List (List Byte) := []
  rxLog : List (List Byte) := []
  txSeq : Nat := 0
  rxSeq : Nat := 0
  pout : Tab PulseOut := []
  level : List Bool := List.replicate 4 false
  deriving DecidableEq, Repr

/-! ## The datapath: flock -/

/-- A flock link: its transmit count, the ALIVE it expects, and the control frames that wait, bytes 0 to 51 each
(R528, R529). Its state lies in FLK_LINK_STAT. -/
structure FlkLink where
  count : Nat := 0
  exp : Nat := 0
  ctrl : List (List Byte) := []
  deriving DecidableEq, Repr

/-- The flock unit (R511 to R534): its links, its claim sequence, and the flood cache of (KIND, IDENT, CSEQ),
newest first. -/
structure Flock where
  links : Tab FlkLink := []
  cseq : Nat := 0
  cache : List (Nat × Nat × Nat) := []
  deriving DecidableEq, Repr

/-! ## The datapath: housekeeping DMA -/

/-- A memory request of the housekeeping DMA that has not been answered (R555, R556): the run it belongs to, its
channel, the offset of its first byte in the transfer, the bytes to skip in its data, its bytes, its first byte's
address; `desc` marks a legacy descriptor read, `late` the trigger kind of an ended run whose write's error forms a further
record. -/
structure HReq where
  run : Nat
  ch : Nat
  write : Bool
  pos : Nat
  skip : Nat
  n : Nat
  addr : Nat
  desc : Bool := false
  late : Option Nat := none
  deriving DecidableEq, Repr

/-- A failure of the running channel (R559): status, offset of the failed request's first byte, its address. -/
structure HFail where
  status : Nat
  pos : Nat
  addr : Nat
  deriving DecidableEq, Repr

/-- The running channel (R549, R551, R563): the working copies of a transfer or of a legacy link, the bytes read so
far, those read but not written, the data that arrived out of order, the bytes written, a failure; for legacy chains
the next descriptor, the link's LAST and RECORD, the chain's bytes and links so far. `desc` tells that a descriptor is
being read, `held` that the unit holds the register write issued last. -/
structure HRun where
  id : Nat
  ch : Nat
  trig : Nat
  legacy : Bool := false
  src : Nat := 0
  dst : Nat := 0
  count : Nat := 0
  srcReg : Bool := false
  dstReg : Bool := false
  rpos : Nat := 0
  buf : List Byte := []
  parts : List (Nat × List Byte) := []
  wpos : Nat := 0
  fail : Option HFail := none
  held : Bool := false
  desc : Bool := false
  next : Nat := 0
  last : Bool := true
  mark : Bool := false
  total : Nat := 0
  links : Nat := 0
  deriving DecidableEq, Repr

/-- The housekeeping DMA (R549 to R569): trigger kind and order of the PENDING channels, the running channel, the
channel that drains after R561, unanswered requests by number, the queue of records, the records that wait for it
each with the channel its run chains to, the number of records formed. STOPPED lies in HDM_STAT, the channels'
states in HDM_CH_STAT_c. `draws` counts the model's own free choices drawn so far. -/
structure Hdma where
  trig : Tab (Nat × Nat) := []
  nextTrig : Nat := 0
  run : Option HRun := none
  nextRun : Nat := 1
  drain : Option (Nat × Nat) := none    -- channel, run
  reqs : Tab HReq := []
  nextReq : Nat := 1
  queue : List (List Byte) := []
  waiting : List (List Byte × Option Nat) := []
  seq : Nat := 0
  draws : Nat := 0
  deriving DecidableEq, Repr

/-! ## The datapath as a whole -/

/-- What an event of the same clock may meet: a clear of NEW of PEN_PARSE_STAT of a pen (R252), of STP_ERR_CTL of a port
(R477), of TIM_PIN_NS of an input (R503), of HDM_ERR_INFO (R568), of HIT of PEN_WAKE_HIT of a pen (R233), a pausing frame of a class in STORM
(R224), the admission of a frame into a loft (R22), a write of a cellar bank by the writer that holds it (R331), a frame
becoming ready (R214, R234), the start of slot 0 of a pen (R234), the engine's write of a larder bank (R288), a trigger taken
by the housekeeping DMA (R553, R554), an increment that has set HALF or WRAP of PEN_TALLY_EVT (R577) or of PMN_EVT (R592). The number beside it
in Datapath.together names the pen, port, input, class (8 * port + class), loft, bank, frame, tally (2 * (128 * port + n),
and 1 more for its wrap) or counter (likewise). -/
inductive Meeting where
  | parseNew | storeNew | pinNew | dmaNew | wakeHit | pauseFrame | loftEntry | bankWrite | ready | slotZero | engineWrite
  | dmaTrigger | tallyEvt | pmnEvt
  deriving DecidableEq, Repr

/-- The datapath macro (PD1 to PD19). `carve` holds the LANE_CARVE byte of each lane slot, `portMode` and the
other structure tables the records of the fold image in force, byte for byte (R125 to R130). Tallies are keyed
by 128 * port + n, snapshots by 96 * pen + n, tally shadows by 40 * reader + pen (R570 to R574). `wakeReq` holds the sentinel pens whose wake request has not been sent (R233); `together` is the model's own: what
has met an event of its clock, until that clock ends. `linkHeld` holds the line ports that a re-fold has taken down until its
last section is applied (R150). -/
structure Datapath where
  regs : RegFile := []
  stage : URam := {}
  carve : Tab Nat := []
  portMode : Tab (List Byte) := []
  sortTab : Tab (List Byte) := []
  profile : Tab (List Byte) := []
  pattern : Tab (List Byte) := []
  bufferPlan : List Byte := []
  larderGeom : Tab (List Byte) := []
  queueMap : Tab (List Byte) := []
  timePlan : Tab (List Byte) := []
  flockRole : List Byte := []
  tally : Tab Nat := []
  tallyWrap : Tab Bool := []
  snap : Tab (Nat × Bool) := []
  tallyShadow : Tab (Nat × Bool) := []
  sigDet : Tab Bool := []
  txQuiet : Tab Bool := []
  rxQuiet : Tab Bool := []
  waking : List Nat := []
  linkHeld : List Nat := []
  gated : List Nat := []
  rx : Tab RxPort := []
  frames : Tab Frame := []
  nextFrame : Nat := 1
  ready : Tab (List Nat) := []
  passes : Tab (List Pass) := []
  lar : Larder := {}
  pmn : Pmn := {}
  lines : Tab Byte := []
  meters : Tab (List Byte) := []
  meterLast : Nat := 0
  flow : Tab (Nat × Nat) := []
  cel : Cellar := {}
  copies : Tab Copy := []
  nextCopy : Nat := 1
  drv : Drover := {}
  tx : Tab TxPort := []
  trg : Troughs := {}
  stp : Tab StpPort := []
  tim : TimeUnit := {}
  flk : Flock := {}
  hdm : Hdma := {}
  cvu : Cvu := {}
  wakeReq : List Nat := []
  together : List (Meeting × Nat) := []
  deriving DecidableEq, Repr

/-- The state of the block: the two macros, the commands that wait, first in, first out, and the model's own
counter of free values drawn so far. -/
structure State where
  sh : Shepherd := {}
  dp : Datapath := {}
  pending : List Instr := []
  freeSeed : Nat := 1
  deriving DecidableEq, Repr

/-- Reasons a run can stop with a fault: none. Every command of the table has an effect in every state. -/
inductive Fault where
  /-- Never raised: a place holder so that the type has a constructor. Safe. -/
  | never
  deriving DecidableEq, Repr

/-- Reasons a command is refused. -/
inductive Refusal where
  /-- The command has no meaning in the model yet, rejected by name in Machine/Dispatch.lean. Safe. -/
  | notModelled (mnemonic : String)
  deriving DecidableEq, Repr

/-- The order in which domains are raised and their isolation is lowered: PD19 first, PD1 last (R157). -/
def raiseOrder : List Nat := ((List.range 19).map (· + 1)).reverse

/-- The steps of a cold start (R156): 0.75 V on rail 0, settle, the clocks, the domains, the memories, the logic. -/
def coldSteps : List SeqStep :=
  [.phase 10, .avs 0 750, .settle, .clkSel false, .clkUp [0, 1, 2, 3]] ++ raiseOrder.map .up ++
  [.memory raiseOrder true, .logic true] ++ raiseOrder.map .iso

/-- The block right after reset: the condition of R154, with the cold start's first AVSBus frame begun (R156), and
clk_req_shf raised for the register ports, which are out of reset (R86). -/
def State.reset : State :=
  { sh := { ({} : Shepherd) with
      seq := { kind := .cold, todo := coldSteps.drop 1, started := true, phase := 10 }
      avsRun := some ({ op := 3, rail := 0, data := 750 }, true)
      clks := [{}, {}, { req := true }, {}] } }

end Sys2Proof.Machine
end

