-- ==== Sys2Proof/Machine/TallyNames.lean ====
section
/-! DEFINITION. The indices of the 96 tallies of a port (R570) and of the datapath units (R57). -/

namespace Sys2Proof.Machine.T

def RX_OK : Nat := 0
def RX_ADDR_DROP : Nat := 1
def RX_PAUSE : Nat := 2
def RX_PFC : Nat := 3
def RX_CTRL_UNKNOWN : Nat := 4
def RX_OVERFLOW : Nat := 5
def RX_UNDERSIZE : Nat := 6
def RX_FRAGMENT : Nat := 7
def MM_ASSY_ERR : Nat := 8
def RX_ERR_CHAR : Nat := 9
def RX_CUT : Nat := 10
def RX_OVERSIZE : Nat := 11
def RX_JABBER : Nat := 12
def RX_STOMPED : Nat := 13
def RX_FCS_ERR : Nat := 14
def RX_PAUSE_IGNORED : Nat := 15
def MM_SMD_ERR : Nat := 16
def MM_FRAG_RX : Nat := 17
def MM_ASSY_OK : Nat := 18
def PAUSE_STORM : Nat := 19
def WAKE_MATCH : Nat := 20
def WAKE_DISCARD : Nat := 21
def DESKEW_FAIL : Nat := 22
def LINK_DOWN : Nat := 23
def RX_BYTES : Nat := 24
def RX_UCAST : Nat := 25
def RX_MCAST : Nat := 26
def RX_BCAST : Nat := 27
def RX_64 : Nat := 28
def RX_65_127 : Nat := 29
def RX_128_255 : Nat := 30
def RX_256_511 : Nat := 31
def RX_512_1023 : Nat := 32
def RX_1024_1518 : Nat := 33
def RX_1519_MAX : Nat := 34
def PARSE_NO_PROFILE : Nat := 35
def PARSE_SHORT : Nat := 36
def PARSE_DEF_DROP : Nat := 37
def GRAZE_PARTIAL : Nat := 38
def VERDICT_MISS_DROP : Nat := 39
def GRAZE_DROP : Nat := 40
def L3_CSUM_ERR : Nat := 41
def VERDICT_NO_FWD : Nat := 42
def VERDICT_DROP : Nat := 43
def FWD_BAD_TARGET : Nat := 44
def METER_DROP : Nat := 45
def EDIT_ERR : Nat := 46
def LOOP_LIMIT : Nat := 47
def SAMPLE_DROP : Nat := 48
def ADMIT_NO_RECORD : Nat := 49
def ADMIT_LANDING : Nat := 50
def TX_REJECT : Nat := 51
def TX_OK : Nat := 52
def TX_LINK_ABORT : Nat := 53
def TX_OVERSIZE : Nat := 54
def TX_UNDERRUN : Nat := 55
def TX_STOMPED : Nat := 56
def TX_MTU_DROP : Nat := 57
def TX_PAD : Nat := 58
def TX_PAUSE : Nat := 59
def TX_PFC : Nat := 60
def TX_BYTES : Nat := 61
def TX_UCAST : Nat := 62
def TX_MCAST : Nat := 63
def TX_BCAST : Nat := 64
def TX_64 : Nat := 65
def TX_65_127 : Nat := 66
def TX_128_255 : Nat := 67
def TX_256_511 : Nat := 68
def TX_512_1023 : Nat := 69
def TX_1024_1518 : Nat := 70
def TX_1519_MAX : Nat := 71
def MM_VERIFY_TX : Nat := 72
def MM_RESPOND_TX : Nat := 73
def MM_VERIFY_FAIL : Nat := 74
def MM_PREEMPT : Nat := 75
def MM_FRAG_TX : Nat := 76
def TS_SKIP : Nat := 77
def TS_ONE_STEP : Nat := 78
def TS_TWO_STEP : Nat := 79
def TTL_EXPIRED : Nat := 80
def LOFT_SINK : Nat := 81
def Q_DROP_FLUSH : Nat := 82
def Q_DROP_THRESH : Nat := 83
def Q_DROP_RED : Nat := 84
def MC_COPY_DROP : Nat := 85
def ECN_MARKED : Nat := 86
def BAD_DISCARD : Nat := 87
def LT_FAR : Nat := 88
def LT_LATE : Nat := 89
def LT_DROP : Nat := 90
def RXQ_NONE : Nat := 91
def RXQ_DROP_STATE : Nat := 92
def RXQ_DROP_STALL : Nat := 93
def RXQ_DROP_LIMIT : Nat := 94
def RXQ_FLUSH : Nat := 95

end Sys2Proof.Machine.T
end

