-- ==== Sys2Proof/Machine/Ops.lean ====
section
/-! DEFINITION. The named operations the units share: registers of the two macros, ports and their geometry,
memories, tallies, frames and copies. -/

namespace Sys2Proof.Machine

/-- The outcome of a step of this block. -/
abbrev Out := Host.Outcome State Fault Refusal

/-! ## State updates -/

/-- Applies f to the datapath. -/
def State.onDp (s : State) (f : Datapath → Datapath) : State := { s with dp := f s.dp }

/-- Applies f to the shepherd. -/
def State.onSh (s : State) (f : Shepherd → Shepherd) : State := { s with sh := f s.sh }

/-- A field of a datapath register. -/
def Datapath.rd (d : Datapath) (f : RegField) (i : Nat := 0) (j : Nat := 0) : Nat := RegFile.rd d.regs f i j

/-- The datapath with a register field set by the hardware. -/
def Datapath.wr (d : Datapath) (f : RegField) (v : Nat) (i : Nat := 0) (j : Nat := 0) : Datapath :=
  { d with regs := RegFile.wr d.regs f i j v }

/-- A register field as a flag. -/
def Datapath.flag (d : Datapath) (f : RegField) (i : Nat := 0) (j : Nat := 0) : Bool := d.rd f i j ≠ 0

/-- Bit n of a register field. -/
def Datapath.rdBit (d : Datapath) (f : RegField) (n : Nat) (i : Nat := 0) (j : Nat := 0) : Bool :=
  (d.rd f i j).testBit n

/-- Sets or clears bit n of a register field. -/
def Datapath.wrBit (d : Datapath) (f : RegField) (n : Nat) (b : Bool) (i : Nat := 0) (j : Nat := 0) : Datapath :=
  d.wr f (setBit (d.rd f i j) n b) i j

/-- Adds n to a counter field that stops at its highest value. -/
def Datapath.count (d : Datapath) (f : RegField) (n : Nat := 1) (i : Nat := 0) (j : Nat := 0) : Datapath :=
  d.wr f (min (d.rd f i j + n) (2 ^ (f.hi + 1 - f.lo) - 1)) i j

/-- A field of an SHP, PWR or FLD register kept in the shepherd's register file. -/
def Shepherd.rd (h : Shepherd) (f : RegField) (i : Nat := 0) : Nat := RegFile.rd h.regs f i 0

/-- The shepherd with a register field set by the hardware. -/
def Shepherd.wr (h : Shepherd) (f : RegField) (v : Nat) (i : Nat := 0) : Shepherd :=
  { h with regs := RegFile.wr h.regs f i 0 v }

/-- A register field of the shepherd as a flag. -/
def Shepherd.flag (h : Shepherd) (f : RegField) (i : Nat := 0) : Bool := h.rd f i ≠ 0

/-! ## The shepherd's ports, views, domains and clocks -/

/-- The register port of a master. -/
def Shepherd.port (h : Shepherd) : RPort → RegPort
  | .a => h.portA
  | .b => h.portB

/-- Replaces a register port. -/
def Shepherd.setPort (h : Shepherd) (m : RPort) (p : RegPort) : Shepherd :=
  match m with
  | .a => { h with portA := p }
  | .b => { h with portB := p }

/-- The view of a port (R91). -/
def Shepherd.view (h : Shepherd) : RPort → View
  | .a => h.viewA
  | .b => h.viewB

/-- Replaces the view of a port. -/
def Shepherd.setView (h : Shepherd) (m : RPort) (v : View) : Shepherd :=
  match m with
  | .a => { h with viewA := v }
  | .b => { h with viewB := v }

/-- The mailbox a port sends in (R108). -/
def Shepherd.mboxOut (h : Shepherd) : RPort → Mailbox
  | .a => h.mboxAB
  | .b => h.mboxBA

/-- Replaces the mailbox a port sends in. -/
def Shepherd.setMboxOut (h : Shepherd) (m : RPort) (b : Mailbox) : Shepherd :=
  match m with
  | .a => { h with mboxAB := b }
  | .b => { h with mboxBA := b }

/-- The link slot of a MASTER value. -/
def Link.slot (l : Link) : RPort → LinkSlot
  | .a => l.slotA
  | .b => l.slotB

/-- Replaces a link slot. -/
def Link.setSlot (l : Link) (m : RPort) (x : LinkSlot) : Link :=
  match m with
  | .a => { l with slotA := x }
  | .b => { l with slotB := x }

/-- The handshake signals of a power domain. -/
def Shepherd.dom (h : Shepherd) (d : Nat) : DomPins := h.doms.getD d {}

/-- Replaces the handshake signals of a domain. -/
def Shepherd.setDom (h : Shepherd) (d : Nat) (p : DomPins) : Shepherd :=
  { h with doms := modAt (fun _ => p) h.doms d }

/-- A clock request pair: 0 core, 1 srp, 2 shf, 3 lane (R33). -/
def Shepherd.clk (h : Shepherd) (x : Nat) : ClkPins := h.clks.getD x {}

/-- Replaces a clock request pair. -/
def Shepherd.setClk (h : Shepherd) (x : Nat) (p : ClkPins) : Shepherd :=
  { h with clks := modAt (fun _ => p) h.clks x }

/-- Whether a domain counts as on for register accesses: its isolation is low (R89). PD0 is always on. -/
def Shepherd.domOn (h : Shepherd) (d : Nat) : Bool := d = 0 || !(h.dom d).iso

/-- Whether an access to an address crosses to an awake unit: its domain is on, and in DOZE only TIM answers
(R17, R89, R598). -/
def Shepherd.awake (h : Shepherd) (a : Nat) : Bool :=
  let d := domainOf a
  d = 0 || (h.domOn d && (h.seq.state ≠ .doze || unitOf a = .tim))

/-- Whether a unit's E fields are unlocked (R13). -/
def Shepherd.unlocked (h : Shepherd) (a : Nat) : Bool := h.expert.testBit (unitOf a).expertBit

/-- Whether a re-fold holds a pen's parse (R150, R151). -/
def State.penHeld (s : State) (pen : Nat) : Bool :=
  s.sh.fld.held.contains pen || ((s.sh.fld.state = .hold || s.sh.fld.state = .refold) && s.sh.fld.pen = pen)

/-- Whether the block forwards: an image is in force, which it is from the end of its APPLY (R146, R147). -/
def State.forwards (s : State) : Bool := s.sh.fld.state ≠ .apply && s.sh.flag F.fldStat_IN_FORCE

/-- Whether intake is stopped: from QUIESCE until the entry or clock change ends, and in the states that hold
the core clock or the pens back (R233, R597, R602, R612). -/
def State.quiet (s : State) : Bool :=
  (match s.sh.seq.kind with
   | .quiesce => true
   | .entry => true
   | .cruise => true
   | _ => false) ||
  (match s.sh.seq.state with
   | .run => false
   | .trim => false
   | _ => true)

/-! ## Events of one clock -/

/-- Whether an event meets, in its own clock, what a command before it did. Log entry 84. -/
def Datapath.meets (d : Datapath) (k : Meeting) (n : Nat) : Bool := d.together.contains (k, n)

/-- Notes for the rest of the clock that something has happened which an event of the same clock meets. -/
def Datapath.meet (d : Datapath) (k : Meeting) (n : Nat) : Datapath := { d with together := (k, n) :: d.together }

/-- The clock ends. -/
def Datapath.clockEnds (d : Datapath) : Datapath := { d with together := [] }

/-- What is noted of an event is no longer of the present clock. -/
def Datapath.unmeet (d : Datapath) (k : Meeting) (n : Nat) : Datapath := { d with together := d.together.filter (· ≠ (k, n)) }

/-! ## Memories -/

/-- A byte of a memory part of which may be undefined: a byte never written since its content was lost is a
free value. -/
def URam.read (m : URam) (a : Nat) : Byte :=
  match Tab.find m.cells a with
  | some b => b
  | none =>
    match m.undef.find? (fun r => r.1 ≤ a && a < r.2.1) with
    | some r => Config.freeByte r.2.2 a
    | none => 0

/-- Writes a byte. A byte outside every undefined range that takes 0 needs no entry. -/
def URam.write (m : URam) (a : Nat) (b : Byte) : URam :=
  { m with cells := if b = 0 && !(m.undef.any (fun r => r.1 ≤ a && a < r.2.1)) then Tab.erase m.cells a
                    else Tab.set m.cells a b }

/-- Writes bytes from an address on. -/
def URam.writes (m : URam) (a : Nat) : List Byte → URam
  | [] => m
  | b :: bs => URam.writes (m.write a b) (a + 1) bs

/-- n bytes from an address. -/
def URam.reads (m : URam) (a n : Nat) : List Byte := (List.range n).map (fun k => m.read (a + k))

/-- The content of bytes lo to hi - 1 is lost: each becomes a free value of its own. -/
def URam.lose (m : URam) (lo hi seed : Nat) : URam :=
  { cells := Tab.drop m.cells (fun k => lo ≤ k && k < hi), undef := (lo, hi, seed) :: m.undef }

/-- n bytes of a byte table from an address. -/
def memReads (t : Tab Byte) (a n : Nat) : List Byte := (List.range n).map (fun k => Tab.get t (a + k) 0)

/-- Writes bytes into a byte table whose unlisted bytes are 0. -/
def memWrites (t : Tab Byte) (a : Nat) : List Byte → Tab Byte
  | [] => t
  | b :: bs => memWrites (Tab.put t a b 0) (a + 1) bs

/-! ## Ports -/

/-- The pen of a port (spec/00, Numbering): line port s lies in pen s / 16, ports 512 to 517 are client pens,
518 and 519 loop pens. -/
def penOf (p : Nat) : Nat := if p < 512 then p / 16 else p - 480

/-- The index a port has in its pen: its first local slot, 0 on client and loop pens. -/
def slotOf (p : Nat) : Nat := if p < 512 then p % 16 else 0

/-- Whether a port is a line port. -/
def isLine (p : Nat) : Bool := p < 512

/-- Whether a port is a client port. -/
def isClient (p : Nat) : Bool := 512 ≤ p && p < 518

/-- Whether a port is a loop port. -/
def isLoop (p : Nat) : Bool := p = 518 || p = 519

/-- The port of a client or loop pen. -/
def portOfPen (pen : Nat) : Nat := pen + 480

/-- The LANE_CARVE byte of a lane slot (R128). -/
def Datapath.carveByte (d : Datapath) (slot : Nat) : Nat := Tab.get d.carve slot 0

/-- Whether a lane slot belongs to a port (R128, R76). -/
def Datapath.slotUsed (d : Datapath) (slot : Nat) : Bool := (d.carveByte slot).testBit 7

/-- The width in lanes of the port a slot belongs to (R128). -/
def Datapath.width (d : Datapath) (slot : Nat) : Nat := 2 ^ fieldOf (d.carveByte slot) 6 5

/-- The RATE code of a slot (R128). -/
def Datapath.rate (d : Datapath) (slot : Nat) : Nat := fieldOf (d.carveByte slot) 4 2

/-- Whether line port p is carved: slot p is the first slot of a port (R129). -/
def Datapath.carved (d : Datapath) (p : Nat) : Bool := p < 512 && d.slotUsed p && (p % 16) % d.width p = 0

/-- The first slot of the port that a lane slot belongs to. -/
def Datapath.portOfSlot (d : Datapath) (slot : Nat) : Nat := slot - slot % d.width slot

/-- The MAC speed in Gbit/s of a width and RATE, 0 where R170 has no row. -/
def macSpeed (width rate : Nat) : Nat :=
  match width, rate with
  | 1, 0 => 10 | 1, 1 => 25 | 1, 2 => 50 | 1, 3 => 100 | 1, 4 => 200
  | 2, 2 => 100 | 2, 3 => 200 | 2, 4 => 400
  | 4, 1 => 100 | 4, 2 => 200 | 4, 3 => 400 | 4, 4 => 800
  | 8, 2 => 400 | 8, 3 => 800 | 8, 4 => 1600
  | _, _ => 0

/-- The FEC codes that R170 allows a port type. -/
def fecAllowed (width rate fec : Nat) : Bool :=
  match width, rate with
  | 1, 0 => fec = 0
  | 1, 1 => fec ≤ 2
  | 4, 1 => fec = 0 || fec = 2
  | w, r => macSpeed w r ≠ 0 && fec = 3

/-- The low-power idle kinds of R170. -/
inductive LpiKind where
  | none | deepSleep | fastWake
  deriving DecidableEq, Repr

/-- The low-power idle kind of a port type (R170). -/
def lpiKind (width rate : Nat) : LpiKind :=
  match width, rate with
  | 1, 0 => .deepSleep
  | 1, 1 => .deepSleep
  | w, r => if macSpeed w r = 0 || 800 ≤ macSpeed w r then .none else .fastWake

/-- The PORT_MODE record of a port, 16 bytes of 0 where it has none (R130). -/
def Datapath.pmode (d : Datapath) (p : Nat) : List Byte := Tab.get d.portMode p (List.replicate 16 0)

/-- Whether a port has a PORT_MODE record, which enables it (R130). -/
def Datapath.enabled (d : Datapath) (p : Nat) : Bool :=
  (Tab.find d.portMode p).isSome && (p ≥ 512 || d.carved p)

/-- PORT_MODE.MAX_LEN (R130). -/
def Datapath.pmMaxLen (d : Datapath) (p : Nat) : Nat := le (d.pmode p) 2 2
/-- PORT_MODE.EXPRESS_TC (R130). -/
def Datapath.pmExpressTc (d : Datapath) (p : Nat) : Nat := le (d.pmode p) 5 1
/-- PORT_MODE.PFC_TC (R130). -/
def Datapath.pmPfcTc (d : Datapath) (p : Nat) : Nat := le (d.pmode p) 6 1
/-- PORT_MODE.PREEMPT_TC (R130). -/
def Datapath.pmPreemptTc (d : Datapath) (p : Nat) : Nat := le (d.pmode p) 7 1
/-- PORT_MODE.GATED (R130). -/
def Datapath.pmGated (d : Datapath) (p : Nat) : Bool := bit (le (d.pmode p) 8 1) 7
/-- PORT_MODE.LPI_EN (R130). -/
def Datapath.pmLpiEn (d : Datapath) (p : Nat) : Bool := bit (le (d.pmode p) 8 1) 3
/-- PORT_MODE.TB (R130). -/
def Datapath.pmTb (d : Datapath) (p : Nat) : Nat := fieldOf (le (d.pmode p) 8 1) 2 0
/-- PORT_MODE.CAP, 0 meaning 32 (R130). -/
def Datapath.pmCap (d : Datapath) (p : Nat) : Nat := let c := le (d.pmode p) 9 1; if c = 0 then 32 else c
/-- PORT_MODE.LATE_LIMIT (R130). -/
def Datapath.pmLateLimit (d : Datapath) (p : Nat) : Nat := le (d.pmode p) 10 2

/-- The rate of a port in Gbit/s: its MAC speed, or CAP x 100 (R132, R356). -/
def Datapath.speed (d : Datapath) (p : Nat) : Nat :=
  if p < 512 then macSpeed (d.width p) (d.rate p) else d.pmCap p * 100

/-- The largest effective MAX_LEN of a line port: 1,526 when MAX_LEN is 0 (R202, R215). -/
def Datapath.maxLenLimit (d : Datapath) (p : Nat) : Nat := if d.pmMaxLen p = 0 then 1526 else d.pmMaxLen p

/-- Whether a per-port register position of a pen exists: the first slot of a carved port on a line pen, index 0
on a client or loop pen (R174, R238, R572). -/
def Datapath.portIndex (d : Datapath) (pen i : Nat) : Bool :=
  if pen < 32 then d.carved (16 * pen + i) else i = 0

/-- The port at index i of a pen. -/
def portAt (pen i : Nat) : Nat := if pen < 32 then 16 * pen + i else pen + 480

/-- The ports of a pen that are enabled, ascending. -/
def Datapath.portsOf (d : Datapath) (pen : Nat) : List Nat :=
  if pen < 32 then (List.range 16).filterMap (fun i => if d.enabled (16 * pen + i) then some (16 * pen + i) else none)
  else if d.enabled (pen + 480) then [pen + 480] else []

/-- Link states of R177. -/
def LS.disabled : Nat := 0
def LS.noSignal : Nat := 1
def LS.locking : Nat := 2
def LS.aligning : Nat := 3
def LS.upHold : Nat := 4
def LS.up : Nat := 5
def LS.remoteFault : Nat := 6

/-- The link state of a line port. -/
def Datapath.linkState (d : Datapath) (p : Nat) : Nat := d.rd F.penLinkStat_STATE (p / 16) (p % 16)

/-- The loopback mode in effect on a line port: 3 acts as 0 (R176, R192). -/
def Datapath.loopMode (d : Datapath) (p : Nat) : Nat :=
  let m := d.rd F.penLinkCtl_LOOP (p / 16) (p % 16)
  if m = 3 then 0 else m

/-- Whether a port can send: a line port that is UP and not in far-end loopback, or an enabled client or loop port
(R192, R336, R367). -/
def Datapath.sendable (d : Datapath) (p : Nat) : Bool :=
  d.enabled p && (p ≥ 512 || (d.linkState p = LS.up && d.loopMode p ≠ 2))

/-- HOLDOVER of a base (R485). -/
def Datapath.holdover (d : Datapath) (b : Nat) : Bool := d.flag F.timStat_HOLDOVER b

/-! ## Tallies -/

/-- What one event adds to a tally of a port: nothing on a line port in far-end loopback, where no tally counts (R192). -/
def Datapath.tallyStep (d : Datapath) (p : Nat) : Nat := if p < 512 && d.loopMode p = 2 then 0 else 1

/-- Whether a tally of a port has set its bit of a kind in the present clock, as far as that may last. -/
def Datapath.evtNoted (d : Datapath) (p kind : Nat) : Bool :=
  d.together.any (fun e => e.1 = .tallyEvt && e.2 / 256 = p && e.2 % 2 = kind)

/-- The field of PEN_TALLY_EVT of an event kind: 0 half range, 1 wrap. -/
def evtField (kind : Nat) : RegField := if kind = 0 then F.penTallyEvt_HALF else F.penTallyEvt_WRAP

/-- Sets a bit of PEN_TALLY_EVT for tally m (128 * port + n): the half-range bit of its port (kind 0) or its wrap bit (kind
1). A bit that increments of this clock alone have set is noted for the rest of the clock: a write that displaces them takes
it back (R576 to R578; log entry 84). -/
def Datapath.tallyEvt (d : Datapath) (m kind : Nat) : Datapath :=
  let d' := d.wrBit (evtField kind) (slotOf (m / 128)) true (penOf (m / 128))
  if (d.rd (evtField kind) (penOf (m / 128))).testBit (slotOf (m / 128)) && !d.evtNoted (m / 128) kind then d'
  else d'.meet .tallyEvt (2 * m + kind)

/-- Adds n to tally k of a port: a 56-bit count with half-range and wrap events (R192, R570, R577, R578). -/
def Datapath.tallyAdd (d : Datapath) (p k : Nat) (n : Nat := 1) : Datapath :=
  let m := 128 * p + k
  let v := Tab.get d.tally m 0
  let w := v + n * d.tallyStep p
  let d := { d with tally := Tab.put d.tally m (w % 2 ^ 56) 0 }
  let d := if !v.testBit 55 && (w % 2 ^ 56).testBit 55 then d.tallyEvt m 0 else d
  if w ≥ 2 ^ 56 then { d with tallyWrap := Tab.put d.tallyWrap m true false }.tallyEvt m 1 else d

/-- The size tally of a length, from the first of its seven (R571). -/
def sizeTally (first lt : Nat) : Nat :=
  first + (if lt ≤ 64 then 0 else if lt ≤ 127 then 1 else if lt ≤ 255 then 2 else if lt ≤ 511 then 3
           else if lt ≤ 1023 then 4 else if lt ≤ 1518 then 5 else 6)

/-- The cast tally of a destination address, from the unicast tally on: 0 unicast, 1 group, 2 broadcast (R571). -/
def castOf (bytes : List Byte) : Nat :=
  let da := slice bytes 0 6
  if da.all (fun b => b = 0xFF) then 2 else if (byteAt da 0).getLsbD 0 then 1 else 0

/-- The byte, cast and size tallies of a receive event of length lt (R571). -/
def Datapath.tallyRx (d : Datapath) (p lt : Nat) (bytes : List Byte) : Datapath :=
  ((d.tallyAdd p T.RX_BYTES lt).tallyAdd p (T.RX_UCAST + castOf bytes)).tallyAdd p (sizeTally T.RX_64 lt)

/-- The byte, cast and size tallies of a transmit event of length lt (R571). -/
def Datapath.tallyTx (d : Datapath) (p lt : Nat) (bytes : List Byte) : Datapath :=
  ((d.tallyAdd p T.TX_BYTES lt).tallyAdd p (T.TX_UCAST + castOf bytes)).tallyAdd p (sizeTally T.TX_64 lt)

/-- The tallies of a pass started on a loop port (R571). -/
def Datapath.tallyLoopPass (d : Datapath) (x : Frame) : Datapath :=
  (d.tallyAdd x.info.port T.RX_OK).tallyRx x.info.port (x.bytes.length + 4) x.bytes

/-! ## Frames, copies and passes -/

/-- A frame by its number. -/
def Datapath.frame (d : Datapath) (f : Nat) : Option Frame := Tab.find d.frames f

/-- Replaces a frame. -/
def Datapath.setFrame (d : Datapath) (f : Nat) (x : Frame) : Datapath := { d with frames := Tab.set d.frames f x }

/-- Applies g to a frame, if it exists. -/
def Datapath.modFrame (d : Datapath) (f : Nat) (g : Frame → Frame) : Datapath :=
  match d.frame f with
  | some x => d.setFrame f (g x)
  | none => d

/-- Adds a new frame under the next number. -/
def Datapath.newFrame (d : Datapath) (x : Frame) : Datapath × Nat :=
  ({ d with frames := Tab.set d.frames d.nextFrame x, nextFrame := d.nextFrame + 1 }, d.nextFrame)

/-- A copy by its number. -/
def Datapath.copy (d : Datapath) (c : Nat) : Option Copy := Tab.find d.copies c

/-- Replaces a copy. -/
def Datapath.setCopy (d : Datapath) (c : Nat) (x : Copy) : Datapath := { d with copies := Tab.set d.copies c x }

/-- Applies g to a copy, if it exists. -/
def Datapath.modCopy (d : Datapath) (c : Nat) (g : Copy → Copy) : Datapath :=
  match d.copy c with
  | some x => d.setCopy c (g x)
  | none => d

/-- The port of a class queue. -/
def portOfQ (q : Nat) : Nat := q / 8

/-- The class of a class queue. -/
def tcOfQ (q : Nat) : Nat := q % 8

/-- The passes of a pen between parse start and verdict, oldest first. -/
def Datapath.passesOf (d : Datapath) (pen : Nat) : List Pass := Tab.get d.passes pen []

/-- Replaces the passes of a pen. -/
def Datapath.setPasses (d : Datapath) (pen : Nat) (ps : List Pass) : Datapath :=
  { d with passes := Tab.put d.passes pen ps [] }

/-- The ready frames of a pen, earliest first (R214, R234). -/
def Datapath.readyOf (d : Datapath) (pen : Nat) : List Nat := Tab.get d.ready pen []

/-- Replaces the ready frames of a pen. -/
def Datapath.setReady (d : Datapath) (pen : Nat) (l : List Nat) : Datapath :=
  { d with ready := Tab.put d.ready pen l [] }

/-- What orders the frames that become ready on a pen in one clock: on a line pen the first slot, and in a port express before
preemptable (R214); on a client pen the transmit queue, on a loop pen the input pen (R234). -/
def Frame.readyKey (x : Frame) : Nat :=
  if x.inPen < 32 then 2 * slotOf x.port + b2n x.preempted
  else if x.inPen < 38 then (x.tx.map (fun t => t.txq)).getD 0
  else x.pen

/-- The ready frames of a pen with one more, which goes before those of its own clock that the order of that clock puts behind
it. -/
def Datapath.readyWith (d : Datapath) (f : Nat) (x : Frame) : List Nat :=
  let l := d.readyOf x.inPen
  let later (g : Nat) : Bool := d.meets .ready g && (match d.frame g with
    | some y => x.readyKey < y.readyKey
    | none => false)
  let n := l.length - (l.reverse.takeWhile later).length
  l.take n ++ f :: l.drop n

/-- A frame becomes ready on its input pen, behind the frames ready before it, and in the order of R214 and R234 among those of
its clock: whether the frames ready since the last tick share it is free (log entry 84). -/
def Datapath.makeReady (d : Datapath) (f : Nat) : Datapath :=
  match d.frame f with
  | some x =>
    if x.ready then d
    else
      let l := d.readyOf x.inPen
      let now := !(l.filter (fun g => d.meets .ready g)).isEmpty && Config.sameClock 3 f
      let d := if now then d.setReady x.inPen (d.readyWith f x)
               else { d.setReady x.inPen (l ++ [f]) with
                 together := d.together.filter (fun e => !(e.1 = .ready && l.contains e.2)) }
      (d.setFrame f { x with ready := true }).meet .ready f
  | none => d

/-- Whether every lookup of a pass has its result. -/
def Pass.lookupsDone (p : Pass) : Bool :=
  p.lookups.all (fun l => match l.st with
    | .done _ _ => true
    | _ => false)

/-- The bytes that a pass sees of its frame: its head window as its slot start found it, which of a line frame that ended later may
hold FCS bytes (R237), and the frame's bytes behind it. -/
def passBytes (x : Frame) (p : Pass) : List Byte := if x.bytes.length < p.head.length then p.head else x.bytes

/-- The bytes of a window that have arrived, and whether they are all of it (R257): the window is clipped at the data end once that
is known. Of a line frame that had not ended at its slot start, the head window lies within the frame as the slot found it (R237).
DESIGN CHOICE beyond the head window, for which R237 gives no E: the bytes that have arrived, and after the frame's end its data
(log entry 95). -/
def windowBytes (x : Frame) (p : Pass) (w : Window) : List Byte × Bool :=
  let lim := match p.dataEnd with
    | some e => (passBytes x p).take e
    | none => passBytes x p
  let b := (lim.drop w.start).take w.len
  (b, x.ended || b.length = w.len || (match p.dataEnd with
    | some e => decide (b.length = e - w.start)
    | none => false))

/-- Whether a pass can merge: its lookups have results, and the bytes of its graze window have arrived (R262, R275). -/
def Datapath.mergeReady (p : Pass) (x : Frame) : Bool :=
  p.lookupsDone &&
  (match p.window with
   | some w => w.closed || (windowBytes x p w).2
   | none => true)

/-- The copies of a frame. -/
def Datapath.copiesOf (d : Datapath) (f : Nat) : List (Nat × Copy) := d.copies.filter (fun c => c.2.fid = f)

/-- Removes the bytes of a strip from frame bytes (R318). -/
def stripBytes (r : Option (Nat × Nat)) (bytes : List Byte) : List Byte :=
  match r with
  | some (s, n) => bytes.take s ++ bytes.drop (s + n)
  | none => bytes

/-- Sectors of a frame of n bytes (R19). -/
def sectorsOf (n : Nat) : Nat := ceilDiv n 32

end Sys2Proof.Machine
end

