-- ==== Sys2Proof/Machine/Access.lean ====
section
/-! DEFINITION. How a register access that reaches a register completes: the effect of an access row of the
command table, and the answer to the port whose outstanding access it is (R44 to R47, R56). -/

namespace Sys2Proof.Machine

/-- Answers the outstanding access of a port (R45, R46). -/
def State.respond (s : State) (m : RPort) (code : RspCode) (rdata : Word) : State :=
  s.onSh (fun h => h.setPort m { h.port m with acc := none, rsp := some { code := code, rdata := rdata } })

/-- Whether the outstanding access of a port is the named one. -/
def OutAccess.is (x : OutAccess) (write : Bool) (addr : Nat) : Bool := x.write = write && x.addr = addr

/-- Ends a port's arm: every access of the port ends it (R99). -/
def State.disarm (s : State) (m : RPort) : State :=
  s.onSh (fun h => h.setView m { h.view m with armed := false })

/-- An access to a register has taken effect. A port's outstanding access to that register is thereby answered
where it stands at the shepherd's core, or, where it crossed the link, its result is kept at the datapath end for
LINK_RESPONSE. An access for which the port holds no matching one ends the port's arm like any other. -/
def State.performed (s : State) (src : Src) (addr : Nat) (write : Bool) (rdata : Word) : State :=
  match src with
  | .hdma | .apply => s
  | .port m =>
    match (s.sh.port m).acc with
    | some x =>
      if x.is write addr then
        match x.stage with
        | .atCore => s.respond m .ok rdata
        | .waitLink => s
        | .inFlight =>
          s.onSh (fun h =>
            let sl := h.link.slot m
            match sl.dp with
            | some r =>
              if !r.req.loader && r.done.isNone then
                { h with link := h.link.setSlot m { sl with dp := some { r with done := some rdata } } }
              else h
            | none => h)
      else s.disarm m
    | none => s.disarm m

/-- Whether port m accepts accesses: its reset is high (R114), clk_shf runs (R86, R155), no block reset holds. -/
def State.portOpen (s : State) (m : RPort) : Bool := (s.sh.port m).rstN && (s.sh.clk 2).ack && s.sh.blkN

/-- Whether an address is that of a mirrored FLD register: the shepherd holds its value (R133). -/
def mirroredFld (addr : Nat) : Bool :=
  unitOf addr = .fld && (match Reg.ofAddr addr with
    | some (.fldStage, _, _) => false
    | some (.fldApply, _, _) => false
    | some _ => true
    | none => false)

/-- Whether the outstanding access of port m stands where its effect is due: at the core, or performed neither at the
datapath end nor, for a write of a mirrored register, as its request was formed (R133). -/
def State.effectDue (s : State) (m : RPort) (x : OutAccess) : Bool :=
  match x.stage with
  | .atCore => true
  | .waitLink => false
  | .inFlight =>
    match (s.sh.link.slot m).dp with
    | some r => !r.req.loader && r.done.isNone && !(x.write && mirroredFld x.addr)
    | none => false

/-! ## What the housekeeping DMA may reach (R550) -/

/-- The intervals of register addresses that the engine may reach: FLD_STAGE_w and the units TIM, CVU, PMN, FLK, LAR, ACT,
CEL, DRV, TRG, STP, PEN (R550, R16). -/
def hdmUnits : List (Nat × Nat) :=
  [(0x28000, 0x50000), (0x60000, 0x80000), (0x100000, 0x380000), (0x400000, 0xC00000),
   (0x1000000, 0x2010000)]

/-- The mirrored registers that the engine may not reach (R550). -/
def hdmExcluded : List Nat :=
  [Reg.larLive.addr 0 0, Reg.timAonTol.addr 0 0] ++ (List.range 64).map (fun n => Reg.larCseed.addr n 0)

/-- Whether a register range of n bytes lies in the allowed set (R550). -/
def hdmRangeOk (r n : Nat) : Bool :=
  hdmUnits.any (fun u => u.1 ≤ r && r + n ≤ u.2) && hdmExcluded.all (fun x => x + 4 ≤ r || r + n ≤ x)

/-! ## Rows that are accesses -/

/-- Whether a row of the command table is an access of a source that takes effect now: a port's row while the port is
open and, where the port's outstanding access is the same access, its effect is due; the housekeeping DMA's while it may reach the
register (R550). Log entry 15. -/
def State.rowDue (s : State) (src : Src) (addr : Nat) (write : Bool) : Bool :=
  match src with
  | .hdma => hdmRangeOk addr 4
  | .apply => true
  | .port m => s.portOpen m && (match (s.sh.port m).acc with
    | some x => !x.is write addr || s.effectDue m x
    | none => true)

/-- Whether a row's access reaches its register: it is due, the register's unit is awake (R17, R89, R598) and no fault of
its domain waits for the link (R90). -/
def State.reaches (s : State) (src : Src) (addr : Nat) (write : Bool) : Bool :=
  s.rowDue src addr write && s.sh.awake addr && !s.sh.seq.lost.contains (domainOf addr)

/-- A row's access that does not reach its register: where a port makes it, it is answered OFF, and ends the port's
arm all the same (R99). -/
def State.turnedOff (s : State) (src : Src) : State :=
  match src with
  | .port m => if s.portOpen m then s.disarm m else s
  | _ => s

/-- A register write of a row of the command table. -/
def State.regWrite (s : State) (src : Src) (addr : Nat) (f : State → State) : State :=
  if s.reaches src addr true then (f s).performed src addr true 0 else s.turnedOff src

/-- A register read of a row of the command table: its effect and the word it returns. -/
def State.regRead (s : State) (src : Src) (addr : Nat) (f : State → State × Word) : State :=
  if s.reaches src addr false then
    let r := f s
    r.1.performed src addr false r.2
  else s.turnedOff src

/-- Whether a source may write E fields of the unit that holds an address: a port while the unit is unlocked
(R13, R98), the apply engine always (R15), the HDMA never unless the unit is unlocked. -/
def State.mayWriteE (s : State) (src : Src) (addr : Nat) : Bool :=
  match src with
  | .apply => true
  | _ => s.sh.unlocked addr

/-- A datapath register takes a write by the access codes of its fields (R7). -/
def Datapath.writeReg (d : Datapath) (r : Reg) (unl : Bool) (be : BitVec 4) (data : Word) (i : Nat := 0)
    (j : Nat := 0) : Datapath :=
  { d with regs := RegFile.setWord d.regs r i j (r.writeWord unl be data (RegFile.word d.regs r i j)) }

/-- A shepherd register takes a write by the access codes of its fields (R7). -/
def Shepherd.writeReg (h : Shepherd) (r : Reg) (unl : Bool) (be : BitVec 4) (data : Word) (i : Nat := 0) :
    Shepherd :=
  { h with regs := RegFile.setWord h.regs r i 0 (r.writeWord unl be data (RegFile.word h.regs r i 0)) }

/-- A datapath register write by access codes, with the E fields as the source may write them. -/
def State.plainWrite (s : State) (src : Src) (r : Reg) (i j : Nat) (be : BitVec 4) (data : Word) : State :=
  s.onDp (fun d => d.writeReg r (s.mayWriteE src (r.addr i j)) be data i j)

/-- The word of a datapath register as its register file holds it, read by access codes. -/
def Datapath.word (d : Datapath) (r : Reg) (i : Nat := 0) (j : Nat := 0) : Word :=
  r.readWord (RegFile.word d.regs r i j)

end Sys2Proof.Machine
end

