-- ==== Sys2Proof/Machine/Pmn.lean ====
section
/-! DEFINITION. The performance monitor (spec/21): its counters, the events that reach them, the top-down account
of parse slots, its registers. Event codes are those of R584. -/

namespace Sys2Proof.Machine

/-- The shadow of a reader (R574, R591): port A, port B, the HDMA; the apply engine reads as a fourth. -/
def readerOf : Src → Nat
  | .port m => m.num
  | .hdma => 2
  | .apply => 3

/-- The word with the bytes that are enabled taken from data (R11). -/
def mergeBytes (be : BitVec 4) (data old : Word) : Word :=
  BitVec.ofNat 32 ((old.toNat &&& (0xFFFFFFFF ^^^ beMask be)) ||| (data.toNat &&& beMask be))

/-- The field of PMN_EVT of an event kind: 0 half range, 1 wrap. -/
def pmnEvtField (kind : Nat) : RegField := if kind = 0 then F.pmnEvt_HALF else F.pmnEvt_WRAP

/-- Sets the half-range (kind 0) or wrap bit (kind 1) of counter j. A bit that an increment of this clock alone has set is
noted for the rest of the clock: a write that displaces the increment takes it back (R592; log entry 84). -/
def Datapath.pmnSet (d : Datapath) (j kind : Nat) : Datapath :=
  let d' := d.wrBit (pmnEvtField kind) j true
  if (d.rd (pmnEvtField kind)).testBit j then d' else d'.meet .pmnEvt (2 * j + kind)

/-- Adds n to counter j (8 is the cycle counter): modulo 2^48, with half-range and wrap events (R581, R592). -/
def Datapath.pmnAdd (d : Datapath) (j n : Nat) : Datapath :=
  let v := Tab.get d.pmn.cnt j 0
  let w := v + n
  let d := { d with pmn := { d.pmn with cnt := Tab.put d.pmn.cnt j (w % 2 ^ 48) 0 } }
  let d := if !v.testBit 47 && w.testBit 47 then d.pmnSet j 0 else d
  if w ≥ 2 ^ 48 then { d with pmn := { d.pmn with wrap := Tab.put d.pmn.wrap j true false } }.pmnSet j 1 else d

/-- A write or CLEAR_ALL displaces what came of counter j in its own clock: the bit of PMN_EVT that the last increment set is
set no longer, where the two share a clock, which is a free choice (R592; log entry 84). -/
def Datapath.pmnDisplace (d : Datapath) (j : Nat) : Datapath :=
  [0, 1].foldl (fun (d : Datapath) kind =>
    if d.meets .pmnEvt (2 * j + kind) then
      let d' := { d with cel := { d.cel with draws := d.cel.draws + 1 } }.unmeet .pmnEvt (2 * j + kind)
      if Config.sameClock 7 d.cel.draws then d'.wrBit (pmnEvtField kind) j false else d'
    else d) d

/-- Whether an event's scope is a pen (R584). -/
def pmnPenEvent (e : Nat) : Bool := (0x02 ≤ e && e ≤ 0x0D) || (0x12 ≤ e && e ≤ 0x15)

/-- Whether an event's scope is a port (R584). -/
def pmnPortEvent (e : Nat) : Bool := 0x0E ≤ e && e ≤ 0x11

/-- Whether counter k counts event e at pen or port x (R585). -/
def Datapath.pmnSelects (d : Datapath) (k e x : Nat) : Bool :=
  d.flag F.pmnCtl_RUN && d.flag F.pmnCfg_EN k && d.rd F.pmnCfg_EVENT k = e && e ≠ 0 &&
    (let m := d.rd F.pmnCfg_MODE k
     let t := d.rd F.pmnCfg_TARGET k
     e = 0x01 || m = 0 || (m = 1 && pmnPenEvent e && t = x && t < 40) || (m = 2 && pmnPortEvent e && t = x && t < 520))

/-- n occurrences of event e at pen or port x reach the counters (R583). The slot events are counted without RUN
by the account of R586, which `slot` marks. -/
def Datapath.pmnEvent (d : Datapath) (e x : Nat) (n : Nat := 1) (slot : Bool := false) : Datapath :=
  if n = 0 then d
  else
    let d' := if slot then d.wr F.pmnCtl_RUN 1 else d
    loop 8 (fun k y => if d'.pmnSelects k e x then y.pmnAdd k n else y) d

/-- PMN_STAT.DRAINING: the outcome of a counted slot is outstanding (R586). -/
def Datapath.pmnDraining (d : Datapath) : Bool := d.passes.any (fun e => e.2.any (fun p => p.acct))

/-- The word of PMN_STAT (R590). -/
def Datapath.pmnStatWord (d : Datapath) : Word := BitVec.ofNat 32 (b2n d.pmnDraining * 2 ^ 31)

/-- The outcome of a slot that started a pass while the account ran (R586). -/
def Datapath.pmnOutcome (d : Datapath) (pen : Nat) (acct retired : Bool) : Datapath :=
  if acct then d.pmnEvent (if retired then 0x02 else 0x03) pen 1 true else d

/-- Whether a lookup of a pen has waited a clock. -/
def Datapath.lookupWaits (d : Datapath) (pen : Nat) : Bool :=
  (d.passesOf pen).any (fun p => p.lookups.any (fun l => match l.st with
    | .waiting a => a ≠ 0
    | _ => false))

/-- Whether a lookup of a pen has a read unissued. -/
def Datapath.lookupStands (d : Datapath) (pen : Nat) : Bool :=
  (d.passesOf pen).any (fun p => p.lookups.any (fun l => match l.st with
    | .waiting _ => true
    | _ => false))

/-- Whether a slot of a pen whose results are ready waits behind an earlier one that cannot merge yet (R275). -/
def Datapath.slotWaits (d : Datapath) (pen : Nat) : Bool :=
  let ready (p : Pass) : Bool := match d.frame p.fid with
    | some x => Datapath.mergeReady p x
    | none => true
  let ps := d.passesOf pen
  (List.range ps.length).any (fun k =>
    match ps[k]? with
    | some p => p.lookupsDone && (ps.take k).any (fun q => !ready q)
    | none => false)

/-- Whether the pen's parse pipeline holds: a lookup waits, or a slot waits behind an earlier one (R587). -/
def Datapath.pipeHolds (d : Datapath) (pen : Nat) : Bool := d.lookupWaits pen || d.slotWaits pen

/-- A clock of lookup grants has passed: the pens whose pipelines held in it are counted (R26, R587). -/
def Datapath.countHolds (d : Datapath) : Datapath :=
  if !d.flag F.pmnCtl_RUN then d
  else
    { d with pmn := { d.pmn with
        grants := d.pmn.grants + 1
        backs := (d.passes.map (·.1)).foldl (fun t pen => if d.pipeHolds pen then Tab.upd t pen 0 (· + 1) else t) d.pmn.backs } }

/-- The core clocks among the n since the last tick in which a pen's pipeline held: those of lookup grants as counted, the others as
it stands now (R26, R275, R587). -/
def Datapath.holdClocks (d : Datapath) (pen n : Nat) : Nat :=
  min n (Tab.get d.pmn.backs pen 0 + (if d.lookupStands pen || d.slotWaits pen then n - d.pmn.grants else 0))

/-- What the account of the present tick has gathered is gone. -/
def Datapath.pmnFresh (d : Datapath) : Datapath := { d with pmn := { d.pmn with started := [], grants := 0, backs := [] } }

/-- The cycle counter, CORE_CLOCKS and the slots that did not start, over n core clocks: both slots of a clock in which the pipeline
held are SLOT_BACK, of a pen that a re-fold holds too, the others that did not start SLOT_FRONT (R581, R586, R587). -/
def Datapath.pmnClocks (d : Datapath) (n : Nat) : Datapath :=
  if !d.flag F.pmnCtl_RUN then d.pmnFresh
  else
    let d := (d.pmnAdd 8 n).pmnEvent 0x01 0 n
    let d := loop 40 (fun pen d =>
      let st := Tab.get d.pmn.started pen 0
      let idle := 2 * n - st
      let back := min idle (2 * d.holdClocks pen n)
      let d := { d with pmn := { d.pmn with started := Tab.put d.pmn.started pen (st - 2 * n) 0 } }
      (d.pmnEvent 0x05 pen back).pmnEvent 0x04 pen (idle - back)) d
    { d with pmn := { d.pmn with grants := 0, backs := [] } }

/-- RUN falls between two ticks: the core clocks that the slots started since the last tick took, two to a clock and pen, are
counted before it does, so that the account of the period is whole (R588; log entry 73). -/
def Datapath.pmnClose (d : Datapath) : Datapath :=
  let n := (d.pmn.started.foldl (fun n e => max n e.2) 0 + 1) / 2
  (if n = 0 then d else d.pmnClocks n).pmnFresh

/-! ## Registers -/

/-- A write of PMN_CTL (R582). -/
def Datapath.writePmnCtl (d : Datapath) (be : BitVec 4) (data : Word) : Datapath :=
  let falls := d.flag F.pmnCtl_RUN && !(d.writeReg .pmnCtl false be data).flag F.pmnCtl_RUN
  let d := if falls then d.pmnClose else d
  let d :=
    if F.pmnCtl_CLEAR_ALL.wo be data = 1 then
      let d := loop 9 (fun j d => d.pmnDisplace j) d
      { d with pmn := { d.pmn with cnt := [], wrap := [] } }
    else d
  d.writeReg .pmnCtl false be data

/-- A write of PMN_CFG_k (R593). -/
def Datapath.writePmnCfg (d : Datapath) (k : Nat) (be : BitVec 4) (data : Word) : Datapath :=
  d.writeReg .pmnCfg false be data k

/-- A read of a LO register: V[31:0], and the reader's shadow takes the high part and the wrap flag (R591). -/
def Datapath.readPmnLo (d : Datapath) (rdr j : Nat) : Datapath × Word :=
  let v := Tab.get d.pmn.cnt j 0
  ({ d with pmn := { d.pmn with
      shadow := Tab.put d.pmn.shadow rdr (v / 2 ^ 32, Tab.get d.pmn.wrap j false) (0, false) } },
   BitVec.ofNat 32 v)

/-- A read of a HI register: the reader's shadow (R591). -/
def Datapath.readPmnHi (d : Datapath) (rdr : Nat) : Word :=
  let x := Tab.get d.pmn.shadow rdr (0, false)
  BitVec.ofNat 32 (x.1 + b2n x.2 <<< 31)

/-- A write of a HI register loads the writer's shadow (R591). -/
def Datapath.writePmnHi (d : Datapath) (rdr : Nat) (be : BitVec 4) (data : Word) : Datapath :=
  let x := Tab.get d.pmn.shadow rdr (0, false)
  let h := (mergeBytes be data (BitVec.ofNat 32 x.1)).toNat % 2 ^ 16
  { d with pmn := { d.pmn with shadow := Tab.put d.pmn.shadow rdr (h, x.2) (0, false) } }

/-- A write of a LO register sets the counter from the shadow and clears its wrap flag (R591, R592). -/
def Datapath.writePmnLo (d : Datapath) (rdr j : Nat) (be : BitVec 4) (data : Word) : Datapath :=
  let v := Tab.get d.pmn.cnt j 0
  let x := Tab.get d.pmn.shadow rdr (0, false)
  let lo := (mergeBytes be data (BitVec.ofNat 32 v)).toNat
  let d := d.pmnDisplace j
  { d with pmn := { d.pmn with
      cnt := Tab.put d.pmn.cnt j (x.1 * 2 ^ 32 + lo) 0, wrap := Tab.put d.pmn.wrap j false false } }

/-- The LO register of counter j. -/
def pmnLoAddr (j : Nat) : Nat := if j = 8 then Reg.pmnCycleLo.addr 0 0 else Reg.pmnCntLo.addr j 0

/-! ## Commands -/

/-- PMN_RUN: a write of PMN_CTL with RUN in its data (R582). -/
def execPmnRun (src : Src) (run : Bool) (s : State) : Out :=
  .next (s.regWrite src (Reg.pmnCtl.addr 0 0) (fun s =>
    s.onDp (fun d => d.writePmnCtl 0x8 (BitVec.ofNat 32 (b2n run <<< 31)))))

/-- CLEAR_ALL: a write of PMN_CTL with CLEAR_ALL = 1; RUN takes the value written beside it (R582). -/
def execClearAll (src : Src) (run : Bool) (s : State) : Out :=
  .next (s.regWrite src (Reg.pmnCtl.addr 0 0) (fun s =>
    s.onDp (fun d => d.writePmnCtl 0x8 (BitVec.ofNat 32 (b2n run <<< 31 + 1 <<< 30)))))

/-- PMN_LO_READ of counter j, 8 the cycle counter (R591). -/
def execPmnLoRead (src : Src) (j : Nat) (s : State) : Out :=
  .next (s.regRead src (pmnLoAddr j) (fun s =>
    let r := s.dp.readPmnLo (readerOf src) j
    ({ s with dp := r.1 }, r.2)))

/-- PMN_CONFIG_WRITE of PMN_CFG_k (R593). -/
def execPmnConfigWrite (src : Src) (k : Nat) (be : BitVec 4) (data : Word) (s : State) : Out :=
  .next (s.regWrite src (Reg.pmnCfg.addr k 0) (fun s => s.onDp (fun d => d.writePmnCfg k be data)))

end Sys2Proof.Machine
end

