-- ==== Sys2Proof/Machine/Larder.lean ====
section
/-! DEFINITION. The larder (spec/09): tables and buckets, hashing, lookups and their grants, the command engine,
the attic loader, the flip, seeds and the verdict epoch. -/

namespace Sys2Proof.Machine

/-! ## Table geometry -/

/-- The shape of a table (R266, R267). -/
structure Geom where
  kw : Nat
  rw : Nat
  bankBase : Nat
  bankLog2 : Nat
  bktBase : Nat
  bktLog2 : Nat
  attic : Bool
  seed0 : Nat
  seed1 : Nat
  deriving DecidableEq, Repr

/-- The shape that a LARDER_GEOM record gives (R266). -/
def geomOfRecord (r : List Byte) : Geom :=
  { kw := le r 2 1, rw := le r 3 1, bankBase := le r 4 1, bankLog2 := le r 5 1, bktBase := le r 6 2,
    bktLog2 := le r 8 1, attic := bit (le r 9 1) 0, seed0 := le r 12 4, seed1 := le r 16 4 }

/-- The shape of a table, if LARDER_GEOM defines it. -/
def Datapath.geom (d : Datapath) (t : Nat) : Option Geom := (Tab.find d.larderGeom t).map geomOfRecord

/-- H of R267. -/
def Geom.half (g : Geom) : Nat := 2 ^ (g.bankLog2 - 1)
/-- N of R267. -/
def Geom.rows (g : Geom) : Nat := 2 ^ g.bktLog2
/-- ES of R268. -/
def Geom.es (g : Geom) : Nat := 4 + g.kw + g.rw
/-- EPB of R268. -/
def Geom.epb (g : Geom) : Nat := 64 / g.es
/-- Whether a bank is a bank of the table (R267). -/
def Geom.hasBank (g : Geom) (b : Nat) : Bool := g.bankBase ≤ b && b < g.bankBase + 2 * g.half
/-- The physical bucket of bucket k of copy x (R271). -/
def Geom.phys (g : Geom) (x k : Nat) : Nat := g.bktBase + x * g.rows + k

/-- The seed of choice c of copy x of table t in force (R291). -/
def Datapath.seed (d : Datapath) (t x c : Nat) : Nat := Tab.get d.lar.cseed (4 * t + 2 * x + c) 0

/-- The CRC-32C of R271 with an initial value. -/
def hashWith (init : Nat) (key : List Byte) : Nat := crcRun 0x82F63B78 init key ^^^ 0xFFFFFFFF

/-- Bank and bucket of candidate c of a key in copy x (R271). -/
def Datapath.candidate (d : Datapath) (t x : Nat) (g : Geom) (key : List Byte) (c : Nat) : Nat × Nat :=
  let h := hashWith (d.seed t x c) key
  (g.bankBase + c * g.half + h % g.half, (h / 256) % g.rows)

/-- The 64 bytes of a physical bucket of a bank. -/
def Larder.bucket (l : Larder) (bank p : Nat) : List Byte := Tab.get l.buckets (1536 * bank + p) (List.replicate 64 0)

/-- Writes a bucket; the bytes past the last slot are written as 0 (R269). -/
def Larder.writeBucket (l : Larder) (g : Geom) (bank p : Nat) (bs : List Byte) : Larder :=
  let n := g.epb * g.es
  { l with buckets := Tab.put l.buckets (1536 * bank + p) (slice (bs.take n) 0 64) (List.replicate 64 0) }

/-- The entry of slot k of a bucket (R269). -/
def Geom.entry (g : Geom) (bkt : List Byte) (k : Nat) : List Byte := slice bkt (k * g.es) g.es

/-- VALID of an entry (R269). -/
def entryValid (e : List Byte) : Bool := (byteAt e 3).getLsbD 7

/-- KEY of an entry. -/
def Geom.keyOf (g : Geom) (e : List Byte) : List Byte := slice e 4 g.kw

/-- RESULT of an entry. -/
def Geom.resultOf (g : Geom) (e : List Byte) : List Byte := slice e (4 + g.kw) g.rw

/-- The lowest slot of a bucket that matches a key (R270, R273). -/
def Geom.matchSlot (g : Geom) (bkt key : List Byte) : Option Nat :=
  (List.range g.epb).find? (fun k => entryValid (g.entry bkt k) && g.keyOf (g.entry bkt k) = key)

/-- The lowest slot of a bucket with VALID 0. -/
def Geom.freeSlot (g : Geom) (bkt : List Byte) : Option Nat :=
  (List.range g.epb).find? (fun k => !entryValid (g.entry bkt k))

/-! ## Symmetric hash -/

/-- The symmetric hash of a key vector under a format (R272). -/
def Datapath.symhash (d : Datapath) (f : Nat) (kv : List Byte) : Nat :=
  let aw := if d.flag F.larSymFmt_AW16 f then 16 else 4
  let a1 := slice kv (d.rd F.larSymFmt_A1_OFS f) aw
  let a2 := slice kv (d.rd F.larSymFmt_A2_OFS f) aw
  let ports := !d.flag F.larSymFmt_NO_PORTS f
  let p1 := if ports then slice kv (d.rd F.larSymFmt_P1_OFS f) 2 else []
  let p2 := if ports then slice kv (d.rd F.larSymFmt_P2_OFS f) 2 else []
  let x := slice kv (d.rd F.larSymExtra_X_OFS f) (min (d.rd F.larSymExtra_X_LEN f) 16)
  let s := if beNat (a1 ++ p1) ≤ beNat (a2 ++ p2) then a1 ++ a2 ++ p1 ++ p2 ++ x else a2 ++ a1 ++ p2 ++ p1 ++ x
  hashWith (d.rd F.larSymSeed_SEED f) s

/-! ## Lookups -/

/-- A lookup of a key in a copy of a table: hit and RESULT bytes (R273). -/
def Datapath.lookup (d : Datapath) (t x : Nat) (key : List Byte) : Bool × List Byte :=
  match d.geom t with
  | none => (false, [])
  | some g =>
    let try' (c : Nat) : Option (List Byte) :=
      let q := d.candidate t x g key c
      let b := d.lar.bucket q.1 (g.phys x q.2)
      (g.matchSlot b key).map (fun k => g.resultOf (g.entry b k))
    match try' 0 with
    | some r => (true, r)
    | none =>
      match try' 1 with
      | some r => (true, r)
      | none => (false, [])

/-- A lookup that waits for its reads, with its place in the order of R274. -/
structure Waiter where
  age : Nat
  pen : Nat
  idx : Nat
  pos : Nat
  deriving DecidableEq, Repr

/-- Inserts a waiter behind every waiter of the same or a higher age. -/
def Waiter.insert (w : Waiter) : List Waiter → List Waiter
  | [] => [w]
  | x :: xs => if w.age ≤ x.age then x :: Waiter.insert w xs else w :: x :: xs

/-- Applies f to lookup number `pos` of pass `idx` of a pen. -/
def Datapath.modLookup (d : Datapath) (pen idx pos : Nat) (f : Lookup → Lookup) : Datapath :=
  d.setPasses pen (modAt (fun p => { p with lookups := modAt f p.lookups pos }) (d.passesOf pen) idx)

/-- The waiting lookups in the order of R274: age descending, then pen, then slot start, then lookup index. -/
def Datapath.waiters (d : Datapath) : List Waiter :=
  let all := d.passes.flatMap (fun e =>
    (List.range e.2.length).flatMap (fun i =>
      match e.2[i]? with
      | none => []
      | some p => (List.range p.lookups.length).filterMap (fun k =>
          match p.lookups[k]? with
          | some l => match l.st with
            | .waiting a => some { age := a, pen := e.1, idx := i, pos := k : Waiter }
            | _ => none
          | none => none)))
  all.foldl (fun l w => w.insert l) []

/-- The live copy of a table that a pass sees (R289). -/
def Pass.copyOf (p : Pass) (t : Nat) : Nat := b2n (p.live.testBit t)

/-- One lookup's turn in the grants of a clock: it takes its two banks if both are free, else it waits (R274). -/
def Datapath.grantLookup (x : Datapath × List Nat) (w : Waiter) : Datapath × List Nat :=
  let d := x.1
  match (d.passesOf w.pen)[w.idx]? with
  | none => x
  | some p =>
    match p.lookups[w.pos]? with
    | none => x
    | some l =>
      match d.geom l.table with
      | none => (d.modLookup w.pen w.idx w.pos (fun l => { l with st := .reading false [] }), x.2)
      | some g =>
        let c := p.copyOf l.table
        let b0 := (d.candidate l.table c g l.key 0).1
        let b1 := (d.candidate l.table c g l.key 1).1
        if x.2.contains b0 || x.2.contains b1 then
          let d := d.modLookup w.pen w.idx w.pos (fun l => { l with st := .waiting (w.age + 1) })
          let d := d.setPasses w.pen (modAt (fun p => { p with lost := p.lost + 1 }) (d.passesOf w.pen) w.idx)
          (d.pmnEvent 0x07 w.pen, x.2)
        else
          let r := d.lookup l.table c l.key
          let d := d.modLookup w.pen w.idx w.pos (fun l => { l with st := .reading r.1 r.2 })
          (d.pmnEvent 0x06 w.pen 2, b0 :: b1 :: x.2)

/-- The reads of a lookup complete and deliver a hit or a miss (R273). -/
def Datapath.lookupResult (d : Datapath) (pen idx pos : Nat) : Datapath :=
  match (d.passesOf pen)[idx]? with
  | none => d
  | some p =>
    match p.lookups[pos]? with
    | none => d
    | some l =>
      match l.st with
      | .reading hit r =>
        (d.modLookup pen idx pos (fun l => { l with st := .done hit r })).pmnEvent (if hit then 0x08 else 0x09) pen
      | _ => d

/-! ## Copies: live, settling, seeds -/

/-- Whether a copy of a table is not live and has settled (R290). -/
def Datapath.copyFree (d : Datapath) (t x : Nat) : Bool :=
  b2n (d.lar.live.testBit t) ≠ x && (Tab.find d.lar.settling (2 * t + x)).isNone

/-- Whether writes to a copy must wait for it to settle: it is settling (R290). -/
def Datapath.settlingCopy (d : Datapath) (t x : Nat) : Bool := (Tab.find d.lar.settling (2 * t + x)).isSome

/-- Whether a seed write for a copy waits (R291). -/
def Datapath.seedWaits (d : Datapath) (t x : Nat) : Bool := d.lar.seedWait.any (fun w => w.1 / 2 = 2 * t + x)

/-- Applies, in order, the seed writes that wait for copies that are free (R291). A command that was accepted before a seed write
computes what it still has to do with the new seeds: the spec does not say which it uses. DESIGN CHOICE, log entry 103. -/
def Datapath.applySeeds (d : Datapath) : Datapath :=
  let go := d.lar.seedWait.filter (fun w => d.copyFree (w.1 / 4) (w.1 / 2 % 2))
  let stay := d.lar.seedWait.filter (fun w => !d.copyFree (w.1 / 4) (w.1 / 2 % 2))
  let waits (e : LarCmd) : Bool := e.behind && stay.any (fun w => w.1 / 2 = 2 * e.table + e.copy)
  { d with lar := { d.lar with
      cseed := go.foldl (fun c w => Tab.put c w.1 w.2 0) d.lar.cseed, seedWait := stay
      eng := d.lar.eng.map (fun e => { e with behind := waits e }) } }

/-- The frames whose passes have lookups that have not issued their reads. -/
def Datapath.waitingFrames (d : Datapath) : List Nat :=
  d.passes.flatMap (fun e => e.2.filterMap (fun p =>
    if p.lookups.any (fun l => match l.st with
      | .waiting _ => true
      | _ => false) then some p.fid else none))

/-- The bits of LAR_LIVE that exist: those of tables with an attic (R289). -/
def Datapath.liveMask (d : Datapath) : Nat :=
  ofBits 16 (fun t => match d.geom t with
    | some g => g.attic
    | none => false)

/-- A LAR_LIVE write reaches the larder: it waits for its flip (R289). -/
def Datapath.writeLive (d : Datapath) (be : BitVec 4) (data : Word) : Datapath :=
  let v := (mergeBytes be data (RegFile.word d.regs .larLive 0 0)).toNat &&& d.liveMask
  { d.wr F.larLive_COPY v with lar := { d.lar with flips := d.lar.flips ++ [some v] } }

/-- The clock F of a flip (R289): it comes once the attic loader holds no record for a table whose bit changes.
The copies that were live begin to settle (R290). -/
def Datapath.flip (d : Datapath) : Datapath :=
  match d.lar.flips with
  | some v :: rest =>
    let ch (t : Nat) : Bool := v.testBit t ≠ d.lar.live.testBit t
    if d.lar.fifo.any (fun r => ch r.table) then d
    else
      let ws := d.waitingFrames
      let st := (List.range 16).foldl (fun st t =>
        if ch t then
          let old := b2n (d.lar.live.testBit t)
          Tab.set (Tab.erase st (2 * t + (1 - old))) (2 * t + old) ws
        else st) d.lar.settling
      { d with lar := { d.lar with live := v, flips := rest, settling := st } }
  | _ => d

/-- A copy settles once every slot that started before its flip has issued its reads; what waited for it
proceeds (R290, R291). -/
def Datapath.copySettle (d : Datapath) (t x : Nat) : Datapath :=
  match Tab.find d.lar.settling (2 * t + x) with
  | none => d
  | some ws =>
    if ws.any (fun f => d.waitingFrames.contains f) then d
    else ({ d with lar := { d.lar with settling := Tab.erase d.lar.settling (2 * t + x) } }).applySeeds

/-- A LAR_CSEED_n write reaches the larder (R291). -/
def Datapath.writeCseed (d : Datapath) (n : Nat) (be : BitVec 4) (data : Word) : Datapath :=
  let t := n / 4
  let x := n / 2 % 2
  let attic := match d.geom t with
    | some g => g.attic
    | none => false
  if !attic || (d.rd F.larLive_COPY).testBit t = (x = 1) then d.wr F.larEvt_ATTIC_REJECT 1
  else
    let old := match (d.lar.seedWait.filter (fun w => w.1 = n)).getLast? with
      | some w => w.2
      | none => Tab.get d.lar.cseed n 0
    let v := (mergeBytes be data (BitVec.ofNat 32 old)).toNat
    ({ d with lar := { d.lar with seedWait := d.lar.seedWait ++ [(n, v)] } }).applySeeds

/-! ## Command engine -/

/-- CODE values of R278. -/
def LC.ok : Nat := 0
def LC.updated : Nat := 1
def LC.noRoom : Nat := 2
def LC.notFound : Nat := 3
def LC.noTable : Nat := 4
def LC.noCopy : Nat := 5
def LC.badLoc : Nat := 6
def LC.busy : Nat := 7
def LC.badOp : Nat := 8
def LC.domainOff : Nat := 9

/-- The 64 staging bytes (R279). -/
def Datapath.larStage (d : Datapath) : List Byte :=
  (List.range 16).flatMap (fun w => leBytes 4 (d.rd F.larStage_DATA w))

/-- Loads the staging bytes, the rest of the 64 being 0. -/
def Datapath.setLarStage (d : Datapath) (bs : List Byte) : Datapath :=
  loop 16 (fun w d => d.wr F.larStage_DATA (le bs (4 * w) 4) w) d

/-- The header, KEY and RESULT of an entry as the engine writes it: USER, KEY and RESULT as given (R269, R282). -/
def entryWith (valid : Bool) (e : List Byte) : List Byte :=
  e.take 2 ++ [0, if valid then 0x80 else 0] ++ e.drop 4

/-- Writes an entry into slot k of a bucket of copy x (R284). -/
def Larder.putEntry (l : Larder) (g : Geom) (bank p k : Nat) (e : List Byte) : Larder :=
  l.writeBucket g bank p (overlay (l.bucket bank p) (k * g.es) e)

/-- LAR_LOC for a place. -/
def locWord (bank bucket slot : Nat) : Nat := bank * 2 ^ 16 + bucket * 4 + slot

/-- What INSERT does (R285, R286). -/
inductive InsertPlan where
  | update (bank bucket slot : Nat)
  | place (bank bucket slot : Nat)
  | walk (path : List (Nat × Nat × Nat)) (dst : Nat × Nat × Nat) (moves : Nat)
  | fail (moves : Nat)
  deriving DecidableEq, Repr

/-- The displacement walk of R285 from step d on with n steps left. `path` holds bank, bucket and slot of the
entries to move, last first. -/
def Datapath.insertWalk (dp : Datapath) (t x : Nat) (g : Geom) (c0 : Nat × Nat) :
    Nat → Nat → (Nat × Nat) → List (Nat × Nat × Nat) → InsertPlan
  | 0, d, _, _ => .fail (d - 1)
  | n + 1, d, cur, path =>
    let s := (d - 1) % g.epb
    let v := g.entry (dp.lar.bucket cur.1 (g.phys x cur.2)) s
    let a0 := dp.candidate t x g (g.keyOf v) 0
    let a1 := dp.candidate t x g (g.keyOf v) 1
    let a := if cur = a0 then a1 else a0
    if a = c0 || path.any (fun q => (q.1, q.2.1) = a) then .fail d
    else
      let path := (cur.1, cur.2, s) :: path
      match g.freeSlot (dp.lar.bucket a.1 (g.phys x a.2)) with
      | some f => .walk path (a.1, a.2, f) d
      | none => Datapath.insertWalk dp t x g c0 n (d + 1) a path

/-- The banks that the displacement walk of R285 reads, step by step. -/
def Datapath.walkReads (dp : Datapath) (t x : Nat) (g : Geom) (c0 : Nat × Nat) :
    Nat → Nat → (Nat × Nat) → List (Nat × Nat × Nat) → List Nat
  | 0, _, _, _ => []
  | n + 1, d, cur, path =>
    let s := (d - 1) % g.epb
    let v := g.entry (dp.lar.bucket cur.1 (g.phys x cur.2)) s
    let a0 := dp.candidate t x g (g.keyOf v) 0
    let a1 := dp.candidate t x g (g.keyOf v) 1
    let a := if cur = a0 then a1 else a0
    if a = c0 || path.any (fun q => (q.1, q.2.1) = a) then []
    else a.1 :: (if (g.freeSlot (dp.lar.bucket a.1 (g.phys x a.2))).isSome then []
                 else Datapath.walkReads dp t x g c0 n (d + 1) a ((cur.1, cur.2, s) :: path))

/-- MAX_MOVES in effect (R278). -/
def Datapath.maxMoves (d : Datapath) : Nat := min (max (d.rd F.larEngCfg_MAX_MOVES) 1) 32

/-- The plan of an INSERT of a key (R285). -/
def Datapath.insertPlan (d : Datapath) (t x : Nat) (g : Geom) (key : List Byte) : InsertPlan :=
  let c0 := d.candidate t x g key 0
  let c1 := d.candidate t x g key 1
  let b0 := d.lar.bucket c0.1 (g.phys x c0.2)
  let b1 := d.lar.bucket c1.1 (g.phys x c1.2)
  match g.matchSlot b0 key, g.matchSlot b1 key, g.freeSlot b0, g.freeSlot b1 with
  | some k, _, _, _ => .update c0.1 c0.2 k
  | none, some k, _, _ => .update c1.1 c1.2 k
  | none, none, some k, _ => .place c0.1 c0.2 k
  | none, none, none, some k => .place c1.1 c1.2 k
  | none, none, none, none => d.insertWalk t x g c0 d.maxMoves 1 c0 []

/-- Moves the entries of a path, last first, each into the slot that the move before it left; answers the larder
and the slot left in the end (R285). -/
def Larder.moveAll (g : Geom) (x : Nat) : Larder → List (Nat × Nat × Nat) → (Nat × Nat × Nat) → Larder × (Nat × Nat × Nat)
  | l, [], dst => (l, dst)
  | l, (b, k, s) :: rest, dst =>
    let e := g.entry (l.bucket b (g.phys x k)) s
    Larder.moveAll g x (l.putEntry g dst.1 (g.phys x dst.2.1) dst.2.2 (entryWith true e)) rest (b, k, s)

/-- The test of R282 that ends a command before it reads anything, if one does: its code. `on16` tells whether PD16 is on. -/
def Datapath.larTest (d : Datapath) (e : LarCmd) (on16 : Bool) : Option Nat :=
  if e.op < 1 || 6 < e.op then some LC.badOp
  else if e.op ≠ 6 && !on16 then some LC.domainOff
  else
    match d.geom e.table with
    | none => some LC.noTable
    | some g =>
      if e.copy = 1 && !g.attic then some LC.noCopy
      else if (e.op = 4 || e.op = 5) && (!g.hasBank (fieldOf e.loc 23 16) || fieldOf e.loc 11 2 ≥ g.rows ||
          fieldOf e.loc 1 0 ≥ g.epb) then some LC.badLoc
      else none

/-- Whether a command waits for its copy to settle, or for a seed write for it that crossed before it (R290, R291). HASH reads no
bank and never waits (R281). -/
def Datapath.larWaits (d : Datapath) (e : LarCmd) : Bool :=
  e.op ≠ 6 && (d.settlingCopy e.table e.copy || e.behind)

/-- The banks that a command reads, in order: LAR_LOC's, or the two candidates' and those of an insertion's walk (R282, R285). -/
def Datapath.larReads (d : Datapath) (e : LarCmd) : List Nat :=
  match d.geom e.table with
  | none => []
  | some g =>
    let key := slice e.stage 4 g.kw
    let both := [(d.candidate e.table e.copy g key 0).1, (d.candidate e.table e.copy g key 1).1]
    if e.op = 4 || e.op = 5 then [fieldOf e.loc 23 16]
    else if e.op = 2 || e.op = 3 then both
    else if e.op = 1 then
      both ++ (match d.insertPlan e.table e.copy g key with
        | .update _ _ _ => []
        | .place _ _ _ => []
        | _ =>
          let c0 := d.candidate e.table e.copy g key 0
          d.walkReads e.table e.copy g c0 d.maxMoves 1 c0 [])
    else []

/-- The banks that a command writes (R282, R284, R285). -/
def Datapath.larWrites (d : Datapath) (e : LarCmd) : List Nat :=
  match d.geom e.table with
  | none => []
  | some g =>
    let key := slice e.stage 4 g.kw
    if e.op = 4 then [fieldOf e.loc 23 16]
    else if e.op = 2 then
      [0, 1].filterMap (fun c =>
        let q := d.candidate e.table e.copy g key c
        if (g.matchSlot (d.lar.bucket q.1 (g.phys e.copy q.2)) key).isSome then some q.1 else none)
    else if e.op = 1 then
      match d.insertPlan e.table e.copy g key with
      | .update b _ _ => [b]
      | .place b _ _ => [b]
      | .walk path dst _ => dst.1 :: path.map (·.1)
      | .fail _ => []
    else []

/-- One core clock of bucket-read grants (R274): the lookups, then the command engine's next read where its bank is left free; its
wait counts towards STARVED (R278). The pens whose pipelines held are counted (R587). -/
def Datapath.lookupIssue (d : Datapath) (on16 : Bool) : Datapath :=
  let x := d.waiters.foldl Datapath.grantLookup (d, [])
  let d := x.1.countHolds
  match d.lar.eng with
  | none => d
  | some e =>
    if (d.larTest e on16).isSome || d.larWaits e then d
    else
      match (d.larReads e)[e.reads]? with
      | none => d
      | some b =>
        let e := if x.2.contains b then { e with waited := e.waited + 1, starved := e.starved || e.waited + 1 ≥ 4096 }
                 else { e with reads := e.reads + 1, waited := 0 }
        { d with lar := { d.lar with eng := some e } }

/-- Ends the running command with its code, and MOVES of an INSERT: DONE for OK and UPDATED, else ERROR (R278, R281). -/
def Datapath.larEnd (d : Datapath) (code : Nat) (moves : Option Nat) : Datapath :=
  let d := d.wr F.larStat_CODE code
  let d := match moves with
    | some n => d.wr F.larStat_MOVES n
    | none => d
  let d := if code = LC.ok || code = LC.updated then d.wr F.larEvt_DONE 1 else d.wr F.larEvt_ERROR 1
  { d with lar := { d.lar with eng := none } }

/-- Sets LAR_LOC. -/
def Datapath.setLoc (d : Datapath) (bank bucket slot : Nat) : Datapath :=
  ((d.wr F.larLoc_BANK bank).wr F.larLoc_BUCKET bucket).wr F.larLoc_SLOT slot

/-- Loads LAR_CAND_c with the two candidates of a key (R277). -/
def Datapath.setCands (d : Datapath) (t x : Nat) (g : Geom) (key : List Byte) : Datapath :=
  loop 2 (fun c d =>
    let q := d.candidate t x g key c
    (d.wr F.larCand_BANK q.1 c).wr F.larCand_BUCKET q.2 c) d

/-- The effect of INSERT (R282, R284, R285, R286). -/
def Datapath.larInsert (d : Datapath) (t x : Nat) (g : Geom) (stage : List Byte) : Datapath :=
  let key := slice stage 4 g.kw
  let e := entryWith true (slice stage 0 g.es)
  let put (d : Datapath) (bank bucket slot : Nat) : Datapath :=
    { d with lar := d.lar.putEntry g bank (g.phys x bucket) slot e }
  match d.insertPlan t x g key with
  | .update b k s => ((put d b k s).setLoc b k s).larEnd LC.updated (some 0)
  | .place b k s => ((put d b k s).setLoc b k s).larEnd LC.ok (some 0)
  | .walk path dst m =>
    let r := Larder.moveAll g x d.lar path dst
    ((put { d with lar := r.1 } r.2.1 r.2.2.1 r.2.2.2).setLoc r.2.1 r.2.2.1 r.2.2.2).larEnd LC.ok (some m)
  | .fail m => d.larEnd LC.noRoom (some m)

/-- Clears VALID of every slot of a bucket that holds a key (R282). -/
def Datapath.larClearKey (d : Datapath) (x : Nat) (g : Geom) (key : List Byte) (q : Nat × Nat) : Datapath :=
  let p := g.phys x q.2
  let b := d.lar.bucket q.1 p
  let b' := (List.range g.epb).foldl (fun b k =>
    if entryValid (g.entry b k) && g.keyOf (g.entry b k) = key then overlay b (k * g.es + 3) [0] else b) b
  { d with lar := d.lar.writeBucket g q.1 p b' }

/-- The effect of DELETE (R282). -/
def Datapath.larDelete (d : Datapath) (t x : Nat) (g : Geom) (stage : List Byte) : Datapath :=
  let key := slice stage 4 g.kw
  let c0 := d.candidate t x g key 0
  let c1 := d.candidate t x g key 1
  if (d.lookup t x key).1 then ((d.larClearKey x g key c0).larClearKey x g key c1).larEnd LC.ok none
  else d.larEnd LC.notFound none

/-- The effect of FIND (R282, R273). -/
def Datapath.larFind (d : Datapath) (t x : Nat) (g : Geom) (stage : List Byte) : Datapath :=
  let key := slice stage 4 g.kw
  let look (c : Nat) : Option (Nat × Nat × Nat) :=
    let q := d.candidate t x g key c
    (g.matchSlot (d.lar.bucket q.1 (g.phys x q.2)) key).map (fun s => (q.1, q.2, s))
  match (look 0).orElse (fun _ => look 1) with
  | some (b, k, s) =>
    ((d.setLarStage (g.entry (d.lar.bucket b (g.phys x k)) s)).setLoc b k s).larEnd LC.ok none
  | none => d.larEnd LC.notFound none

/-- The effect of WRITE_AT on the slot at a LAR_LOC value (R284). DESIGN CHOICE: a staged VALID of 0 over a valid slot that holds the
same KEY meets two bullets of the rule; the first is taken, so the slot stays valid (log entry 96). -/
def Datapath.larWriteAt (d : Datapath) (x : Nat) (g : Geom) (stage : List Byte) (bank bucket slot : Nat) : Datapath :=
  let p := g.phys x bucket
  let old := g.entry (d.lar.bucket bank p) slot
  let e := slice stage 0 g.es
  let valid := entryValid e || (entryValid old && g.keyOf old = g.keyOf e)
  ({ d with lar := d.lar.putEntry g bank p slot (entryWith valid e) }).larEnd LC.ok none

/-- A command's end: a test of R282, or the effect once every read has been issued (R274, R281). The banks written are noted for the
loader (R288). A command ended by a test names no MOVES, but for INSERT, which then moved no entry. -/
def Datapath.larCommandEnd (d : Datapath) (on16 : Bool) : Datapath :=
  match d.lar.eng with
  | none => d
  | some e =>
    match d.larTest e on16, d.geom e.table with
    | some c, _ => d.larEnd c (if e.op = 1 then some 0 else none)
    | none, none => d
    | none, some g =>
      if d.larWaits e || e.reads < (d.larReads e).length then d
      else
        let bank := fieldOf e.loc 23 16
        let bucket := fieldOf e.loc 11 2
        let d := (d.larWrites e).foldl (fun d b => d.meet .engineWrite b) d
        let d := if e.op = 4 || e.op = 5 then d else d.setCands e.table e.copy g (slice e.stage 4 g.kw)
        match e.op with
        | 1 => d.larInsert e.table e.copy g e.stage
        | 2 => d.larDelete e.table e.copy g e.stage
        | 3 => d.larFind e.table e.copy g e.stage
        | 4 => d.larWriteAt e.copy g e.stage bank bucket (fieldOf e.loc 1 0)
        | 5 => (d.setLarStage (g.entry (d.lar.bucket bank (g.phys e.copy bucket)) (fieldOf e.loc 1 0))).larEnd LC.ok none
        | _ => d.larEnd LC.ok none

/-- The engine accepts a command word: it copies LAR_STAGE, LAR_LOC and the command (R281). -/
def Datapath.larAccept (d : Datapath) (w : Nat) : Datapath :=
  let c : LarCmd := { op := fieldOf w 3 0, table := fieldOf w 11 8, copy := fieldOf w 12 12,
                      loc := (RegFile.word d.regs .larLoc 0 0).toNat, stage := d.larStage
                      behind := d.seedWaits (fieldOf w 11 8) (fieldOf w 12 12) }
  { d with lar := { d.lar with eng := some c } }

/-- BUSY of LAR_STAT. -/
def Datapath.larBusy (d : Datapath) : Bool := d.lar.eng.isSome

/-- WAIT_SETTLE of LAR_STAT: the running command or the loader's head record waits for a copy to settle (R278),
or a seed write waits (R291). -/
def Datapath.larWaitSettle (d : Datapath) : Bool :=
  !d.lar.seedWait.isEmpty ||
  (match d.lar.eng with
   | some e => e.op ≠ 6 && d.settlingCopy e.table e.copy
   | none => false) ||
  (match d.lar.fifo with
   | r :: _ => d.settlingCopy r.table r.copy
   | [] => false)

/-- The word of LAR_STAT (R278). -/
def Datapath.larStatWord (d : Datapath) : Word :=
  let w := RegFile.word d.regs .larStat 0 0
  let w := putBits w 15 15 (b2n d.larBusy)
  let w := putBits w 14 14 (b2n d.larWaitSettle)
  let w := putBits w 13 13 (b2n (match d.lar.eng with
    | some e => e.starved
    | none => false))
  let w := putBits w 12 12 (b2n (d.lar.flips.any Option.isSome))
  putBits w 6 0 d.lar.fifo.length

/-! ## Attic loader -/

/-- The record in the attic words (R287). -/
def Datapath.atticRecord (d : Datapath) : AtticRec :=
  let w := (RegFile.word d.regs .larAttic0 0 0).toNat
  { copy := fieldOf w 28 28, table := fieldOf w 27 24, bank := fieldOf w 23 16, bucket := fieldOf w 11 2,
    bytes := (List.range 16).flatMap (fun i => leBytes 4 (RegFile.word d.regs .larAttic i 0).toNat) }

/-- A write of LAR_ATTIC_0 or LAR_ATTIC_(i + 1): the word takes the enabled bytes. -/
def Datapath.writeAtticWord (d : Datapath) (r : Reg) (i : Nat) (be : BitVec 4) (data : Word) : Datapath :=
  { d with regs := RegFile.setWord d.regs r i 0 (mergeBytes be data (RegFile.word d.regs r i 0)) }

/-- The FIFO takes a record, after the checks of R288. -/
def Datapath.atticTake (d : Datapath) (r : AtticRec) : Datapath :=
  let ok := match d.geom r.table with
    | none => false
    | some g => g.attic && b2n (d.lar.live.testBit r.table) ≠ r.copy && g.hasBank r.bank && r.bucket < g.rows
  if ok then { d with lar := { d.lar with fifo := d.lar.fifo ++ [r] } } else d.wr F.larEvt_ATTIC_REJECT 1

/-- Whether the engine's write goes first at a bank's port in this clock: unless the loader's head record has waited 15 clocks
(R288). Whether a write noted before falls in this clock is free (log entry 84). -/
def Datapath.engineFirst (d : Datapath) (bank : Nat) : Bool :=
  d.meets .engineWrite bank && d.lar.headWait < 15 && Config.sameClock 4 d.lar.draws

/-- The loader writes its head record as one bucket write, unless its copy is settling (R290) or the engine writes the bank
(R288). -/
def Datapath.atticWrite (d : Datapath) : Datapath :=
  match d.lar.fifo with
  | [] => d
  | r :: rest =>
    if d.settlingCopy r.table r.copy then d
    else
      match d.geom r.table with
      | none => { d with lar := { d.lar with fifo := rest } }
      | some g =>
        if d.engineFirst r.bank then
          { d with lar := { d.lar with headWait := d.lar.headWait + 1, draws := d.lar.draws + 1 } }
        else
          let l := d.lar.writeBucket g r.bank (g.phys r.copy r.bucket) r.bytes
          ({ d with lar := { l with fifo := rest, headWait := 0, draws := d.lar.draws + 1 } }).pmnEvent 0x16 0

/-! ## Verdict epoch -/

/-- LAR_EPOCH.CUR. -/
def Datapath.epochCur (d : Datapath) : Nat := d.rd F.larEpoch_CUR

/-- LAR_EPOCH.OLDEST: the oldest epoch of a frame inside (R294, R295). -/
def Datapath.epochOldest (d : Datapath) : Nat :=
  let cur := d.epochCur
  let back := d.frames.foldl (fun m f =>
    let a := (cur + 65536 - f.2.epoch) % 65536
    if f.2.inside && a ≤ 15 then max m a else m) 0
  (cur + 65536 - back) % 65536

/-- The word of LAR_EPOCH. -/
def Datapath.epochWord (d : Datapath) : Word := BitVec.ofNat 32 (d.epochOldest * 65536 + d.epochCur)

/-- Whether epoch e counts as drained (R296). -/
def Datapath.epochDrained (d : Datapath) (e : Nat) : Bool := (d.epochOldest + 65536 - e) % 65536 < 32768

/-- The level of watch k (R297). -/
def Datapath.epochWatch (d : Datapath) (k : Nat) : Bool :=
  d.flag F.larEpochWatch_ARM k && d.epochDrained (d.rd F.larEpochWatch_TARGET k)

/-- The word of LAR_EVT (R278, R297). -/
def Datapath.larEvtWord (d : Datapath) : Word :=
  putBits (putBits (RegFile.word d.regs .larEvt 0 0) 4 4 (b2n (d.epochWatch 0))) 5 5 (b2n (d.epochWatch 1))

/-- A write of LAR_EPOCH_REQ (R296). -/
def Datapath.writeEpochReq (d : Datapath) (be : BitVec 4) (data : Word) : Datapath :=
  if F.larEpochReq_REQ.wo be data = 1 then { d with lar := { d.lar with flips := d.lar.flips ++ [none] } } else d

/-- The first core clock after the LAR_LIVE writes before a request have taken effect: CUR increments or the
request is refused (R296). -/
def Datapath.epochAdvance (d : Datapath) : Datapath :=
  match d.lar.flips with
  | none :: rest =>
    let d := { d with lar := { d.lar with flips := rest } }
    if (d.epochCur + 65536 - d.epochOldest) % 65536 < 15 then d.wr F.larEpoch_CUR ((d.epochCur + 1) % 65536)
    else d.wr F.larEvt_EPOCH_REFUSED 1
  | _ => d

/-! ## Geometry registers (R280) -/

/-- The words of LAR_GEOM_t, LAR_SPAN_t, LAR_SEEDA_t and LAR_SEEDB_t. -/
def Datapath.geomWord (d : Datapath) (t k : Nat) : Word :=
  match d.geom t with
  | none => 0
  | some g =>
    BitVec.ofNat 32 (match k with
      | 0 => 1 <<< 31 + b2n g.attic <<< 30 + g.rw <<< 16 + g.kw <<< 8 + g.epb
      | 1 => g.bankBase <<< 24 + g.bankLog2 <<< 20 + g.bktLog2 <<< 16 + g.bktBase
      | 2 => g.seed0
      | _ => g.seed1)

/-! ## Register writes with effects -/

/-- A write of LAR_CMD: accepted when the engine is idle, else held (R281, R283). The answer says whether it was
accepted. One that does not enable the byte of OP gives no command: DESIGN CHOICE, log entry 104 (R11). -/
def Datapath.writeLarCmd (d : Datapath) (src : Src) (be : BitVec 4) (data : Word) : Datapath × Bool :=
  let w := data.toNat &&& beMask be
  if !be.getLsbD 0 then (d, true)
  else if d.larBusy then ({ d with lar := { d.lar with cmdWait := d.lar.cmdWait ++ [(src, w)] } }, false)
  else (d.larAccept w, true)

/-- A write of LAR_ATTIC_16: taken by the FIFO unless it is full, else held (R287), also one that enables no byte: DESIGN CHOICE, log
entry 104. -/
def Datapath.writeAtticPush (d : Datapath) (src : Src) (be : BitVec 4) (data : Word) : Datapath × Bool :=
  let d := d.writeAtticWord .larAttic 15 be data
  if d.lar.fifo.length < 64 then (d.atticTake d.atticRecord, true)
  else ({ d with lar := { d.lar with pushWait := d.lar.pushWait ++ [(src, d.atticRecord)] } }, false)

/-- A LAR_LIVE write of the shepherd's value, as the datapath takes it (R292), also one that enables no byte: DESIGN CHOICE, log entry
104. -/
def State.writeLive (s : State) (be : BitVec 4) (data : Word) : State :=
  let s := s.onDp (fun d => d.writeLive be data)
  s.onSh (fun h => { h with live := s.dp.rd F.larLive_COPY })

/-- The shepherd takes a seed write into its value where its LAR_LIVE does not name the copy live (R292). -/
def Shepherd.takeSeed (h : Shepherd) (n : Nat) (be : BitVec 4) (data : Word) : Shepherd :=
  if h.live.testBit (n / 4) = (n / 2 % 2 = 1) then h
  else { h with cseed := Tab.put h.cseed n (mergeBytes be data (BitVec.ofNat 32 (Tab.get h.cseed n 0))).toNat 0 }

/-- A LAR_CSEED_n write, with the shepherd's value (R291, R292). -/
def State.writeCseed (s : State) (n : Nat) (be : BitVec 4) (data : Word) : State :=
  (s.onDp (fun d => d.writeCseed n be data)).onSh (fun h => h.takeSeed n be data)

/-! ## Commands -/

/-- A LAR_CMD write of an OP (R281 to R283). -/
def State.larCommand (src : Src) (op table copy : Nat) (s : State) : State :=
  let a := Reg.larCmd.addr 0 0
  if s.reaches src a true then
    let r := s.dp.writeLarCmd src 0xF (BitVec.ofNat 32 (copy % 2 * 2 ^ 12 + table % 16 * 2 ^ 8 + op))
    let s := { s with dp := r.1 }
    if r.2 then s.performed src a true 0 else s
  else s.turnedOff src

/-- INSERT (R285). -/
def execInsert (src : Src) (table copy : Nat) (s : State) : Out := .next (s.larCommand src 1 table copy)
/-- DELETE (R282). -/
def execDelete (src : Src) (table copy : Nat) (s : State) : Out := .next (s.larCommand src 2 table copy)
/-- FIND (R282). -/
def execFind (src : Src) (table copy : Nat) (s : State) : Out := .next (s.larCommand src 3 table copy)
/-- WRITE_AT (R284). -/
def execWriteAt (src : Src) (table copy : Nat) (s : State) : Out := .next (s.larCommand src 4 table copy)
/-- READ_AT (R282). -/
def execReadAt (src : Src) (table copy : Nat) (s : State) : Out := .next (s.larCommand src 5 table copy)
/-- HASH (R282). -/
def execHash (src : Src) (table copy : Nat) (s : State) : Out := .next (s.larCommand src 6 table copy)

/-- The idle engine accepts the LAR_CMD write that was held first (R283). -/
def State.larHeldAccept (s : State) : State :=
  match s.dp.lar.cmdWait with
  | (src, w) :: rest =>
    if s.dp.larBusy then s
    else
      let s := s.onDp (fun d => ({ d with lar := { d.lar with cmdWait := rest } }).larAccept w)
      s.performed src (Reg.larCmd.addr 0 0) true 0
  | [] => s

/-- LAR_COMMAND_TIMEOUT: the held LAR_CMD write of a port is answered without being accepted; CODE takes BUSY and
ERROR is set (R283). A write of the HDMA has no such limit (R555). -/
def execLarCommandTimeout (m : RPort) (s : State) : Out :=
  .next (if s.dp.lar.cmdWait.any (fun w => w.1 = Src.port m) then
      let s := s.onDp (fun d =>
        (({ d with lar := { d.lar with cmdWait := d.lar.cmdWait.filter (fun w => w.1 ≠ Src.port m) } }).wr
          F.larStat_CODE LC.busy).wr F.larEvt_ERROR 1)
      s.performed (.port m) (Reg.larCmd.addr 0 0) true 0
    else s)

/-- The held writes of a port are given up, with the request that made them (R59). -/
def Datapath.dropHeld (d : Datapath) (m : RPort) : Datapath :=
  { d with lar := { d.lar with
      cmdWait := d.lar.cmdWait.filter (fun w => w.1 ≠ Src.port m), pushWait := d.lar.pushWait.filter (fun w => w.1 ≠ Src.port m) } }

/-- LAR_COMMAND_END: the running command ends (R281, R282). -/
def execLarCommandEnd (s : State) : Out := .next (s.onDp (fun d => d.larCommandEnd (s.sh.domOn 16)))

/-- ATTIC_PUSH: a write of LAR_ATTIC_16 (R287). -/
def execAtticPush (src : Src) (be : BitVec 4) (data : Word) (s : State) : Out :=
  let a := Reg.larAttic.addr 15 0
  .next (if s.reaches src a true then
    let r := s.dp.writeAtticPush src be data
    let s := { s with dp := r.1 }
    if r.2 then s.performed src a true 0 else s
  else s.turnedOff src)

/-- ATTIC_PUSH_TIMEOUT: the held push of a port is discarded with ATTIC_REJECT and answered; a push of the HDMA
is never discarded for waiting (R287). -/
def execAtticPushTimeout (m : RPort) (s : State) : Out :=
  .next (if s.dp.lar.pushWait.any (fun w => w.1 = Src.port m) then
    let s := s.onDp (fun d =>
      ({ d with lar := { d.lar with pushWait := d.lar.pushWait.filter (fun w => w.1 ≠ Src.port m) } }).wr
        F.larEvt_ATTIC_REJECT 1)
    s.performed (.port m) (Reg.larAttic.addr 15 0) true 0
  else s)

/-- The loader writes its head record; the push held first is taken by the freed place (R287, R288). -/
def State.atticStep (s : State) : State :=
  let s := s.onDp Datapath.atticWrite
  match s.dp.lar.pushWait with
  | (src, r) :: rest =>
    if s.dp.lar.fifo.length < 64 then
      let s := s.onDp (fun d => ({ d with lar := { d.lar with pushWait := rest } }).atticTake r)
      s.performed src (Reg.larAttic.addr 15 0) true 0
    else s
  | [] => s

/-- LIVE_WRITE: a write of LAR_LIVE (R289). -/
def execLiveWrite (src : Src) (be : BitVec 4) (data : Word) (s : State) : Out :=
  .next (s.regWrite src (Reg.larLive.addr 0 0) (fun s => s.writeLive be data))

/-- FLIP: the clock F of the oldest LAR_LIVE write (R289). -/
def execFlip (s : State) : Out := .next (s.onDp Datapath.flip)

/-- COPY_SETTLE of copy x of table t (R290). -/
def execCopySettle (t x : Nat) (s : State) : Out := .next (s.onDp (fun d => d.copySettle t x))

/-- CSEED_WRITE: a write of LAR_CSEED_n (R291). -/
def execCseedWrite (src : Src) (n : Nat) (be : BitVec 4) (data : Word) (s : State) : Out :=
  .next (s.regWrite src (Reg.larCseed.addr n 0) (fun s => s.writeCseed n be data))

/-- EPOCH_REQUEST: a write of LAR_EPOCH_REQ with REQ = 1 (R296). -/
def execEpochRequest (src : Src) (s : State) : Out :=
  .next (s.regWrite src (Reg.larEpochReq.addr 0 0) (fun s => s.onDp (fun d => d.writeEpochReq 0x1 1)))

/-- EPOCH_ADVANCE (R296). -/
def execEpochAdvance (s : State) : Out := .next (s.onDp Datapath.epochAdvance)

/-- LOOKUP_ISSUE: one core clock of bucket-read grants (R274). -/
def execLookupIssue (s : State) : Out := .next (s.onDp (fun d => d.lookupIssue (s.sh.domOn 16)))

/-- LOOKUP_RESULT: lookup `pos` of pass `idx` of a pen, oldest pass first, delivers its result (R273). -/
def execLookupResult (pen idx pos : Nat) (s : State) : Out := .next (s.onDp (fun d => d.lookupResult pen idx pos))

end Sys2Proof.Machine
end

