-- ==== Sys2Proof/Machine/FlockCore.lean ====
section
/-! DEFINITION. The flock (spec/17): role, links, header checks, trailer, route choice, neighbours, address claim and
the control frames that wait. -/

namespace Sys2Proof.Machine

/-! ## Role (R511) -/

/-- MODE of the flock role, 0 with no section. -/
def Datapath.flkMode (d : Datapath) : Nat := le d.flockRole 2 1
/-- ADDR of the role. -/
def Datapath.flkRoleAddr (d : Datapath) : Nat := le d.flockRole 4 2 % 4096
/-- The flock EtherType. -/
def Datapath.flkEtype (d : Datapath) : Nat := let e := le d.flockRole 6 2; if e = 0 then 0x88B5 else e
/-- The member's identity. -/
def Datapath.flkIdent (d : Datapath) : Nat := le d.flockRole 8 8
/-- The port of link l, if the link is in use. -/
def Datapath.flkPort (d : Datapath) (l : Nat) : Option Nat :=
  let w := le d.flockRole (16 + 2 * l) 2
  if d.flkMode = 0 || !bit w 15 then none else some (w % 1024)
/-- The link that a port carries. -/
def Datapath.flkLinkOf (d : Datapath) (p : Nat) : Option Nat := (List.range 32).find? (fun l => d.flkPort l = some p)
/-- SYM_FMT of the role. -/
def Datapath.flkSymFmt (d : Datapath) : Nat := le d.flockRole 0x54 1 % 8
/-- CLAIM_TTL of the role. -/
def Datapath.flkClaimTtl (d : Datapath) : Nat := le d.flockRole 0x55 1
/-- CTRL_TC of the role. -/
def Datapath.flkCtrlTc (d : Datapath) : Nat := le d.flockRole 0x56 1 % 8
/-- CLAIM_TRIES of the role. -/
def Datapath.flkTries (d : Datapath) : Nat := le d.flockRole 0x53 1

/-- The member's address, held or claimed. -/
def Datapath.flkAddr (d : Datapath) : Nat := d.rd F.flkStat_ADDR
/-- ADDR_VALID. -/
def Datapath.flkValid (d : Datapath) : Bool := d.flag F.flkStat_ADDR_VALID

/-- States of a link (R533). -/
def FL.down : Nat := 0
def FL.probing : Nat := 1
def FL.up : Nat := 2

/-- States of the address (R533). -/
def FA.off : Nat := 0
def FA.fixed : Nat := 1
def FA.claiming : Nat := 2
def FA.claimed : Nat := 3
def FA.conflict : Nat := 4

/-- The state of a link. -/
def Datapath.flkState (d : Datapath) (l : Nat) : Nat := d.rd F.flkLinkStat_STATE l

/-- A link's run time. -/
def Datapath.flkLink (d : Datapath) (l : Nat) : FlkLink := Tab.get d.flk.links l {}

/-- Replaces a link's run time. -/
def Datapath.setFlk (d : Datapath) (l : Nat) (x : FlkLink) : Datapath :=
  { d with flk := { d.flk with links := Tab.put d.flk.links l x {} } }

/-- Adds n to counter j of a link (R532). -/
def Datapath.flkCount (d : Datapath) (l j : Nat) (n : Nat := 1) : Datapath := d.count F.flkLcnt_COUNT n (8 * l + j)

/-- Counts a dropped frame: 0 BAD_HDR, 1 NOT_UP, 2 NO_ADDR, 3 TTL, 4 NO_ROUTE (R532). -/
def Datapath.flkDrop (d : Datapath) (j : Nat) : Datapath := d.count F.flkDrop_COUNT 1 j

/-! ## Flock frames (R513 to R515) -/

/-- Whether bytes are those of a flock frame on a flock link (R513). The frame's tags are counted by the caller. -/
def Datapath.flkFrame (d : Datapath) (tags : Nat) (raw : List Byte) : Bool := tags = 0 && be raw 12 2 = d.flkEtype

/-- The trailer of a flock frame over bytes 14 on, with ALIVE and RETRACT (R515). `body` are the frame bytes before
the trailer. -/
def flkTrailer (body : List Byte) (alive : Nat) (retract : Bool) : List Byte :=
  let t := beBytes 2 alive ++ beBytes 2 (b2n retract)
  t ++ beBytes 4 (crc32c (body.drop 14 ++ t))

/-- Whether the seal of a frame is right: `raw` holds trailer and FCS (R515). -/
def flkSealOk (raw : List Byte) : Bool :=
  let n := raw.length - 8
  n ≥ 18 && crc32c ((raw.take n).drop 14) = be raw n 4

/-- ALIVE of a received flock frame. -/
def flkAlive (raw : List Byte) : Nat := be raw (raw.length - 12) 2

/-- RETRACT of a received flock frame. -/
def flkRetract (raw : List Byte) : Bool := bit (be raw (raw.length - 10) 2) 0

/-- What the bytes so far, from 15 on, of a flock frame on link l make of it, and the drop that is counted: VER, KIND and
the neighbour state are judged at byte 14, the rest once DST has arrived (R518, R520, R521). -/
def Datapath.flkHeader (d : Datapath) (l : Nat) (raw : List Byte) : FlkMark × Option Nat :=
  let ver := fieldOf (be raw 14 1) 7 4
  let kind := fieldOf (be raw 14 1) 3 0
  let dst := be raw 16 2 % 4096
  if ver ≠ 1 || 3 < kind then (.bad, some 0)
  else if kind ≠ 0 then (.control, none)
  else if d.flkState l ≠ FL.up then (.bad, some 1)
  else if raw.length < 18 then (.plain, none)
  else if dst = d.flkAddr then (if d.flkValid then (.local', none) else (.bad, some 2))
  else if be raw 15 1 = 0 then (.bad, some 3)
  else (.transit, none)

/-! ## Route table (R522) -/

/-- The link that a route choice gives for a destination and a flow. -/
def Datapath.flkRoute (d : Datapath) (dst flow : Nat) : Option Nat :=
  let eff := d.rd F.flkRoute_LINKS dst &&& d.rd F.flkLinkUp_UP
  let n := popcount eff 32
  if n = 0 then none
  else
    let k := flow * n / 2 ^ 16
    (List.range 32).find? (fun l => eff.testBit l && popcount eff l = k)

/-! ## Control frames (R517, R529, R530) -/

/-- The station address of a port: SA of R405. -/
def Datapath.txSa (d : Datapath) (p : Nat) : Nat :=
  d.rd F.penTxSaHi_SA_HI (penOf p) (slotOf p) * 2 ^ 32 + d.rd F.penTxSaLo_SA_LO (penOf p) (slotOf p)

/-- Bytes 0 to 51 of a control frame sent on link l (R517): kind 1 HELLO, 2 CLAIM, 3 DEFEND. -/
def Datapath.flkControl (d : Datapath) (l kind ttl ident cseq addr : Nat) : List Byte :=
  let p := (d.flkPort l).getD 0
  beBytes 6 0x035144000001 ++ beBytes 6 (d.txSa p) ++ beBytes 2 d.flkEtype ++ beBytes 1 (16 + kind) ++
  beBytes 1 ttl ++ beBytes 2 0 ++ beBytes 2 (if d.flkValid then d.flkAddr else 0) ++ List.replicate 10 0 ++
  beBytes 8 ident ++ beBytes 2 cseq ++ beBytes 2 addr ++ beBytes 1 l ++ beBytes 1 (b2n d.flkValid) ++
  List.replicate 8 0

/-- A control frame waits on a link; it is discarded when the link's four places are full (R529). -/
def Datapath.flkQueue (d : Datapath) (l : Nat) (bytes : List Byte) : Datapath :=
  let x := d.flkLink l
  if x.ctrl.length ≥ 4 then d else d.setFlk l { x with ctrl := x.ctrl ++ [bytes] }

/-- A HELLO is sent on a link (R527). -/
def Datapath.flkHello (d : Datapath) (l : Nat) : Datapath :=
  d.flkQueue l (d.flkControl l 1 1 d.flkIdent 0 (if d.flkValid then d.flkAddr else 0))

/-- A frame is flooded on every link in UP but one (R530). -/
def Datapath.flkFlood (d : Datapath) (except : Option Nat) (f : Nat → List Byte) : Datapath :=
  loop 32 (fun l d => if d.flkState l = FL.up && except ≠ some l then d.flkQueue l (f l) else d) d

/-- A claim for the candidate is flooded (R531). -/
def Datapath.flkSendClaim (d : Datapath) : Datapath :=
  let c := d.flk.cseq
  let d := d.flkFlood none (fun l => d.flkControl l 2 d.flkClaimTtl d.flkIdent c d.flkAddr)
  { d with flk := { d.flk with cseq := (c + 1) % 65536 } }.wr F.flkStat_TRIES (d.rd F.flkStat_TRIES + 1)

/-- The member enters CLAIMING with a candidate, and sends its first claim (R531). -/
def Datapath.flkStartClaim (d : Datapath) : Datapath :=
  ((((d.wr F.flkStat_STATE FA.claiming).wr F.flkStat_ADDR_VALID 0).wr F.flkStat_TRIES 0).wr F.flkStat_ADDR
    (d.rd F.flkAddr_ADDR)).flkSendClaim

/-- HELLO_US passes after the last claim (R531). -/
def Datapath.flkClaimTimer (d : Datapath) : Datapath :=
  if d.rd F.flkStat_STATE ≠ FA.claiming then d
  else if d.rd F.flkStat_TRIES < d.flkTries then d.flkSendClaim
  else ((d.wr F.flkStat_STATE FA.claimed).wr F.flkStat_ADDR_VALID 1).wr F.flkEvt_CLAIMED 1

/-- The member meets a rival while it claims (R531). -/
def Datapath.flkConflict (d : Datapath) (rival : Nat) : Datapath :=
  (((d.wr F.flkStat_STATE FA.conflict).wr F.flkRivalLo_ID rival).wr F.flkRivalHi_ID (rival / 2 ^ 32)).wr F.flkEvt_CONFLICT 1

/-- CMD CLAIM (R531). -/
def Datapath.flkCmdClaim (d : Datapath) : Datapath :=
  let st := d.rd F.flkStat_STATE
  if d.flkMode ≠ 0 && (st = FA.off || st = FA.conflict) then d.flkStartClaim else d

/-- CMD RELEASE (R531). -/
def Datapath.flkCmdRelease (d : Datapath) : Datapath :=
  if d.rd F.flkStat_STATE = FA.claimed then (d.wr F.flkStat_STATE FA.off).wr F.flkStat_ADDR_VALID 0 else d

/-- The role in force takes effect: at APPLY, and when PD19 powers on (R531, R534). At APPLY (`load`) FLK_ADDR takes ADDR of
the role, its reset value and the first address to claim (R511, R533); as PD19 powers on it keeps its value (R534). DEDUCED,
log entry 98. -/
def Datapath.flkRoleStart (d : Datapath) (load : Bool) : Datapath :=
  let d := if load then d.wr F.flkAddr_ADDR d.flkRoleAddr else d
  let d := (d.wr F.flkIdentLo_ID d.flkIdent).wr F.flkIdentHi_ID (d.flkIdent / 2 ^ 32)
  let d := loop 32 (fun l d => d.wr F.flkLinkStat_PORT ((d.flkPort l).getD 0) l) d
  if d.flkMode = 1 then
    ((d.wr F.flkStat_STATE FA.fixed).wr F.flkStat_ADDR_VALID 1).wr F.flkStat_ADDR d.flkRoleAddr
  else if d.flkMode = 2 then d.flkStartClaim
  else ((d.wr F.flkStat_STATE FA.off).wr F.flkStat_ADDR_VALID 0).wr F.flkStat_ADDR 0

/-! ## Neighbours (R527, R528) -/

/-- A change of a link's state is reported. -/
def Datapath.flkChg (d : Datapath) (l : Nat) : Datapath := d.wrBit F.flkLinkChg_CHG l true

/-- The port of a link enters UP. -/
def Datapath.flkPortUp (d : Datapath) (p : Nat) : Datapath :=
  match d.flkLinkOf p with
  | some l =>
    if d.flkState l = FL.down then
      ((d.setFlk l { d.flkLink l with count := 0 }).wr F.flkLinkStat_STATE FL.probing l).flkHello l
    else d
  | none => d

/-- The link's bit leaves FLK_LINK_UP, with CHG if it was in UP. -/
def Datapath.flkLose (d : Datapath) (l st : Nat) : Datapath :=
  let d' := if d.flkState l = FL.up then d.flkChg l else d
  (d'.wrBit F.flkLinkUp_UP l false).wr F.flkLinkStat_STATE st l

/-- The port of a link leaves UP. -/
def Datapath.flkPortDown (d : Datapath) (p : Nat) : Datapath :=
  match d.flkLinkOf p with
  | some l => d.flkLose l FL.down
  | none => d

/-- The links of the ports that a test selects go DOWN: their ports' domain went off while PD19 stays on (R527). -/
def Datapath.flkPortsDown (d : Datapath) (sel : Nat → Bool) : Datapath :=
  loop 32 (fun l d => if (d.flkPort l).any sel then d.flkLose l FL.down else d) d

/-- A valid HELLO updates the neighbour record of a link. -/
def Datapath.flkNeighbour (d : Datapath) (l : Nat) (raw : List Byte) : Datapath :=
  let id := be raw 30 8
  ((((d.wr F.flkNbrLo_ID id l).wr F.flkNbrHi_ID (id / 2 ^ 32) l).wr F.flkLinkStat_NBR_ADDR (be raw 40 2 % 4096) l).wr
    F.flkLinkStat_NBR_LINK (be raw 42 1 % 32) l).wr F.flkLinkStat_NBR_HAS_ADDR (be raw 43 1 % 2) l

/-- A valid HELLO arrives on a link. -/
def Datapath.flkRxHello (d : Datapath) (l : Nat) (raw : List Byte) : Datapath :=
  if d.flkState l = FL.probing then
    (((d.flkNeighbour l raw).setFlk l { d.flkLink l with exp := (flkAlive raw + 1) % 65536 }).wr
      F.flkLinkStat_STATE FL.up l).wrBit F.flkLinkUp_UP l true |>.flkChg l
  else if d.flkState l = FL.up then
    let old := d.rd F.flkNbrLo_ID l + d.rd F.flkNbrHi_ID l * 2 ^ 32
    let d := d.flkNeighbour l raw
    if old = be raw 30 8 then d else d.flkChg l
  else d

/-- A valid CLAIM or DEFEND arrives on a link: it is flooded and acted on, unless the flood cache holds it (R530,
R531). -/
def Datapath.flkRxFlooded (d : Datapath) (l kind : Nat) (raw : List Byte) : Datapath :=
  let ttl := be raw 15 1
  let id := be raw 30 8
  let cs := be raw 38 2
  let a := be raw 40 2 % 4096
  if d.flk.cache.contains (kind, id, cs) then d
  else
    let d := if 1 < ttl then
        let d := d.flkFlood (some l) (fun _ => overlay (raw.take 52) 15 [BitVec.ofNat 8 (ttl - 1)])
        { d with flk := { d.flk with cache := ((kind, id, cs) :: d.flk.cache).take 32 } }
      else d
    let st := d.rd F.flkStat_STATE
    if kind = 2 then
      if st = FA.claiming && a = d.flkAddr && id < d.flkIdent then d.flkConflict id
      else if (st = FA.claimed || st = FA.fixed) && a = d.flkAddr && id ≠ d.flkIdent then
        d.flkFlood none (fun k => d.flkControl k 3 d.flkClaimTtl id cs a)
      else d
    else if st = FA.claiming && id = d.flkIdent then d.flkConflict (Config.rivalOf cs a).toNat
    else d

/-- The trailer of a flock frame with good FCS on link l (R519, R528): its class, 0 NONE, 1 FCS, 2 STOMPED, with the
link's counters and EXP. -/
def Datapath.flkCheck (d : Datapath) (l : Nat) (raw : List Byte) : Datapath × Nat :=
  if !flkSealOk raw then ((d.flkCount l 1).wr F.flkEvt_SEAL_ERR 1, 1)
  else
    let alive := flkAlive raw
    let x := d.flkLink l
    let gap := (alive + 65536 - x.exp) % 65536
    if d.flkState l = FL.up && gap ≥ 32768 then (d.flkCount l 2, 1)
    else
      let d := if d.flkState l = FL.up then (d.flkCount l 3 gap).setFlk l { x with exp := (alive + 1) % 65536 } else d
      if flkRetract raw then (d.flkCount l 4, 2) else (d.flkCount l 0, 0)

/-- A control frame with good FCS ends on link l. -/
def Datapath.flkRxControl (d : Datapath) (l : Nat) (raw : List Byte) : Datapath :=
  let r := d.flkCheck l raw
  if r.2 = 1 then r.1
  else
    match fieldOf (be raw 14 1) 3 0 with
    | 1 => r.1.flkRxHello l raw
    | k => r.1.flkRxFlooded l k raw

end Sys2Proof.Machine
end

