-- ==== Sys2Proof/Machine/RxMac.lean ====
section
/-! DEFINITION. The receive MAC (spec/07): delimiting, length and FCS, the address filter, receive staging,
outcome tallies, pause and PFC reception, preempted frames, wake patterns. -/

namespace Sys2Proof.Machine

/-! ## Frame properties -/

/-- Frame classes RX_ERR of R208. -/
def RC.none : Nat := 0
def RC.fcs : Nat := 1
def RC.stomped : Nat := 2
def RC.length : Nat := 3
def RC.cut : Nat := 4
def RC.assembly : Nat := 5

/-- Whether a 16-bit value is one of the pen's two TPIDs (R200). -/
def Datapath.isTpid (d : Datapath) (pen v : Nat) : Bool :=
  v = d.rd F.penRxTpid_TPID_0 pen || v = d.rd F.penRxTpid_TPID_1 pen

/-- T, the number of tags a frame carries (R202). -/
def Datapath.tagsOf (d : Datapath) (pen : Nat) (raw : List Byte) : Nat :=
  if d.isTpid pen (be raw 12 2) then if d.isTpid pen (be raw 16 2) then 2 else 1 else 0

/-- The effective MAX_LEN of a frame on a line port (R202). -/
def Datapath.effMaxLen (d : Datapath) (p : Nat) (raw : List Byte) : Nat :=
  if d.pmMaxLen p = 0 then 1518 + 4 * d.tagsOf (penOf p) raw else d.pmMaxLen p

/-- The 48-bit address of an entry of a port (R211). -/
def Datapath.addrEntry (d : Datapath) (p e : Nat) : Nat :=
  let n := 8 * slotOf p + e
  d.rd F.penRxAddrHi_ADDR_HI (penOf p) n * 2 ^ 32 + d.rd F.penRxAddrLo_ADDR_LO (penOf p) n

/-- Whether an address entry of a port is valid (R211). -/
def Datapath.addrEn (d : Datapath) (p e : Nat) : Bool := d.flag F.penRxAddrHi_EN (penOf p) (8 * slotOf p + e)

/-- The 48-bit destination address of a frame, byte 0 most significant (R213). -/
def daOf (raw : List Byte) : Nat := be raw 0 6

/-- control_da of R213. -/
def Datapath.controlDa (d : Datapath) (p da : Nat) : Bool :=
  da = 0x0180C2000001 ||
    (d.flag F.penRxCtl_PAUSE_DA_OWN (penOf p) (slotOf p) && d.addrEn p 0 && d.addrEntry p 0 = da)

/-- ADDR_HIT of R213: the lowest matching entry, 8 broadcast, 9 group, 15 none. -/
def Datapath.addrHit (d : Datapath) (p da : Nat) : Nat :=
  match (List.range 8).find? (fun e => d.addrEn p e && d.addrEntry p e = da) with
  | some e => e
  | none =>
    if da = 0xFFFFFFFFFFFF && d.flag F.penRxFiltCtl_BCAST (penOf p) (slotOf p) then 8
    else if da.testBit 40 && d.flag F.penRxFiltCtl_MCAST_ALL (penOf p) (slotOf p) then 9
    else 15

/-- Whether the address filter drops a frame (R213). -/
def Datapath.filterDrops (d : Datapath) (p da : Nat) : Bool :=
  d.flag F.penRxFiltCtl_FILT_EN (penOf p) (slotOf p) && d.addrHit p da = 15 && !d.controlDa p da

/-- Whether a frame is a MAC control frame: it carries no tag (R219). -/
def Datapath.isControl (d : Datapath) (pen : Nat) (raw : List Byte) : Bool :=
  raw.length ≥ 14 && be raw 12 2 = 0x8808 && !d.isTpid pen 0x8808

/-! ## Staging -/

/-- The frames that hold an entry of a pen's receive staging (R214). -/
def Datapath.stagedOf (d : Datapath) (pen : Nat) : List (Nat × Frame) :=
  d.frames.filter (fun f => f.2.staged && f.2.inPen = pen)

/-- The reservation total of a pen in bytes (R215). -/
def Datapath.stagedBytes (d : Datapath) (pen : Nat) : Nat := Tab.sum (d.stagedOf pen) (fun _ f => f.resv)

/-- Whether a pen's staging accepts a frame that reserves r bytes (R215). -/
def Datapath.stageAccepts (d : Datapath) (pen r : Nat) : Bool :=
  (d.stagedOf pen).length < 128 && d.stagedBytes pen + r ≤ 65536

/-- Raises the high-water mark of a pen's staging to the present total (R217). -/
def Datapath.stageMark (d : Datapath) (pen : Nat) : Datapath :=
  d.wr F.penRxStageStat_BYTES_HWM (max (d.rd F.penRxStageStat_BYTES_HWM pen) (d.stagedBytes pen / 32)) pen

/-- The reservation of a frame on a port at its start (R215). -/
def Datapath.reservation (d : Datapath) (p : Nat) : Nat := 32 * ceilDiv (d.maxLenLimit p) 32

/-- A frame leaves the block before any copy of it exists: it frees its staging and its place in the ready order
(R213, R214). -/
def Datapath.dropFrame (d : Datapath) (f : Nat) : Datapath :=
  match d.frame f with
  | none => d
  | some x =>
    ({ d with frames := Tab.erase d.frames f }).setReady x.inPen ((d.readyOf x.inPen).filter (· ≠ f))

/-- A sample takes its data once the length of the frame it samples is known (R322): `bytes` are that frame's bytes
before the strip of the sampled pass. -/
def Frame.fillSample (y : Frame) (bytes : List Byte) (cls : Nat) : Frame :=
  let b := stripBytes y.strip bytes
  let all := overlay y.bytes 4 (leBytes 2 b.length) ++ b.take y.trunc
  { y with bytes := all, ended := true, len := all.length, rxErr := cls }

/-- The samples of a frame that has ended take their data. -/
def Datapath.fillSamples (d : Datapath) (f : Nat) (bytes : List Byte) (cls : Nat) : Datapath :=
  { d with frames := d.frames.map (fun e =>
      if e.2.sample && e.2.sampleOf = f && !e.2.ended then (e.1, e.2.fillSample bytes cls) else e) }

/-! ## Receive paths of a port -/

/-- The receive MAC of a port. -/
def Datapath.rxPort (d : Datapath) (p : Nat) : RxPort := Tab.get d.rx p {}

/-- Replaces the receive MAC of a port. -/
def Datapath.setRx (d : Datapath) (p : Nat) (x : RxPort) : Datapath := { d with rx := Tab.put d.rx p x {} }

/-- Whether a port receives frames: UP or REMOTE_FAULT (R201), and not in far-end loopback (R192). -/
def Datapath.rxOpen (d : Datapath) (p : Nat) : Bool :=
  (d.linkState p = LS.up || d.linkState p = LS.remoteFault) && d.rd F.penLinkCtl_LOOP (penOf p) (slotOf p) ≠ 2

/-- The bytes that the flock receive lets through of those received: all but the last 12 of a flock frame (R518). -/
def RxFrame.flkHeld (x : RxFrame) (bytes : List Byte) : List Byte :=
  if x.flk = .local' || x.flk = .transit then bytes.take (bytes.length - 12) else bytes

/-- A frame starts on a path of a port: the staging decision, and a frame record of the accepted frame (R215). -/
def Datapath.rxOpenFrame (d : Datapath) (p : Nat) (ts : Option Time) (pre : Bool) (count : Nat) :
    Datapath × RxFrame :=
  let pen := penOf p
  let r := d.reservation p
  if d.stageAccepts pen r then
    let fr : Frame := { pen := pen, port := p, inPen := pen, rxTs := ts, rxHold := d.holdover (d.pmTb p), staged := true, resv := r,
                        preempted := pre, info := { port := p } }
    let (d, f) := d.newFrame fr
    (d.stageMark pen, { fid := some f, accepted := true, count := count, inFrag := true })
  else (d, { count := count, inFrag := true })

/-- The frame count that an SMD-S byte names (R227). -/
def smdS (b : Nat) : Option Nat :=
  match b with
  | 0xE6 => some 0 | 0x4C => some 1 | 0x7F => some 2 | 0xB3 => some 3 | _ => none

/-- The frame count that an SMD-C byte names (R227). -/
def smdC (b : Nat) : Option Nat :=
  match b with
  | 0x61 => some 0 | 0x52 => some 1 | 0x2A => some 2 | 0x9E => some 3 | _ => none

/-- Bytes 0 on of a frame in reception that are known to be its own: the last four bytes so far of a fragment may be check
bytes, which are dropped (R228). -/
def RxFrame.known (x : RxFrame) : List Byte := x.raw ++ x.frag.take (x.frag.length - 4)

/-- The address filter and the staging outcome are decided when byte 5 has arrived (R213, R216). -/
def Datapath.rxDecide (d : Datapath) (p : Nat) (x : RxFrame) : Datapath × RxFrame :=
  if x.filtered || x.dropped || x.known.length < 6 then (d, x)
  else
    let da := daOf x.known
    if d.filterDrops p da then
      let d := d.tallyAdd p T.RX_ADDR_DROP
      let d := match x.fid with
        | some f => d.dropFrame f
        | none => d
      (d, { x with filtered := true, dropped := true, fid := none })
    else if !x.accepted then (d.tallyAdd p T.RX_OVERFLOW, { x with filtered := true, dropped := true })
    else (d, { x with filtered := true, addrHit := d.addrHit p da })

/-- Bytes from 14 on of a flock frame have arrived: it is dropped, consumed by the FLK unit, or passes on as a local or
a transit frame (R513, R518 to R521). Its receive tallies go on as for any frame. -/
def Datapath.rxFlock (d : Datapath) (watch : Bool) (p : Nat) (x : RxFrame) : Datapath × RxFrame :=
  match d.flkLinkOf p, x.fid with
  | some l, some f =>
    if watch || x.flk ≠ .plain || x.known.length < 15 || !d.flkFrame (d.tagsOf (penOf p) x.known) x.known then (d, x)
    else
      let r := d.flkHeader l x.known
      let d := match r.2 with
        | some j => d.flkDrop j
        | none => d
      match r.1 with
      | .plain => (d, x)
      | .transit => (d.modFrame f (fun y => { y with transit := true }), { x with flk := .transit })
      | .local' => (d, { x with flk := .local' })
      | m => (d.dropFrame f, { x with flk := m, fid := none })
  | _, _ => (d, x)

/-- The bytes so far are passed on, the frame is marked LENGTH past the effective MAX_LEN, and it becomes ready
at 256 bytes (R206, R214). A control frame that is not forwarded, and any frame in WATCH, is never offered to
a parse (R219, R233). -/
def Datapath.rxPass (d : Datapath) (watch : Bool) (p : Nat) (x : RxFrame) : Datapath × RxFrame :=
  match x.fid with
  | none => (d, x)
  | some f =>
    let raw := x.known
    if raw.length < 64 then (d, x)
    else
      let m := d.effMaxLen p raw
      let d := d.modFrame f (fun y => { y with
        bytes := stripBytes y.strip ((x.flkHeld raw).take m), addrHit := x.addrHit, tags := d.tagsOf (penOf p) raw })
      let fwd := !d.isControl (penOf p) raw || d.flag F.penRxCtl_CTRL_FWD (penOf p) (slotOf p)
      let d := if (x.flkHeld raw).length ≥ 256 && fwd && !watch then d.makeReady f else d
      (d, { x with long := x.long || raw.length > m })

/-- The points of the receive MAC that a frame's bytes so far have reached are passed (R206, R213, R214, R518). -/
def Datapath.rxPoints (d : Datapath) (watch : Bool) (p : Nat) (x : RxFrame) : Datapath × RxFrame :=
  let r := d.rxDecide p x
  let r := r.1.rxFlock watch p r.2
  r.1.rxPass watch p r.2

/-- Bytes arrive on a port, on the path that is receiving: the express frame, a verify or respond frame, or the
fragment of the reassembly path; the points of the receive MAC they cross are passed (R206, R213, R214). -/
def Datapath.rxBytes (d : Datapath) (watch : Bool) (p : Nat) (bs : List Byte) : Datapath :=
  let x := d.rxPort p
  match x.express, x.mmFrame, x.pre with
  | some y, _, _ =>
    let (d, y) := d.rxPoints watch p { y with raw := y.raw ++ bs }
    d.setRx p { d.rxPort p with express := some y }
  | none, some (c, r), _ => d.setRx p { x with mmFrame := some (c, r ++ bs) }
  | none, none, some y =>
    if !y.inFrag then d
    else
      let (d, y) := d.rxPoints watch p { y with frag := y.frag ++ bs }
      d.setRx p { d.rxPort p with pre := some y }
  | none, none, none => d

/-! ## Pause (R219 to R225) -/

/-- Sets the pause state of a class of a port. -/
def Datapath.setPause (d : Datapath) (p c : Nat) (x : PauseClass) : Datapath :=
  d.setRx p { d.rxPort p with pause := modAt (fun _ => x) (d.rxPort p).pause c }

/-- The pause state of a class of a port. -/
def Datapath.pauseOf (d : Datapath) (p c : Nat) : PauseClass := (d.rxPort p).pause.getD c {}

/-- Marks that a class of the port entered or left STORM (R222). -/
def Datapath.stormChg (d : Datapath) (p : Nat) : Datapath :=
  d.wrBit F.penRxStormChg_CHG (slotOf p) true (penOf p)

/-- The WD_EN bit of a class (R199). -/
def Datapath.wdEn (d : Datapath) (p c : Nat) : Bool := d.rdBit F.penRxCtl_WD_EN c (penOf p) (slotOf p)

/-- A pause value q for a class: a pausing frame when q > 0, else a releasing frame (R223). -/
def Datapath.applyPause (d : Datapath) (p c q : Nat) : Datapath :=
  let x := d.pauseOf p c
  match x.st with
  | .running => if q = 0 then d else d.setPause p c { st := .paused, quanta := q }
  | .paused => if q = 0 then d.setPause p c {} else d.setPause p c { x with quanta := q }
  | .storm => if q = 0 then d else d.meet .pauseFrame (8 * p + c)

/-- The class enters STORM (R223); with WD_ACTION 1 its queue begins to discard (R358). -/
def Datapath.enterStorm (d : Datapath) (p c : Nat) : Datapath :=
  ((d.setPause p c { st := .storm, drop := d.flag F.penRxCtl_WD_ACTION (penOf p) (slotOf p) }).stormChg p).tallyAdd
    p T.PAUSE_STORM

/-- A class's pause timer expires (R223). -/
def Datapath.pauseTimer (d : Datapath) (p c : Nat) : Datapath :=
  if (d.pauseOf p c).st = .paused then d.setPause p c {} else d

/-- W reaches LIMIT: STORM with the WD_EN bit set, else W stops there (R223). -/
def Datapath.pauseWatchdog (d : Datapath) (p c : Nat) : Datapath :=
  let x := d.pauseOf p c
  if x.st = .paused then
    if d.wdEn p c then d.enterStorm p c else d.setPause p c { x with wLimit := true }
  else d

/-- The restore counter reaches RESTORE (R223). -/
def Datapath.stormRestore (d : Datapath) (p c : Nat) : Datapath :=
  if (d.pauseOf p c).st = .storm then (d.setPause p c {}).stormChg p else d

/-- After a write of PEN_RX_CTL: a bit written 1 while W stands at LIMIT enters STORM, a bit written 0 ends it
(R223). -/
def Datapath.wdWritten (d : Datapath) (p : Nat) : Datapath :=
  loop 8 (fun c d =>
    let x := d.pauseOf p c
    if d.wdEn p c then if x.st = .paused && x.wLimit then d.enterStorm p c else d
    else if x.st = .storm then (d.setPause p c {}).stormChg p else d) d

/-- The port leaves UP and REMOTE_FAULT: every class returns to RUNNING, with CHG if one was in STORM (R223). -/
def Datapath.pauseClear (d : Datapath) (p : Nat) : Datapath :=
  loop 8 (fun c d =>
    let d := if (d.pauseOf p c).st = .storm then d.stormChg p else d
    d.setPause p c {}) d

/-- A good control frame of allowed length is counted and acted on (R219, R220). -/
def Datapath.rxControl (d : Datapath) (p : Nat) (raw : List Byte) : Datapath :=
  let op := be raw 14 2
  let pfcTc := d.pmPfcTc p
  if !d.controlDa p (daOf raw) || (op ≠ 1 && op ≠ 0x0101) then d.tallyAdd p T.RX_CTRL_UNKNOWN
  else if op = 1 then
    let d := d.tallyAdd p T.RX_PAUSE
    if d.flag F.penRxCtl_PAUSE_RX (penOf p) (slotOf p) && pfcTc = 0 then
      loop 8 (fun c d => d.applyPause p c (be raw 16 2)) d
    else d.tallyAdd p T.RX_PAUSE_IGNORED
  else
    let d := d.tallyAdd p T.RX_PFC
    let en := be raw 17 1 &&& pfcTc
    if en = 0 then d.tallyAdd p T.RX_PAUSE_IGNORED
    else loop 8 (fun c d => if en.testBit c then d.applyPause p c (be raw (18 + 2 * c) 2) else d) d

/-! ## Wake patterns (R231 to R233) -/

/-- Whether pattern w of a pen matches a frame of port p by DATA and MASK (R232). -/
def Datapath.wakeData (d : Datapath) (pen w : Nat) (bytes : List Byte) : Bool :=
  (List.range 32).all (fun k =>
    (List.range 4).all (fun j =>
      let m := fieldOf (d.rd F.penWakeMask_MASK pen (32 * w + k)) (8 * j + 7) (8 * j)
      let v := fieldOf (d.rd F.penWakeData_DATA pen (32 * w + k)) (8 * j + 7) (8 * j)
      m = 0 || (4 * k + j < bytes.length && ((byteAt bytes (4 * k + j)).toNat &&& m) = (v &&& m))))

/-- Whether bytes 12 to 511 hold six bytes of 0xFF and sixteen copies of the port's address entry 0 (R232). -/
def Datapath.wakeMagic (d : Datapath) (p : Nat) (bytes : List Byte) : Bool :=
  let pat := List.replicate 6 (0xFF : Byte) ++ (List.replicate 16 (beBytes 6 (d.addrEntry p 0))).flatten
  let win := (bytes.take 512).drop 12
  d.addrEn p 0 && (List.range (win.length + 1)).any (fun i => ((win.drop i).take pat.length) = pat)

/-- The set of wake patterns that a frame of a port matches (R232). -/
def Datapath.wakeMatches (d : Datapath) (p : Nat) (bytes : List Byte) : Nat :=
  let pen := penOf p
  ofBits 4 (fun w =>
    d.flag F.penWakeCtl_EN pen w && d.rdBit F.penWakeCtl_PORTS (slotOf p) pen w &&
      (if d.flag F.penWakeCtl_MAGIC pen w then d.wakeMagic p bytes else d.wakeData pen w bytes))

/-- A good frame of allowed length that passed the filter ends in WATCH: the matcher examines it, FCS included, and a match
sends a wake request. A match in the clock of a clear of HIT takes no capture (R232, R233). -/
def Datapath.rxMatch (d : Datapath) (p : Nat) (bytes : List Byte) : Datapath :=
  let pen := penOf p
  let m := d.wakeMatches p bytes
  if m = 0 then d
  else
    let d := { d.tallyAdd p T.WAKE_MATCH with wakeReq := (pen :: d.wakeReq).eraseDups }
    let d := if d.rd F.penWakeHit_HIT pen = 0 && !d.meets .wakeHit pen then
        (loop 32 (fun k d => d.wr F.penWakeCap_CAP (le (bytes.take 128) (4 * k) 4) pen k) d).wr
          F.penWakeHit_SLOT (slotOf p) pen
      else d
    d.wr F.penWakeHit_HIT (d.rd F.penWakeHit_HIT pen ||| m) pen

/-- A frame that a sentinel pen would pass on ends in WATCH: it is discarded, and examined if it is good and of allowed
length (R232, R233). -/
def Datapath.rxWatch (d : Datapath) (p : Nat) (bytes : List Byte) (good : Bool) : Datapath :=
  let d := d.tallyAdd p T.WAKE_DISCARD
  if good then d.rxMatch p bytes else d

/-! ## Frame ends -/

/-- The outcome of a complete frame by length and FCS (R205, R218): its tally, and its class when it is passed
on. -/
def lengthOutcome (len maxLen : Nat) (k : FcsKind) : Nat × Option Nat :=
  if len ≤ 63 then (if k = .good then T.RX_UNDERSIZE else T.RX_FRAGMENT, none)
  else if len > maxLen then (if k = .good then T.RX_OVERSIZE else T.RX_JABBER, some RC.length)
  else match k with
    | .good => (T.RX_OK, some RC.none)
    | .stomped => (T.RX_STOMPED, some RC.stomped)
    | _ => (T.RX_FCS_ERR, some RC.fcs)

/-- The bytes of a frame that are passed on at its end (R206, R237): without FCS for classes NONE, FCS and
STOMPED, cut to the effective MAX_LEN otherwise. -/
def passedBytes (raw : List Byte) (maxLen cls : Nat) : List Byte :=
  if cls = RC.none || cls = RC.fcs || cls = RC.stomped then raw.take (raw.length - 4) else raw.take maxLen

/-- The staging of a frame at its end, or as sectors of an ended frame leave: what it still holds, and its entry until
nothing is left (R214, R215). -/
def Frame.endStaged (y : Frame) : Frame :=
  let left := sectorsOf (y.bytes.length + y.fcsLen) - y.written
  { y with staged := y.staged && left ≠ 0, resv := if y.staged then 32 * left else 0 }

/-- The end of a frame that keeps its place in the block: class, length and metadata are final, its reservation
falls to what it still holds, and it is ready (R208, R214, R215, R218). -/
def Datapath.rxFinal (d : Datapath) (p f : Nat) (x : RxFrame) (cls : Nat) : Datapath :=
  let raw := x.raw
  let bytes :=
    if x.flk = .local' || x.flk = .transit then (x.flkHeld raw).take (d.effMaxLen p raw)
    else passedBytes raw (d.effMaxLen p raw) cls
  let len := if x.flk = .local' || x.flk = .transit then raw.length - 8 else raw.length
  ((d.fillSamples f bytes cls).modFrame f (fun y =>
    let b := stripBytes y.strip bytes
    let n := if cls = RC.none || cls = RC.fcs || cls = RC.stomped then 4 else 0
    ({ y with
       bytes := b, fcsLen := n, ended := true, len := len, tags := d.tagsOf (penOf p) raw, addrHit := x.addrHit,
       rxErr := cls } : Frame).endStaged)).makeReady f

/-- A frame that is cut, or ends in a reassembly error, with 64 or more bytes: it is passed on with its class, unless it is a
control frame that is not forwarded or the block is in WATCH (R208, R219, R229, R233). -/
def Datapath.rxBroken (d : Datapath) (watch : Bool) (p f : Nat) (x : RxFrame) (cls : Nat) : Datapath :=
  if d.isControl (penOf p) x.raw && !d.flag F.penRxCtl_CTRL_FWD (penOf p) (slotOf p) then d.dropFrame f
  else if watch then (d.dropFrame f).rxWatch p x.raw false
  else d.rxFinal p f x cls

/-- The outcome of an error in reassembly: a frame of 64 or more bytes is passed on with class ASSEMBLY, a shorter one
dropped; either is counted in MM_ASSY_ERR, but for a frame without staging that ends before byte 5, which is counted in
RX_FRAGMENT (R216, R218, R229). A frame dropped before is not counted again. -/
def Datapath.assemblyError (d : Datapath) (watch : Bool) (p : Nat) (x : RxFrame) : Datapath :=
  if x.dropped then d
  else if !x.accepted then d.tallyAdd p T.RX_FRAGMENT
  else
    let d := d.tallyAdd p T.MM_ASSY_ERR
    match x.fid with
    | none => d
    | some f => if x.raw.length < 64 then d.dropFrame f else d.rxBroken watch p f { x with frag := [] } RC.assembly

/-- A start delimiter arrives on a port: the byte in the SFD position and, after SMD-C, the fragment count byte
(R201, R227, R229). -/
def Datapath.rxStart (d : Datapath) (watch : Bool) (p : Nat) (smd frag : Nat) (ts : Option Time) : Datapath :=
  if !d.rxOpen p then d
  else
    let x := d.rxPort p
    let mmEn := d.flag F.penRxCtl_MM_RX_EN (penOf p) (slotOf p)
    let endPre (d : Datapath) : Datapath :=
      match x.pre with
      | some y => (d.assemblyError watch p y).setRx p { d.rxPort p with pre := none }
      | none => d
    if smd = 0xD5 then
      let (d, y) := d.rxOpenFrame p ts false 0
      d.setRx p { d.rxPort p with express := some y }
    else if smd = 0x07 || smd = 0x19 then d.setRx p { x with mmFrame := some (smd, []) }
    else
      match smdS smd, smdC smd with
      | some n, _ =>
        if !mmEn then endPre (d.tallyAdd p T.MM_SMD_ERR)
        else
          let d := endPre d
          let (d, y) := d.rxOpenFrame p ts true n
          d.setRx p { d.rxPort p with pre := some y }
      | none, some n =>
        if !mmEn then endPre (d.tallyAdd p T.MM_SMD_ERR)
        else
          match x.pre with
          | none => d.tallyAdd p T.MM_SMD_ERR
          | some y =>
            if n = y.count && y.nextFrag.isSome && smdS frag = y.nextFrag then
              d.setRx p { x with pre := some { y with inFrag := true, frag := [] } }
            else endPre d
      | none, none => d.tallyAdd p T.MM_SMD_ERR

/-- A frame of a path ends complete (R205, R218, R219). The path has been cleared by the caller. -/
def Datapath.rxComplete (d : Datapath) (watch : Bool) (p : Nat) (x : RxFrame) : Datapath :=
  let raw := x.raw
  if x.dropped then d
  else
    let m := d.effMaxLen p raw
    let k := fcsKind raw
    let (tally, cls) := lengthOutcome raw.length m k
    let flk (d : Datapath) : Datapath × Nat :=
      match d.flkLinkOf p with
      | some l => if k = .good && raw.length ≥ 64 then d.flkCheck l raw else (d, RC.none)
      | none => (d, RC.none)
    if !x.accepted then d.tallyAdd p T.RX_FRAGMENT
    else
      match x.fid with
      | none =>
        if x.flk = .plain then d
        else
          let d := d.tallyAdd p tally
          let d := if tally = T.RX_OK then d.tallyRx p raw.length raw else d
          if x.flk = .control && k = .good && raw.length ≥ 64 then
            match d.flkLinkOf p with
            | some l => d.flkRxControl l raw
            | none => d
          else if x.flk = .bad then (flk d).1
          else d
      | some f =>
        let fwd := d.flag F.penRxCtl_CTRL_FWD (penOf p) (slotOf p)
        let control := d.isControl (penOf p) raw
        if control && tally = T.RX_OK then
          let d := d.rxControl p raw
          if fwd && !watch then d.rxFinal p f x RC.none
          else
            let d := d.dropFrame f
            if fwd then d.rxWatch p raw true else if watch then d.rxMatch p raw else d
        else
          let d := d.tallyAdd p tally
          let d := if tally = T.RX_OK then d.tallyRx p raw.length raw else d
          match cls with
          | none => d.dropFrame f
          | some c =>
            if control && !fwd then d.dropFrame f
            else if watch then (d.dropFrame f).rxWatch p raw (tally = T.RX_OK)
            else if x.flk = .plain then d.rxFinal p f x c
            else
              let r := flk d
              r.1.rxFinal p f x (if r.2 = 1 then max c RC.fcs else if r.2 = 2 then max c RC.stomped else c)

/-- A frame of a path is cut (R209): by an error character, or by a change of the receive side. -/
def Datapath.rxCutFrame (d : Datapath) (watch : Bool) (p : Nat) (x : RxFrame) (errChar : Bool) : Datapath :=
  if x.dropped then d
  else
    let raw := x.raw ++ x.frag
    if raw.length < 64 then
      let d := d.tallyAdd p T.RX_FRAGMENT
      match x.fid with
      | some f => d.dropFrame f
      | none => d
    else
      let d := d.tallyAdd p (if errChar then T.RX_ERR_CHAR else T.RX_CUT)
      match x.fid with
      | none => d
      | some f => d.rxBroken watch p f { x with raw := raw, frag := [] } RC.cut

/-- The terminate control character arrives on a port: the express frame ends (R201). -/
def Datapath.rxEnd (d : Datapath) (watch : Bool) (p : Nat) (bs : List Byte) : Datapath :=
  let d := d.rxBytes watch p bs
  match (d.rxPort p).express with
  | some x => (d.setRx p { d.rxPort p with express := none }).rxComplete watch p x
  | none => d

/-- An error control character arrives on a port: the frame in reception is cut (R209). -/
def Datapath.rxCut (d : Datapath) (watch : Bool) (p : Nat) (bs : List Byte) : Datapath :=
  let d := d.rxBytes watch p bs
  let x := d.rxPort p
  match x.express, x.mmFrame, x.pre with
  | some y, _, _ => (d.setRx p { x with express := none }).rxCutFrame watch p y true
  | none, some _, _ => (d.setRx p { x with mmFrame := none }).tallyAdd p T.MM_SMD_ERR
  | none, none, some y =>
    if y.inFrag then (d.setRx p { x with pre := none }).rxCutFrame watch p y true else d
  | none, none, none => d

/-- The port stops receiving: every frame in reception or reassembly is cut (R209, R229). -/
def Datapath.rxCutAll (d : Datapath) (watch : Bool) (p : Nat) : Datapath :=
  let x := d.rxPort p
  let d := d.setRx p { x with express := none, pre := none, mmFrame := none }
  let d := match x.express with
    | some y => d.rxCutFrame watch p y false
    | none => d
  match x.pre with
  | some y => d.rxCutFrame watch p y false
  | none => d

/-- Whether a frame that ends complete is reassembled without error (R228): accepted, kept, of allowed length and good. -/
def Datapath.assembled (d : Datapath) (p : Nat) (x : RxFrame) : Bool :=
  x.accepted && !x.dropped && 1 ≤ x.frags &&
    (lengthOutcome x.raw.length (d.effMaxLen p x.raw) (fcsKind x.raw)).1 = T.RX_OK

/-- A fragment of a preemptable frame ends: by its mCRC it is continued, or it is final and the reassembled frame
is judged (R228). MM_FRAG_RX counts the fragments that end while their frame is in reassembly: the rule does not say whether
discarded fragments and those cut by an error character count, and leaving them out is the model's choice, log entry 85. -/
def Datapath.rxFragmentEnd (d : Datapath) (watch : Bool) (p : Nat) (bs : List Byte) : Datapath :=
  let x := d.rxPort p
  match x.pre with
  | none => d
  | some y =>
    if !y.inFrag || x.express.isSome || x.mmFrame.isSome then d
    else
      let d := d.tallyAdd p T.MM_FRAG_RX
      let all := y.raw ++ y.frag ++ bs
      if fcsKind all = .mcrc then
        let next := match y.nextFrag with
          | none => 0
          | some n => (n + 1) % 4
        let r := d.rxPoints watch p { y with raw := all.take (all.length - 4), frag := [] }
        r.1.setRx p { r.1.rxPort p with
          pre := some { r.2 with inFrag := false, frags := y.frags + 1, nextFrag := some next } }
      else
        let r := d.rxPoints watch p { y with raw := all, frag := [], frags := y.frags }
        let d := r.1.setRx p { r.1.rxPort p with pre := none }
        let d := if d.assembled p r.2 then d.tallyAdd p T.MM_ASSY_OK else d
        d.rxComplete watch p r.2

/-- Whether a verify or respond frame is valid: 64 bytes with a good mCRC (R230). -/
def mmValid (bytes : List Byte) : Bool := bytes.length = 64 && fcsKind bytes = .mcrc

end Sys2Proof.Machine
end

