-- ==== Sys2Proof/Machine/Parser.lean ====
section
/-! DEFINITION. The parser and the grazer (spec/08): sort key, profiles, key vector, metadata, parse failures,
graze windows and results. -/

namespace Sys2Proof.Machine

/-! ## Tables in force -/

/-- The PARSE_PROFILE record of a profile of a pen, all 0 where no section named it (R244, R254). -/
def Datapath.profileRec (d : Datapath) (pen p : Nat) : List Byte :=
  Tab.get d.profile (256 * pen + p) (List.replicate 144 0)

/-- Whether a profile may be used (R244). -/
def Datapath.profileValid (d : Datapath) (pen p : Nat) : Bool := bit (le (d.profileRec pen p) 2 1) 0

/-- An extraction of a profile (R246). -/
structure Extract where
  mask : Nat
  dst : Nat
  src : Nat
  optional : Bool
  len : Nat
  ofs : Nat
  deriving DecidableEq, Repr

/-- Extraction x of a profile record (R246); `len` is the number of bytes. -/
def extractOf (r : List Byte) (x : Nat) : Extract :=
  let w := le r (16 + 4 * x) 4
  { mask := fieldOf w 31 24, dst := fieldOf w 21 16, src := fieldOf w 15 14, optional := bit w 13,
    len := fieldOf w 11 8 + 1, ofs := fieldOf w 7 0 }

/-- Lookup word t of a profile record: table and key start in bytes, if enabled (R245). -/
def lookupOf (r : List Byte) (t : Nat) : Option (Nat × Nat) :=
  let w := le r (8 + 2 * t) 2
  if bit w 15 then some (fieldOf w 14 11, 4 * fieldOf w 10 7) else none

/-- GRAZE_OFS and GRAZE_LEN of a profile record (R244). -/
def grazeOf (r : List Byte) : Nat × Nat := (le r 4 2, le r 6 2)

/-! ## Sort key -/

/-- Whether position p lies within the frame (R237): `e` is E, none where every byte of the head window lies
within. -/
def within (e : Option Nat) (p : Nat) : Bool :=
  match e with
  | some n => p < n
  | none => true

/-- Sort field f of a pass: its value, if it is present (R239, R241). -/
def Datapath.sortField (d : Datapath) (pen f : Nat) (bytes : List Byte) (base : Nat) (e : Option Nat) : Option Nat :=
  let o := d.rd F.penSortField_OFS pen f
  if o = 0xFF || !within e (base + o + 1) then none else some (be bytes (base + o) 2)

/-- The 80-bit sort key of a pass (R241). -/
def Datapath.sortKey (d : Datapath) (pen : Nat) (x : Frame) (hint : Nat) (e : Option Nat) : Nat :=
  let i := x.info
  let t := if pen < 32 then x.tags else 0
  let fv (f : Nat) : Option Nat := d.sortField pen f x.bytes i.base e
  min (i.pass - 1) 3 * 2 ^ 78 + t * 2 ^ 76 + ofBits 4 (fun f => (fv f).isSome) * 2 ^ 72 + hint * 2 ^ 64 +
    (fv 3).getD 0 * 2 ^ 48 + (fv 2).getD 0 * 2 ^ 32 + (fv 1).getD 0 * 2 ^ 16 + (fv 0).getD 0

/-- Whether a SORT_TABLE record matches a key (R242, R243). -/
def sortMatches (key : Nat) (r : List Byte) : Bool :=
  let m := le r 14 10
  bit (le r 3 1) 0 && (key &&& m) = (le r 4 10 &&& m)

/-- The profile that the sort table selects, if any (R242). -/
def Datapath.sortSelect (d : Datapath) (pen key : Nat) : Option Nat :=
  match d.sortTab.find? (fun e => e.1 / 1024 = pen && sortMatches key e.2) with
  | some e => if d.profileValid pen (le e.2 2 1) then some (le e.2 2 1) else none
  | none => none

/-! ## Key vector -/

/-- The key vector under construction, or the extraction at which it failed SHORT (R247). -/
inductive KvState where
  | run (kv : List Byte) (short : Nat)
  | short (x : Nat)
  deriving DecidableEq, Repr

/-- Byte j of extraction x (R247). -/
def extractByte (meta' bytes : List Byte) (base : Nat) (e : Option Nat) (x : Nat) (ex : Extract) (st : KvState)
    (j : Nat) : KvState :=
  match st with
  | .short k => .short k
  | .run kv sv =>
    let put (v : Byte) (sv : Nat) : KvState :=
      let v := if j = 0 then v &&& BitVec.ofNat 8 ex.mask else v
      .run (overlay kv (ex.dst + j) [v]) sv
    match ex.src with
    | 0 =>
      let p := base + ex.ofs + j
      if within e p then put (byteAt bytes p) sv
      else if ex.optional then put 0 (setBit sv x true)
      else .short x
    | 1 => put (byteAt meta' (ex.ofs + j)) sv
    | _ => put (BitVec.ofNat 8 ex.ofs) sv

/-- The key vector of a pass under a profile record (R247). -/
def buildKv (r meta' bytes : List Byte) (base : Nat) (e : Option Nat) : KvState :=
  (List.range (min (le r 3 1) 32)).foldl (fun st x =>
    let ex := extractOf r x
    (List.range ex.len).foldl (extractByte meta' bytes base e x ex) st) (.run (List.replicate 64 0) 0)

/-- The metadata block of a pass (R249). PREEMPTED and ADDR_HIT stay those of the frame's reception on its loop passes; T is 0
there, as in the sort key (R241). -/
def metadataOf (pen : Nat) (x : Frame) (hint : Nat) : List Byte :=
  let i := x.info
  let p := i.prev
  let first := match p.first with
    | some f => (2 ^ 15 + f.1, f.2)
    | none => (0, 0)
  beBytes 2 i.port ++ beBytes 1 i.pass ++
  beBytes 1 ((if pen < 32 then x.tags else 0) * 64 + b2n x.preempted * 32) ++
  beBytes 1 x.addrHit ++ beBytes 1 hint ++ beBytes 2 i.base ++
  beBytes 1 i.prevProfile ++ beBytes 1 (p.state * 64) ++ beBytes 2 first.1 ++ beBytes 2 first.2 ++
  beBytes 2 (match x.tx with
    | some t => t.tenant
    | none => 0) ++
  beBytes 8 p.hits ++
  beBytes 2 (match x.tx with
    | some t => t.txq
    | none => 0) ++
  List.replicate 6 0

/-! ## Parse results and failures -/

/-- How a profile runs on a pass. -/
inductive ParseOut where
  | noProfile
  | short (ext profile : Nat)
  | ok (profile : Nat) (kv : List Byte) (shortOpt : Nat)
  deriving DecidableEq, Repr

/-- Runs a profile on a pass; `noProfile` where it has VALID = 0 (R242, R247). -/
def Datapath.runProfile (d : Datapath) (pen prof : Nat) (x : Frame) (hint : Nat) (e : Option Nat) : ParseOut :=
  if !d.profileValid pen prof then .noProfile
  else
    match buildKv (d.profileRec pen prof) (metadataOf pen x hint) x.bytes x.info.base e with
    | .run kv sv => .ok prof kv sv
    | .short k => .short k prof

/-- Captures the first parse failure since NEW was cleared; one in the clock of the clear only leaves NEW 1 (R252). -/
def Datapath.parseStat (d : Datapath) (pen kind ext slot pass prof : Nat) : Datapath :=
  if d.flag F.penParseStat_NEW pen then d
  else if d.meets .parseNew pen then d.wr F.penParseStat_NEW 1 pen
  else
    ((((((d.wr F.penParseStat_NEW 1 pen).wr F.penParseStat_KIND kind pen).wr F.penParseStat_EXT ext pen).wr
      F.penParseStat_SLOT slot pen).wr F.penParseStat_PASS (min (pass - 1) 3) pen).wr F.penParseStat_PROFILE prof pen)

/-- The index of PEN_PARSE_PORT that belongs to an input port. -/
def parseIdx (p : Nat) : Nat := slotOf p

/-- DEF_MODE of an input port, 3 acting as 0 (R240). -/
def Datapath.defMode (d : Datapath) (p : Nat) : Nat :=
  let m := d.rd F.penParsePort_DEF_MODE (penOf p) (parseIdx p)
  if m = 3 then 0 else m

/-- Whether a port is a valid forwarding target: a carved and enabled line port, or a client port 512 to 517 (R307). -/
def Datapath.validTarget (d : Datapath) (p : Nat) : Bool := p < 518 && (512 ≤ p || (d.carved p && d.enabled p))

/-- Whether a default verdict may send to a port: a line port that is carved and enabled, or an enabled client port (R251). -/
def Datapath.defTarget (d : Datapath) (p : Nat) : Bool := d.validTarget p && d.enabled p

/-- The verdict of DEF_MODE 1 (R251). -/
def Datapath.defVerdict (d : Datapath) (p : Nat) : Verdict :=
  let pen := penOf p
  { fwd := some { kind := 0, target := d.rd F.penParsePort_DEF_PORT pen (parseIdx p), queue := 0, qvalid := false },
    tc := d.rd F.penParsePort_DEF_TC pen (parseIdx p) }

/-! ## Grazer -/

/-- A byte as a caseless comparison sees it (R256, R258). -/
def lowerByte (b : Byte) : Byte := if 0x41 ≤ b.toNat && b.toNat ≤ 0x5A then b + 0x20 else b

/-- Whether a GRAZER_PATTERNS record matches at offset o of a window of which s bytes were scanned (R258). -/
def patternAt (r win : List Byte) (s o : Nat) : Bool :=
  let n := le r 2 1
  let caseless := bit (le r 3 1) 0
  let m (b : Byte) : Byte := if caseless then lowerByte b else b
  le r 6 2 ≤ o && o ≤ le r 8 2 && o + n ≤ s &&
    ((win.drop o).take n).map m = ((r.drop 12).take n).map m

/-- The patterns of a pen: index and record. -/
def Datapath.patternsOf (d : Datapath) (pen : Nat) : List (Nat × List Byte) :=
  (d.pattern.filter (fun e => e.1 / 8192 = pen)).map (fun e => (e.1 % 8192, e.2))

/-- The grazer result of a window of which the first s bytes were scanned (R259). -/
def grazeResult (pats : List (Nat × List Byte)) (win : List Byte) (s : Nat) : GrazeRes :=
  let all := (List.range s).flatMap (fun o =>
    pats.filterMap (fun p => if patternAt p.2 win s o then some (p.1, o, fieldOf (le p.2 4 1) 5 0) else none))
  { state := if s = win.length then 1 else 2, scanned := s,
    hits := all.foldl (fun h m => setBit h m.2.2 true) 0,
    first := all.head?.map (fun m => (m.1, m.2.1)) }

/-- Closes the window of a pass: its result is fixed by the blocks scanned (R259, R262). -/
def Datapath.closeWindow (d : Datapath) (pen : Nat) (p : Pass) : Datapath × Pass :=
  match p.window, d.frame p.fid with
  | some w, some x =>
    if w.closed then (d, p)
    else
      let b := (windowBytes x p w).1
      let s := min (64 * w.blocks) b.length
      let left := ceilDiv b.length 64 - w.blocks
      (d.pmnEvent 0x0B pen left,
       { p with window := some { w with closed := true }, graze := grazeResult (d.patternsOf pen) b s })
  | _, _ => (d, p)

/-- Open windows of a pen. -/
def Datapath.openWindows (d : Datapath) (pen : Nat) : Nat :=
  ((d.passesOf pen).filter (fun p => match p.window with
    | some w => !w.closed
    | none => false)).length

/-- WIN_LIMIT in effect (R264). -/
def Datapath.winLimit (d : Datapath) (pen : Nat) : Nat :=
  let l := d.rd F.penGrazeCtl_WIN_LIMIT pen
  if l = 0 || 64 < l then 64 else l

/-- The window of a pass opens, or is refused by WIN_LIMIT (R260, R261). -/
def Datapath.openWindow (d : Datapath) (pen : Nat) (r : List Byte) (base : Nat) : Datapath × Option Window × GrazeRes :=
  let g := grazeOf r
  if g.2 = 0 || !d.flag F.penGrazeCtl_EN pen then (d, none, {})
  else
    let n := d.openWindows pen
    if n < d.winLimit pen then
      (d.wr F.penGrazeStat_WIN_HWM (max (d.rd F.penGrazeStat_WIN_HWM pen) (n + 1)) pen,
       some { start := base + g.1, len := g.2 }, {})
    else (d, none, { state := 2 })

/-- Whether the next block of a window is scannable: all of its bytes have arrived (R260). -/
def scannable (x : Frame) (p : Pass) : Bool :=
  match p.window with
  | some w =>
    let b := windowBytes x p w
    !w.closed && 64 * w.blocks < b.1.length && (b.2 || 64 * (w.blocks + 1) ≤ b.1.length)
  | none => false

/-- The grazer of a pen scans the next block of its oldest window that has one scannable (R260). -/
def Datapath.grazeScan (d : Datapath) (pen : Nat) : Datapath :=
  let ps := d.passesOf pen
  match (List.range ps.length).find? (fun k => match ps[k]? with
    | some p => match d.frame p.fid with
      | some x => scannable x p
      | none => false
    | none => false) with
  | some k =>
    (d.setPasses pen (modAt (fun p => { p with
        window := p.window.map (fun w => { w with blocks := w.blocks + 1 }) }) ps k)).pmnEvent 0x0A pen
  | none => d

/-- Whether a pass can merge, with the frame it is of. -/
def Datapath.passReady (d : Datapath) (p : Pass) : Bool :=
  match d.frame p.fid with
  | some x => Datapath.mergeReady p x
  | none => true

/-- The graze deadline of pass k of a pen: its merge could start, the window apart, and every byte of the window has arrived; the
window closes (R262, R275). -/
def Datapath.grazeDeadline (d : Datapath) (pen k : Nat) : Datapath :=
  match (d.passesOf pen)[k]? with
  | none => d
  | some p =>
    match p.window, d.frame p.fid with
    | some w, some x =>
      if (windowBytes x p w).2 && p.lookupsDone && ((d.passesOf pen).take k).all d.passReady then
        let r := d.closeWindow pen p
        r.1.setPasses pen (modAt (fun _ => r.2) (d.passesOf pen) k)
      else d
    | _, _ => d

/-! ## Parse start -/

/-- E of R237 for a frame at its slot start: a client frame's length as fetched and a loop frame's as stored are known before their
last bytes have come. -/
def dataEndOf (x : Frame) : Option Nat :=
  if x.ended then some x.bytes.length else if 32 ≤ x.inPen && 0 < x.len then some x.len else none

/-- The head window of a frame at its slot start, kept where the frame has not ended (R237). -/
def headOf (x : Frame) : List Byte := if x.ended then [] else x.bytes.take (x.info.base + 256)

/-- The sort hint of a pass (R241). -/
def Datapath.hintOf (d : Datapath) (x : Frame) : Nat :=
  if x.info.pass = 1 then d.rd F.penParsePort_HINT (penOf x.info.port) (parseIdx x.info.port) else x.info.hint

/-- A pass with its profile fixed: key vector, lookups on the live copies, graze window (R245, R250, R260). -/
def Datapath.startPass (d : Datapath) (pen slot fid : Nat) (x : Frame) (prof : Nat) (kv : List Byte)
    (sv hint : Nat) : Datapath :=
  let r := d.profileRec pen prof
  let ls := (List.range 4).filterMap (fun t =>
    (lookupOf r t).map (fun l =>
      let kw := match d.geom l.1 with
        | some g => g.kw
        | none => 0
      { t := t, table := l.1, key := slice kv l.2 kw : Lookup }))
  let o := d.openWindow pen r x.info.base
  let p : Pass := { fid := fid, slot := slot, profile := prof, dataEnd := dataEndOf x, head := headOf x, live := d.lar.live,
                    acct := d.flag F.pmnCtl_RUN, kv := kv, shortOpt := sv, metadata := metadataOf pen x hint,
                    lookups := ls, window := o.2.1, graze := o.2.2 }
  o.1.setPasses pen (o.1.passesOf pen ++ [p])

/-- A pass whose parse failed and whose default action is DEF_MODE 1 goes on to its verdict (R251). -/
def Datapath.startFailed (d : Datapath) (pen slot fid : Nat) (x : Frame) (hint : Nat) : Datapath :=
  let p : Pass := { fid := fid, slot := slot, dataEnd := dataEndOf x, live := d.lar.live,
                    acct := d.flag F.pmnCtl_RUN, kv := List.replicate 64 0, metadata := metadataOf pen x hint, failed := true }
  d.setPasses pen (d.passesOf pen ++ [p])

end Sys2Proof.Machine
end

