-- ==== Sys2Proof/Machine/Actions.lean ====
section
/-! DEFINITION. Verdicts, edits and looping (spec/10): action records, the merge, forwarding targets, meters and
flow counters, edit templates, samplers, the ACT registers. -/

namespace Sys2Proof.Machine

/-! ## Action records -/

/-- Applies the groups that an action record sets to a verdict (R300, R304). -/
def Verdict.apply (v : Verdict) (r : List Byte) : Verdict :=
  let w0 := le r 0 8
  let w1 := le r 8 8
  let wide := r.length ≥ 16
  let v := if bit w0 0 then { v with fwd := some { kind := fieldOf w0 23 22, target := fieldOf w0 21 8,
                                                   queue := fieldOf w0 38 24, qvalid := bit w0 39 } } else v
  let v := if bit w0 1 then
      { v with tc := fieldOf w0 44 42, colour := if fieldOf w0 41 40 = 3 then v.colour else fieldOf w0 41 40 }
    else v
  let v := if bit w0 2 then { v with edit := some (fieldOf w0 59 48) } else v
  if !wide then v
  else
    let v := if bit w0 3 then { v with loop := some (fieldOf w1 7 0, fieldOf w1 15 8) } else v
    let v := if bit w0 4 then { v with meter := some (fieldOf w1 29 16, bit w1 31) } else v
    let v := if bit w0 5 then { v with count := some (fieldOf w1 48 32) } else v
    let v := if bit w0 6 then { v with sample := some (fieldOf w1 55 49) } else v
    if bit w0 7 then { v with ts := some (fieldOf w1 57 56, fieldOf w1 63 58), tsAt := none } else v

/-- Whether an action record names EDIT. -/
def recordEdits (r : List Byte) : Bool := bit (le r 0 8) 2

/-- What a loop pass carries into the next pass: FWD, QOS, EDIT and TS (R326). -/
def Verdict.carried (v : Verdict) : Verdict := { v with loop := none, meter := none, count := none, sample := none }

/-! ## Merge -/

/-- Whether the IPv4 header at h is bad (R303). -/
def ip4Bad (bytes : List Byte) (base h : Nat) (e : Option Nat) : Bool :=
  let n := 4 * ((byteAt bytes h).toNat % 16)
  n < 20 || !within e (h + n - 1) || h + n > base + 256 || onesSum (slice bytes h n) ≠ 0xFFFF

/-- What the merge of a pass gives (R304): the verdict, whether this pass named EDIT, the drop reason as a tally,
and whether the header checksum was bad (R303). `default` marks the verdict of DEF_MODE 1. -/
structure Merged where
  v : Verdict
  edits : Bool
  drop : Option Nat
  ckBad : Bool
  default' : Bool
  deriving DecidableEq, Repr

/-- The results of the lookups of a pass in index order: each lookup's number and its RESULT bytes if it hit. -/
def Pass.results (p : Pass) : List (Nat × Option (List Byte)) :=
  p.lookups.map (fun l => (l.t, match l.st with
    | .done true r => some r
    | _ => none))

/-- The merge of a pass (R304). -/
def Datapath.merge (d : Datapath) (pen : Nat) (x : Frame) (p : Pass) : Merged :=
  let port := x.info.port
  let m (f : RegField) : Nat := d.rd f pen p.profile
  let start : Verdict := if x.info.pass = 1 then {} else x.info.verdict.carried
  let acc := p.results.foldl (fun (a : Verdict × Bool × Option Nat) r =>
    match r.2 with
    | some bytes => (a.1.apply bytes, a.2.1 || recordEdits bytes, a.2.2)
    | none =>
      (a.1, a.2.1, if (m F.penMerge_MISS_DROP).testBit r.1 && a.2.2.isNone then some T.VERDICT_MISS_DROP else a.2.2))
    (start, false, none)
  let v := acc.1
  let partial' := p.graze.state = 2
  let gh := p.graze.hits.testBit (m F.penMerge_GZ_CLASS) || (partial' && m F.penMerge_GZ_PARTIAL = 1)
  let act := m F.penMerge_GZ_ACT
  let drop := if partial' && m F.penMerge_GZ_PARTIAL = 2 && acc.2.2.isNone then some T.GRAZE_DROP else acc.2.2
  let drop := if drop.isNone && ((act = 1 && gh) || (act = 3 && !gh)) then some T.GRAZE_DROP else drop
  let v := if drop.isNone && act = 2 && gh then
      { v with fwd := (d.defVerdict port).fwd, tc := (d.defVerdict port).tc, loop := none }
    else v
  let ck := m F.penMerge_CK_OFS
  let bad := ck ≠ 0xFF && ip4Bad (passBytes x p) x.info.base (x.info.base + ck) p.dataEnd
  let drop := if drop.isNone && bad && m F.penMerge_CK_DROP = 1 then some T.L3_CSUM_ERR else drop
  if drop.isNone && v.loop.isNone then
    match v.fwd with
    | none =>
      if d.defMode port = 1 then { v := d.defVerdict port, edits := false, drop := none, ckBad := bad, default' := true }
      else { v := v, edits := acc.2.1, drop := some T.VERDICT_NO_FWD, ckBad := bad, default' := false }
    | some f =>
      { v := v, edits := acc.2.1, drop := if f.kind = 3 then some T.VERDICT_DROP else none, ckBad := bad,
        default' := false }
  else { v := v, edits := acc.2.1, drop := drop, ckBad := bad, default' := false }

/-! ## Group memory -/

/-- The 128 bytes of a line (R308). -/
def Datapath.line (d : Datapath) (n : Nat) : List Byte :=
  if n < 4096 then memReads d.lines (128 * n) 128
  else (List.range 128).map (fun k => Config.lineBeyond (128 * n + k))

/-- The port that an equal-cost group selects for a key vector, if its entry is valid (R309). -/
def Datapath.ecmp (d : Datapath) (g : Nat) (kv : List Byte) : Option Nat :=
  if 1024 ≤ g || !d.flag F.actEcmp_EN g then none
  else
    let b := d.symhash (d.rd F.actEcmp_SYM_FMT g) kv / 2 ^ 24
    let e := le (d.line (d.rd F.actEcmp_BASE g + b / 64)) (2 * (b % 64)) 2
    if bit e 15 then some (fieldOf e 9 0) else none

/-- A member of a multicast group (R311). -/
structure Member where
  tplEn : Bool
  tpl : Nat
  qvalid : Bool
  queue : Nat
  port : Nat
  deriving DecidableEq, Repr

/-- The 4-byte head of a multicast group, if it is valid (R310). -/
def Datapath.mcHead (d : Datapath) (g : Nat) : Option Nat :=
  if g ≥ 32 * min (d.rd F.actMcCfg_HEAD_LINES) 512 then none
  else
    let h := le (d.line (d.rd F.actMcCfg_HEAD_BASE + g / 32)) (4 * (g % 32)) 4
    if bit h 31 then some h else none

/-- The members of a group with head h, in order (R311). -/
def Datapath.members (d : Datapath) (h : Nat) : List Member :=
  (List.range (fieldOf h 19 12 + 1)).map (fun k =>
    let e := le (d.line (fieldOf h 11 0 + k / 16)) (8 * (k % 16)) 8
    { tplEn := bit e 38, tpl := fieldOf e 37 26, qvalid := bit e 25, queue := fieldOf e 24 10, port := fieldOf e 9 0 })

/-! ## Meters and flow counters -/

/-- The record of a meter (R314): one never written since the last initialisation holds 0 but for LAST. -/
def Datapath.meterRec (d : Datapath) (k : Nat) : List Byte :=
  Tab.get d.meters k (List.replicate 28 0 ++ leBytes 4 d.meterLast)

/-- A meter update at tick `now` for b bytes, colour-aware or not, from colour c (R315): the new record and the
colour. -/
def meterStep (r : List Byte) (now b c : Nat) (aware : Bool) : List Byte × Nat :=
  let cir := le r 0 4
  let pir := le r 4 4
  let cbs := le r 8 3
  let pbs := le r 12 3
  let dt := (now % 2 ^ 32 + 2 ^ 32 - le r 28 4) % 2 ^ 32
  let tc := min ((le r 16 6 + dt * cir) % 2 ^ 64) (cbs * 2 ^ 24)
  let tp := min ((le r 22 6 + dt * pir) % 2 ^ 64) (pbs * 2 ^ 24)
  let b := b * 2 ^ 24
  let x : Nat × Nat × Nat :=
    if (aware && c = 2) || tp < b then (2, tc, tp)
    else if (aware && c = 1) || tc < b then (1, tc, tp - b)
    else (0, tc - b, tp - b)
  (r.take 16 ++ leBytes 6 x.2.1 ++ leBytes 6 x.2.2 ++ leBytes 4 (now % 2 ^ 32), x.1)

/-- Stores a meter's record. -/
def Datapath.setMeter (d : Datapath) (k : Nat) (r : List Byte) : Datapath :=
  { d with meters := Tab.put d.meters k r (List.replicate 28 0 ++ leBytes 4 d.meterLast) }

/-- Every meter is updated with b = 0 (R315). -/
def Datapath.meterRefresh (d : Datapath) (now : Nat) : Datapath :=
  let z : List Byte := List.replicate 28 0 ++ leBytes 4 (now % 2 ^ 32)
  { d with meterLast := now % 2 ^ 32,
           meters := (d.meters.map (fun e => (e.1, (meterStep e.2 now 0 0 false).1))).filter (fun e => e.2 ≠ z) }

/-- A COUNT update of a flow counter (R316). -/
def Datapath.flowCount (d : Datapath) (k lc : Nat) : Datapath :=
  let x := Tab.get d.flow k (0, 0)
  { d with flow := Tab.put d.flow k ((x.1 + 1) % 2 ^ 64, (x.2 + lc) % 2 ^ 64) (0, 0) }

/-! ## Strip and base move -/

/-- The bytes that the strip of a template removes: start and length, none where it removes nothing (R318). -/
def stripRange (tpl : List Byte) (base : Nat) : Option (Nat × Nat) :=
  let o := le tpl 2 1
  if bit (le tpl 10 1) 0 then (if base + o = 0 then none else some (0, base + o))
  else if le tpl 3 1 = 0 then none else some (base + o, le tpl 3 1)

/-- Whether a strip reaches beyond B + 256 or beyond E (R318). -/
def stripBad (r : Nat × Nat) (base : Nat) (e : Option Nat) : Bool :=
  r.1 + r.2 > base + 256 || !within e (r.1 + r.2 - 1)

/-- A position before the strip, in the numbering after it (R324). -/
def stripPos (r : Option (Nat × Nat)) (p : Nat) : Nat :=
  match r with
  | some (s, n) => if p < s then p else if p < s + n then s else p - n
  | none => p

/-- B' of R324 in the numbering before the strip; none where the variable part's byte lies beyond E. -/
def Datapath.nextBase (d : Datapath) (pen : Nat) (x : Frame) (p : Pass) (adv : Nat) : Option Nat :=
  let b := x.info.base
  if !d.flag F.penLooplen_EN pen p.profile then some (b + adv)
  else
    let o := b + d.rd F.penLooplen_OFS pen p.profile
    if !within p.dataEnd o then none
    else
      let v := (byteAt (passBytes x p) o).toNat &&& d.rd F.penLooplen_MASK pen p.profile
      some (b + adv + v * 2 ^ d.rd F.penLooplen_SHIFT pen p.profile)

/-- PASS_LIMIT in effect (R327). -/
def Datapath.passLimit (d : Datapath) : Nat := max (d.rd F.actLoopCfg_PASS_LIMIT) 2

/-! ## Output edits (R319) -/

/-- Whether n output bytes from o lie within the first 256 and within the copy. -/
def editFits (out : List Byte) (o n : Nat) : Bool := o + n ≤ 256 && o + n ≤ out.length

/-- PUSH_LEN of a template. The line holds 80 bytes to push, and no rule says what more of them are: a PUSH_LEN above 80 pushes
80: DESIGN CHOICE, log entry 101. -/
def pushCount (tpl : List Byte) : Nat := min (le tpl 0 1) 80

/-- Whether a push has its place in a frame of which n bytes have come: its byte PUSH_OFS has come, or the frame has ended. -/
def pushPlaced (tpl : List Byte) (n : Nat) (ended : Bool) : Bool := ended || le tpl 1 1 ≤ n

/-- Where the push of a template goes in a head of n bytes: before byte PUSH_OFS, or at the end of the head (R319). -/
def pushAt (tpl : List Byte) (n : Nat) : Nat := min (le tpl 1 1) (min n 256)

/-- The bytes that a template pushes into a head of n bytes: none where they would reach beyond the first 256 output bytes,
since that step is then skipped (R319). -/
def pushLen (tpl : List Byte) (n : Nat) : Nat :=
  if pushAt tpl n + pushCount tpl ≤ 256 then pushCount tpl else 0

/-- Step 1 of R319: the push. -/
def editPush (tpl bytes : List Byte) : List Byte :=
  let o := pushAt tpl bytes.length
  bytes.take o ++ slice tpl 48 (pushLen tpl bytes.length) ++ bytes.drop o

/-- Patch k of R319; none where it drops the copy with TTL_EXPIRED. -/
def editPatch (tpl : List Byte) (k : Nat) (out : List Byte) : Option (List Byte) :=
  let o := le tpl (16 + 8 * k) 1
  let c := le tpl (17 + 8 * k) 1
  let op := fieldOf c 7 6
  let n := fieldOf c 1 0 + 1
  if op = 1 then (if editFits out o n then some (overlay out o (slice tpl (20 + 8 * k) n)) else some out)
  else if op = 2 then
    if !editFits out o 1 then some out
    else if byteAt out o = 0 then none
    else some (overlay out o [byteAt out o - 1])
  else some out

/-- Step 3 of R319: length field f, over a copy of n bytes without FCS. -/
def editLen (tpl : List Byte) (f n : Nat) (out : List Byte) : List Byte :=
  let o := le tpl (6 + 2 * f) 1
  if o = 0xFF || !editFits out o 2 then out
  else overlay out o (beBytes 2 ((n + 65536 - le tpl (7 + 2 * f) 1) % 65536))

/-- Step 4 of R319. -/
def editUdp (tpl out : List Byte) : List Byte :=
  let o := le tpl 5 1
  if o = 0xFF || !editFits out o 2 then out else overlay out o [0, 0]

/-- Step 5 of R319. -/
def editIp4 (tpl out : List Byte) : List Byte :=
  let o := le tpl 4 1
  let n := 4 * ((byteAt out o).toNat % 16)
  if o = 0xFF || !editFits out o (max n 12) then out
  else
    let z := overlay out (o + 10) [0, 0]
    overlay z (o + 10) (beBytes 2 (inetChecksum (slice z o n)))

/-- The head edits of a template on a copy that is n bytes long before its push; none where TTL_EXPIRED drops it
(R319). -/
def editHead (tpl : List Byte) (bytes : List Byte) (n : Nat) : Option (List Byte) :=
  let out := editPush tpl bytes
  let lout := n + pushLen tpl bytes.length
  match (List.range 4).foldl (fun o k => o.bind (editPatch tpl k)) (some out) with
  | none => none
  | some out => some (editIp4 tpl (editUdp tpl (editLen tpl 1 lout (editLen tpl 0 lout out))))

/-- Whether a template uses a length field (R320). -/
def tplUsesLen (tpl : List Byte) : Bool := le tpl 6 1 ≠ 0xFF || le tpl 8 1 ≠ 0xFF

/-- Where a byte at position p of a stored frame of n bytes stands after the push of a template. -/
def pushPos (tpl : List Byte) (n p : Nat) : Nat := if le tpl 1 1 ≤ p then p + pushLen tpl n else p

/-- Whether every byte that a template's decrements test has arrived, of a frame of which n bytes have come: the copy may be
dropped for one of them and so cannot have begun to leave before (R319). Log entry 87. -/
def tplArrived (tpl : List Byte) (n : Nat) : Bool :=
  (List.range 4).all (fun k =>
    fieldOf (le tpl (17 + 8 * k) 1) 7 6 ≠ 2 || 256 ≤ le tpl (16 + 8 * k) 1 ||
      le tpl (16 + 8 * k) 1 < n + (if pushPlaced tpl n false then pushLen tpl n else 0))

/-! ## Samplers -/

/-- A write of ACT_SAMP_CFG_s (R321), also one that enables no byte: DESIGN CHOICE, log entry 104. -/
def Datapath.writeSampCfg (d : Datapath) (s : Nat) (unl : Bool) (be : BitVec 4) (data : Word) : Datapath :=
  let d := d.writeReg .actSampCfg unl be data s
  d.wr F.actSampLeft_C ((d.rd F.actSampCfg_N s + 2 ^ 24 - 1) % 2 ^ 24) s

/-- A pass names sampler s: whether it takes a sample, and the countdown after (R321). -/
def Datapath.sampleTurn (d : Datapath) (s : Nat) : Datapath × Bool :=
  let n := d.rd F.actSampCfg_N s
  let c := d.rd F.actSampLeft_C s
  if n = 0 then (d, false)
  else if c = 0 then (d.wr F.actSampLeft_C (n - 1) s, true)
  else (d.wr F.actSampLeft_C (c - 1) s, false)

/-! ## ACT_CMD (R328) -/

/-- The 128 bytes of ACT_DATA. -/
def Datapath.actData (d : Datapath) : List Byte := (List.range 32).flatMap (fun w => leBytes 4 (d.rd F.actData_DATA w))

/-- Loads the first words of ACT_DATA. -/
def Datapath.setActData (d : Datapath) (bs : List Byte) : Datapath :=
  loop (bs.length / 4) (fun w d => d.wr F.actData_DATA (le bs (4 * w) 4) w) d

/-- A command of ACT_CMD (R328). -/
def Datapath.actCmd (d : Datapath) (op index : Nat) : Datapath :=
  let lim := if op ≤ 2 then 4096 else if op ≤ 4 then 16384 else 131072
  if op < 1 || 7 < op then d.wr F.actStat_CODE 2
  else if index ≥ lim then d.wr F.actStat_CODE 1
  else
    let d := d.wr F.actStat_CODE 0
    match op with
    | 1 => d.setActData (d.line index)
    | 2 => { d with lines := memWrites d.lines (128 * index) d.actData }
    | 3 => d.setActData (d.meterRec index)
    | 4 => d.setMeter index (d.actData.take 32)
    | 7 => { d with flow := Tab.put d.flow index (le d.actData 0 8, le d.actData 8 8) (0, 0) }
    | _ =>
      let x := Tab.get d.flow index (0, 0)
      let d := d.setActData (leBytes 8 x.1 ++ leBytes 8 x.2)
      if op = 6 then { d with flow := Tab.put d.flow index (0, 0) (0, 0) } else d

/-- A write of ACT_CMD. One that does not enable the byte of OP gives no command (R11). -/
def Datapath.writeActCmd (d : Datapath) (be : BitVec 4) (data : Word) : Datapath :=
  if be.getLsbD 0 then d.actCmd (F.actCmd_OP.wo be data) (F.actCmd_INDEX.wo be data) else d

/-! ## Commands -/

/-- A write of ACT_CMD with an OP and an INDEX. -/
def State.actCommand (src : Src) (op index : Nat) (s : State) : State :=
  s.regWrite src (Reg.actCmd.addr 0 0) (fun s =>
    s.onDp (fun d => d.writeActCmd 0xF (BitVec.ofNat 32 (index % 2 ^ 17 * 16 + op))))

/-- LOOKUP_LINE_READ: ACT_CMD LINE_READ (R328). -/
def execLookupLineRead (src : Src) (index : Nat) (s : State) : Out := .next (s.actCommand src 1 index)
/-- LINE_WRITE (R328). -/
def execLineWrite (src : Src) (index : Nat) (s : State) : Out := .next (s.actCommand src 2 index)
/-- METER_READ (R328). -/
def execMeterRead (src : Src) (index : Nat) (s : State) : Out := .next (s.actCommand src 3 index)
/-- METER_WRITE (R328). -/
def execMeterWrite (src : Src) (index : Nat) (s : State) : Out := .next (s.actCommand src 4 index)
/-- FC_READ (R328). -/
def execFcRead (src : Src) (index : Nat) (s : State) : Out := .next (s.actCommand src 5 index)
/-- FC_READ_CLEAR (R328). -/
def execFcReadClear (src : Src) (index : Nat) (s : State) : Out := .next (s.actCommand src 6 index)
/-- FC_WRITE (R328). -/
def execFcWrite (src : Src) (index : Nat) (s : State) : Out := .next (s.actCommand src 7 index)

/-- SAMPLER_CONFIG: a write of ACT_SAMP_CFG_s (R321). -/
def execSamplerConfig (src : Src) (k : Nat) (be : BitVec 4) (data : Word) (s : State) : Out :=
  .next (s.regWrite src (Reg.actSampCfg.addr k 0) (fun s =>
    s.onDp (fun d => d.writeSampCfg k (s.mayWriteE src (Reg.actSampCfg.addr k 0)) be data)))

/-- METER_REFRESH at clk_shf tick sh.tick (R315). -/
def execMeterRefresh (s : State) : Out := .next (s.onDp (fun d => d.meterRefresh s.sh.tick))

end Sys2Proof.Machine
end

