-- ==== Sys2Proof/Machine/TroughCore.lean ====
section
/-! DEFINITION. What admission and the transmit side use of the troughs (spec/14): queue ownership, receive-queue
resolution and limits, rings, the records of transmit frames. -/

namespace Sys2Proof.Machine

/-- Kinds of queue in a QUEUE_MAP record (R426): transmit, receive, completion ring. -/
def QK.tx : Nat := 0
def QK.rx : Nat := 1
def QK.cq : Nat := 2

/-- Whether queue or ring q of a kind lies in the range of a client port (R427). -/
def Datapath.belongs (d : Datapath) (kind p q : Nat) : Bool :=
  match Tab.find d.queueMap p with
  | some r =>
    let base := le r (4 + 4 * kind) 2
    base ≤ q && q < base + le r (6 + 4 * kind) 2
  | none => false

/-- The enabled client port that a queue or ring belongs to (R427). -/
def Datapath.ownerOf (d : Datapath) (kind q : Nat) : Option Nat :=
  [512, 513, 514, 515, 516, 517].find? (fun p => d.enabled p && d.belongs kind p q)

/-- DEF_RXQ of a client port, if DEF_EN = 1 (R426). -/
def Datapath.defRxq (d : Datapath) (p : Nat) : Option Nat :=
  match Tab.find d.queueMap p with
  | some r => let w := le r 16 2; if bit w 15 then some (w % 2 ^ 15) else none
  | none => none

/-- Queue states (R464). -/
def QS.disabled : Nat := 0
def QS.running : Nat := 1
def QS.stopping : Nat := 2
def QS.stopped : Nat := 3
def QS.error : Nat := 4

/-- The receive queue that a copy bound for a client port finds, with the hash that spreading computed (R448). -/
def Datapath.rxResolve (d : Datapath) (p : Nat) (qvalid : Bool) (queue : Nat) (kv : List Byte) (sample : Bool) :
    Option (Nat × Nat) :=
  match (if qvalid then some queue else d.defRxq p) with
  | none => none
  | some q =>
    if !d.belongs QK.rx p q then none
    else if d.flag F.trgRxqCfg_SPREAD_EN q && !sample then
      let h := d.symhash (d.rd F.trgRxqCfg_SYM_FMT q) kv
      let m := 128 * d.rd F.trgRxqCfg2_SPREAD_TBL q + h / 2 ^ 16 % 128
      let e := d.rd F.trgSpread_QUEUE m
      some (if d.flag F.trgSpread_VALID m && d.belongs QK.rx p e then e else q, h)
    else some (q, 0)

/-! ## Rings (R434) -/

/-- Slots of a completion ring. -/
def Datapath.ringSize (d : Datapath) (r : Nat) : Nat := 2 ^ d.rd F.trgCqCfg_SIZE_LOG2 r

/-- Slots in use of a completion ring, by the consumer index read last (R434). -/
def Datapath.ringUsed (d : Datapath) (r : Nat) : Nat :=
  let n := d.ringSize r
  let pi := d.rd F.trgCqIdx_PI r
  let ci := d.rd F.trgCqStat_CI r
  if pi = ci && d.rd F.trgCqIdx_PHASE r ≠ d.rd F.trgCqStat_CI_PHASE r then n else (pi + n - ci % n) % n

/-- The run time of a ring. -/
def Datapath.ring (d : Datapath) (r : Nat) : RingRt := Tab.get d.trg.rings r {}

/-- Free, unreserved slots of a ring (R435, R454). -/
def Datapath.ringFree (d : Datapath) (r : Nat) : Nat := d.ringSize r - d.ringUsed r - (d.ring r).resv

/-- Whether a completion ring is full: no slot is free (R434, R449). -/
def Datapath.ringFull (d : Datapath) (r : Nat) : Bool := d.ringUsed r = d.ringSize r

/-! ## Transmit records -/

/-- Applies g to the transmit record of a frame that a transmit queue fetched. -/
def Datapath.txNote (d : Datapath) (x : Frame) (g : TxRec → TxRec) : Datapath :=
  match x.tx with
  | none => d
  | some t =>
    match Tab.find d.trg.txRecs t.txRec with
    | some r => { d with trg := { d.trg with txRecs := Tab.set d.trg.txRecs t.txRec (g r) } }
    | none => d

/-- A polled receive queue: descriptors taken and not used. -/
def Datapath.rxRt (d : Datapath) (q : Nat) : QueueRt := Tab.get d.trg.rxq q {}

end Sys2Proof.Machine
end

