-- ==== Sys2Proof/Machine/CellarCore.lean ====
section
/-! DEFINITION. Cells, records and charges of stored frames, discard reasons, the XOFF state, and the end of a copy
(spec/11). -/

namespace Sys2Proof.Machine

/-! ## Charges (R344, R346) -/

/-- The cell of a sector's place: lofts and cellar apart. -/
def cellKey (loc : Nat) : Nat := 2 * (loc / 16) + loc % 2

/-- The cells charged to a frame: those that hold at least one of its sectors (R344). -/
def Frame.charged (x : Frame) : Nat := x.srcs.length

/-- A frame with the sources of its charged cells: 0 minimum, 1 pool, 2 headroom, 3 landing (R346). -/
def Frame.withSrcs (x : Frame) (t : Tab Nat) : Frame :=
  let n (k : Nat) : Nat := (t.filter (fun e => e.2 = k)).length
  { x with srcs := t, chMin := n 0, chPool := n 1, chHr := n 2, chLand := n 3 }

/-- The bytes of a frame that its sectors hold: on the first pass of a line frame its FCS too, which no strip removes
(R19, R201, R318). -/
def Frame.stored (x : Frame) : Nat := x.bytes.length + x.fcsLen

/-- Whether a frame's last sector has been written (R356). -/
def Frame.allWritten (x : Frame) : Bool := x.ended && x.written = sectorsOf x.stored

/-- use_q of a class queue (R345). -/
def Datapath.useQ (d : Datapath) (q : Nat) : Nat :=
  Tab.sum d.copies (fun _ c => if c.q = q then
    (match d.frame c.fid with
     | some x => x.charged
     | none => 0) else 0)

/-- USE of a receive queue (R449). -/
def Datapath.useRx (d : Datapath) (q : Nat) : Nat :=
  Tab.sum d.copies (fun _ c => if c.rxq = some q then
    (match d.frame c.fid with
     | some x => x.charged
     | none => 0) else 0)

/-- pool_use[k] (R345). -/
def Datapath.poolUse (d : Datapath) (k : Nat) : Nat := Tab.sum d.frames (fun _ x => if x.pool = k then x.chPool else 0)

/-- Headroom cells of pool k in use (R346). -/
def Datapath.hrUse (d : Datapath) (k : Nat) : Nat := Tab.sum d.frames (fun _ x => if x.pool = k then x.chHr else 0)

/-- land_used[p] (R345). -/
def Datapath.landUsed (d : Datapath) (p : Nat) : Nat := Tab.sum d.frames (fun _ x => if x.inPen = p then x.chLand else 0)

/-- claim_total[p]: what the claims of a pen's frames still stand at (R344). -/
def Datapath.claimTotal (d : Datapath) (p : Nat) : Nat :=
  Tab.sum d.frames (fun _ x => if x.inPen = p && x.admitted && !x.allWritten then x.claim - x.charged else 0)

/-- The claim of a frame (R344). -/
def Datapath.claimOf (d : Datapath) (x : Frame) : Nat :=
  ceilDiv (if x.info.port < 512 then d.maxLenLimit x.info.port else if x.ended then x.bytes.length
           else max (x.len - (x.strip.map (·.2)).getD 0) x.bytes.length) 256 + 1

/-- Frame records in use (R334). -/
def Datapath.recordsUsed (d : Datapath) : Nat := Tab.sum d.frames (fun _ x => b2n x.record)

/-- Frames in lofts (R334). -/
def Datapath.loftFrames (d : Datapath) : Nat := Tab.sum d.cel.lofts (fun _ l => l.frames.length)

/-- Copy entries in use (R334). -/
def Datapath.entriesUsed (d : Datapath) : Nat := Tab.sum d.copies (fun _ c => b2n c.entry)

/-- ig_use(P, c) (R350). -/
def Datapath.igUse (d : Datapath) (p c : Nat) : Nat :=
  Tab.sum d.frames (fun _ x => if x.admitted && x.info.port = p && x.tc = c && !x.sample then x.charged else 0)

/-- Headroom cells charged to frames of (P, c) (R350). -/
def Datapath.igHr (d : Datapath) (p c : Nat) : Nat :=
  Tab.sum d.frames (fun _ x => if x.info.port = p && x.tc = c && !x.sample then x.chHr else 0)

/-! ## Buffer plan (R342) -/

/-- POOL_SIZE_k. -/
def Datapath.poolSize (d : Datapath) (k : Nat) : Nat := le d.bufferPlan (8 + 8 * k) 4
/-- HEADROOM_k. -/
def Datapath.headroom (d : Datapath) (k : Nat) : Nat := le d.bufferPlan (12 + 8 * k) 4
/-- LAND_p. -/
def Datapath.landLimit (d : Datapath) (p : Nat) : Nat := le d.bufferPlan (0x28 + 2 * p) 2
/-- MC_POOL. -/
def Datapath.mcPool (d : Datapath) : Nat := le d.bufferPlan 2 1 % 4
/-- MIN_RESERVE. -/
def Datapath.minReserve (d : Datapath) : Nat := le d.bufferPlan 4 4

/-! ## Queues -/

/-- The copies of a class queue in admission order (R335). -/
def Datapath.classQueue (d : Datapath) (q : Nat) : List (Nat × Copy) := d.copies.filter (fun c => c.2.q = q)

/-- The receive list of a receive queue (R335). -/
def Datapath.rxList (d : Datapath) (q : Nat) : List (Nat × Copy) := d.copies.filter (fun c => c.2.rxq = some q)

/-- The DOWN reason of a line port's queues: the port is not UP while its DOWN_DISCARD is 1 (R176, R183). R358 names the port's
leaving UP and its entering UP as what sets and clears it; that a write of DOWN_DISCARD while the port is not UP does so too is
R183's reading: DEDUCED, log entry 94. -/
def Datapath.downReason (d : Datapath) (p : Nat) : Bool :=
  p < 512 && d.carved p && d.linkState p ≠ LS.up && d.flag F.penLinkCtl_DOWN_DISCARD (p / 16) (p % 16)

/-- Whether a class queue is discarding (R358). -/
def Datapath.discarding (d : Datapath) (q : Nat) : Bool :=
  let p := portOfQ q
  d.cel.sw.contains q || d.downReason p || d.cel.refold.contains p ||
    (p < 512 && (d.pauseOf p (tcOfQ q)).drop)

/-- The SW reason leaves the class queues that hold no copy; with the last, FLUSH_DONE is set (R358, R359). -/
def Datapath.swDone (d : Datapath) : Datapath :=
  let left := d.cel.sw.filter (fun q => !(d.classQueue q).isEmpty)
  let d' := { d with cel := { d.cel with sw := left } }
  if left = [] && d.cel.sw ≠ [] then d'.wr F.celEvt_FLUSH_DONE 1 else d'

/-! ## Flow control (R350, R351, R407) -/

/-- The transmit MAC of a port. -/
def Datapath.txPort (d : Datapath) (p : Nat) : TxPort := Tab.get d.tx p {}

/-- Replaces the transmit MAC of a port. -/
def Datapath.setTx (d : Datapath) (p : Nat) (x : TxPort) : Datapath := { d with tx := Tab.put d.tx p x {} }

/-- FC_MODE in effect on a port: 3 acts as 0 (R364). -/
def Datapath.fcMode (d : Datapath) (p : Nat) : Nat :=
  let m := d.rd F.celPortCfg_FC_MODE p
  if p ≥ 512 || m = 3 then 0 else m

/-- A trigger for a pause or PFC frame (R407, R408). -/
def Datapath.fcTrigger (d : Datapath) (p : Nat) : Datapath :=
  if d.linkState p = LS.up then d.setTx p { d.txPort p with ctrlPend := true } else d

/-- The XOFF state of class c of line port P is evaluated; `admitted` tells that a frame of it was admitted with
headroom (R350). -/
def Datapath.xoffEval (d : Datapath) (p c : Nat) (admitted : Bool := false) : Datapath :=
  if p ≥ 512 then d
  else
    let xoff := d.rd F.celPortCfg_XOFF p
    let xon := if d.rd F.celPortCfg_XON p ≥ xoff then xoff - 1 else d.rd F.celPortCfg_XON p
    let use := d.igUse p c
    let now := d.rdBit F.celFcStat_XOFF c p
    let next := if use ≥ 4 * xoff || admitted then true
                else if use ≤ 4 * xon && d.igHr p c = 0 then false else now
    if next = now then d
    else
      let d := d.wrBit F.celFcStat_XOFF c next p
      if d.fcMode p = 0 then d else d.fcTrigger p

/-- The XOFF state of every class of every line port is evaluated, as in each core clock (R350). -/
def Datapath.xoffClock (d : Datapath) : Datapath :=
  d.portMode.foldl (fun d e => if isLine e.1 then loop 8 (fun c d => d.xoffEval e.1 c) d else d) d

/-! ## The end of a copy -/

/-- A sector of the cellar is released: its cell returns to the free list when every sector in it is (R333). -/
def Cellar.releaseSector (k : Cellar) (s : Nat) : Cellar :=
  let w := s / 8
  let c := Tab.get k.cells w {}
  let c := { c with live := c.live - 1 }
  { k with cells := if c.live = 0 && !c.open' then Tab.erase k.cells w else Tab.set k.cells w c }

/-- A frame's storage is released: its sectors, its records and its place in a loft (R333, R355). -/
def Datapath.releaseFrame (d : Datapath) (f : Nat) : Datapath :=
  match d.frame f with
  | none => d
  | some x =>
    let k := x.locs.foldl (fun k l => if l % 2 = 1 then k.releaseSector (l / 2) else k) d.cel
    let k := match x.loft with
      | some n =>
        let l := Tab.get k.lofts n {}
        { k with lofts := Tab.put k.lofts n { l with frames := l.frames.filter (· ≠ f), moving := l.moving.filter (· ≠ f) } {} }
      | none => k
    (({ d with cel := k, frames := Tab.erase d.frames f }).setReady x.inPen
      ((d.readyOf x.inPen).filter (· ≠ f))).xoffEval x.info.port x.tc

/-- DEF of a class after its queue became empty (R371). -/
def Datapath.queueEmptied (d : Datapath) (q : Nat) : Datapath :=
  if (d.classQueue q).isEmpty then
    { d with drv := { d.drv with deficit := Tab.upd d.drv.deficit q 0 (fun v => min v 0) } }
  else d

/-- A copy ends (R294): it leaves its queue, and with the last copy its frame's storage is released (R333, R355). -/
def Datapath.endCopy (d : Datapath) (c : Nat) : Datapath :=
  match d.copy c with
  | none => d
  | some x =>
    let d := { d with copies := Tab.erase d.copies c, cel := { d.cel with wait := d.cel.wait.filter (fun e => e.1 / 1024 ≠ c) } }
    let d := if (d.copiesOf x.fid).isEmpty then d.releaseFrame x.fid else d
    (d.queueEmptied x.q).swDone

end Sys2Proof.Machine
end

