-- ==== Sys2Proof/Machine/TimeBases.lean ====
section
/-! DEFINITION. Time bases and timestamps (spec/16): the time value, commands, watchdog, measuring windows, logs,
pulses, receive and egress times. -/

namespace Sys2Proof.Machine

/-- The modulus of a time value in ns: 2^48 seconds. -/
def timeMod : Nat := 2 ^ 48 * 1000000000

/-- A time in ns. -/
def Time.abs (t : Time) : Nat := t.sec * 1000000000 + t.ns

/-- The time of a number of ns, modulo 2^48 s. -/
def Time.ofNs (n : Int) : Time :=
  let m := (n % (timeMod : Int)).toNat
  { sec := m / 1000000000, ns := m % 1000000000 }

/-- The compact format of a time (R482). -/
def Time.compact (t : Time) : Nat := (t.sec % 2 ^ 34) * 2 ^ 30 + t.ns

/-- The time that a compact value names, with 34 bits of seconds (R482). -/
def timeOfCompact (n : Nat) : Time := { sec := n / 2 ^ 30 % 2 ^ 34, ns := n % 2 ^ 30 }

/-- The signed difference in ns between a compact value and a time (R482). -/
def compactDiff (t v : Time) : Int := signed 34 (t.sec + 2 ^ 34 - v.sec % 2 ^ 34) * 1000000000 + t.ns - v.ns

/-! ## Bases -/

/-- A time base. -/
def Datapath.tb (d : Datapath) (b : Nat) : TimeBase := d.tim.bases.getD b {}

/-- Replaces a time base. -/
def Datapath.setTb (d : Datapath) (b : Nat) (x : TimeBase) : Datapath :=
  { d with tim := { d.tim with bases := modAt (fun _ => x) d.tim.bases b } }

/-- The value of a base, NS truncated to an integer (R483). -/
def Datapath.tbNow (d : Datapath) (b : Nat) : Time := { sec := (d.tb b).sec, ns := (d.tb b).ns }

/-- The value of a base in units of 2^-32 ns. -/
def TimeBase.fine (x : TimeBase) : Nat := (x.sec * 1000000000 + x.ns) * 2 ^ 32 + x.frac

/-- The base with a value in units of 2^-32 ns. -/
def TimeBase.withFine (x : TimeBase) (v : Nat) : TimeBase :=
  { x with frac := v % 2 ^ 32, ns := v / 2 ^ 32 % 1000000000, sec := v / 2 ^ 32 / 1000000000 % 2 ^ 48 }

/-- INC of R481 for a RATE field. -/
def tbInc (rate : Nat) : Nat := ((0x280000000 : Int) + signed 32 rate).toNat

/-- One tick of a base (R481). -/
def TimeBase.advance (x : TimeBase) (rate : Nat) : TimeBase :=
  let f := x.frac + tbInc rate
  let n := x.ns + f / 2 ^ 32
  let x := { x with since := x.since + 1 }
  if n ≥ 1000000000 then { x with frac := f % 2 ^ 32, ns := n - 1000000000, sec := (x.sec + 1) % 2 ^ 48 }
  else { x with frac := f % 2 ^ 32, ns := n }

/-- One clk_shf tick of every base (R481). -/
def Datapath.tbTick (d : Datapath) : Datapath :=
  loop 8 (fun b d => d.setTb b ((d.tb b).advance (d.rd F.timRate_RATE b))) d

/-- A base enters HOLDOVER: HOLD_CHG is set if it was in TRACKING (R489). -/
def Datapath.enterHoldover (d : Datapath) (b : Nat) : Datapath :=
  let d := if d.holdover b then d else d.wr F.timEvt_HOLD_CHG 1
  (d.wr F.timStat_HOLDOVER 1 b).setTb b { d.tb b with clean := false }

/-- The count of a base's correction watchdog restarts (R490, R508). -/
def Datapath.corrWdRestart (d : Datapath) (b : Nat) : Datapath := d.setTb b { d.tb b with since := 0 }

/-- A correction is accepted: the new value, TRACKING, the watchdog's count at 0 (R488, R489, R490). -/
def Datapath.correct (d : Datapath) (b : Nat) (x : TimeBase) : Datapath :=
  let d := if d.holdover b then (d.wr F.timEvt_HOLD_CHG 1).wr F.timHoldErr_ERR 0 b else d
  ((d.wr F.timStat_HOLDOVER 0 b).wr F.timStat_VIRGIN 0 b).setTb b { x with clean := false, since := 0 }

/-- A STEP or OFFSET is refused (R488). -/
def Datapath.refuseTime (d : Datapath) (b : Nat) : Datapath :=
  (d.wr F.timStat_REFUSED 1 b).wr F.timEvt_REFUSED 1

/-- A command of a base takes effect in the base's tick (R488, R489). -/
def Datapath.applyTbCmd (d : Datapath) (b : Nat) (c : TbCmd) : Datapath :=
  let x := d.tb b
  let free := d.flag F.timStat_VIRGIN b || c.force
  let th : Int := d.rd F.timThresh_THRESH b
  if c.cmd = 1 then
    let dlt : Int := ((c.setSec * 1000000000 + c.setNs : Nat) : Int) - ((d.tbNow b).abs : Int)
    if c.setNs ≥ 1000000000 then d.refuseTime b
    else if free || (-th ≤ dlt && dlt ≤ th) then
      d.correct b { x with sec := c.setSec, ns := c.setNs, frac := 0 }
    else d.refuseTime b
  else if c.cmd = 2 then
    let o := signed 32 c.ofs
    if free || (-th ≤ o && o ≤ th) then
      let t := Time.ofNs (((d.tbNow b).abs : Int) + o)
      d.correct b { x with sec := t.sec, ns := t.ns }
    else d.refuseTime b
  else d.enterHoldover b

/-- A base's next tick applies its pending commands in order (R487). -/
def Datapath.applyTbCmds (d : Datapath) (b : Nat) : Datapath :=
  let cs := (d.tb b).cmds
  (cs.foldl (fun d c => d.applyTbCmd b c) (d.setTb b { d.tb b with cmds := [] })).wr F.timStat_PENDING 0 b

/-- The correction watchdog of a base expires (R489, R490): WD × 400,000 ticks have passed since its count restarted. The
commands of the same tick come first: a correction among them wins. -/
def Datapath.corrWdExpire (d : Datapath) (b : Nat) : Datapath :=
  let d := d.applyTbCmds b
  if d.holdover b || d.rd F.timCorrWd_WD b = 0 || (d.tb b).since < d.rd F.timCorrWd_WD b * 400000 then d
  else (d.enterHoldover b).wr F.timEvt_CORR_WD 1

/-- A measuring window of a base ends, and the next one starts (R493). -/
def Datapath.aonWindowEnd (d : Datapath) (b : Nat) : Datapath :=
  let x := d.tb b
  let meas := d.flag F.timCtl_AON_MEAS b
  let next := { x with winStart := x.fine, clean := meas && !d.holdover b }
  let d' := d.setTb b next
  if !x.clean then d'
  else
    let m : Int := ((x.fine : Int) - x.winStart) / 2 ^ 28
    let tol : Nat := 2 * (20 * d.rd F.timAonTol_PPB * 2 ^ 24 / 1000000000)
    let e := m - 0x14000000
    if -(tol : Int) ≤ e && e ≤ tol then d'.wr F.timAonNs_AON_NS m.toNat b
    else (d'.wr F.timStat_AON_ODD 1 b).wr F.timEvt_AON_ODD 1

/-! ## Register writes and reads with effects -/

/-- A write of TIM_CTL_b (R485, R487). -/
def Datapath.writeTimCtl (d : Datapath) (b : Nat) (unl : Bool) (be : BitVec 4) (data : Word) : Datapath :=
  let d := d.writeReg .timCtl unl be data b
  let d := if d.flag F.timCtl_AON_MEAS b then d else d.setTb b { d.tb b with clean := false }
  let cmd := F.timCtl_CMD.wo be data
  if cmd < 1 || 3 < cmd then d
  else
    let c : TbCmd := { cmd := cmd, setSec := d.rd F.timSetSh_SEC b * 2 ^ 32 + d.rd F.timSetSl_SEC b,
                       setNs := d.rd F.timSetNs_NS b, ofs := d.rd F.timOfs_OFS b,
                       force := F.timCtl_FORCE.wo be data = 1 }
    (d.setTb b { d.tb b with cmds := (d.tb b).cmds ++ [c] }).wr F.timStat_PENDING 1 b

/-- A write of TIM_CORR_WD_b restarts the watchdog's count (R490), also one that enables no byte: DESIGN CHOICE, log entry 104. -/
def Datapath.writeCorrWd (d : Datapath) (b : Nat) (be : BitVec 4) (data : Word) : Datapath :=
  (d.writeReg .timCorrWd false be data b).corrWdRestart b

/-- A read of TIM_NOW_NS_b: a sample of the base, whose seconds the reader's shadow keeps (R486). -/
def Datapath.readTimNow (d : Datapath) (rdr b : Nat) : Datapath × Word :=
  let v := d.tbNow b
  ({ d with tim := { d.tim with shadow := Tab.put d.tim.shadow (8 * rdr + b) v.sec 0 } }, BitVec.ofNat 32 v.ns)

/-- A read of TIM_NOW_SL_b or TIM_NOW_SH_b (R486). -/
def Datapath.readTimSec (d : Datapath) (rdr b : Nat) (hi : Bool) : Word :=
  let v := Tab.get d.tim.shadow (8 * rdr + b) 0
  BitVec.ofNat 32 (if hi then v / 2 ^ 32 else v % 2 ^ 32)

/-- A TIME_PLAN record is written into the registers of its base (R508); AON_MEAS 0 spoils the window (R493). -/
def Datapath.applyTimePlan (d : Datapath) (b : Nat) (r : List Byte) : Datapath :=
  let aon := le r 12 4
  let d := d.corrWdRestart b
  let d := if le r 16 1 % 2 = 0 then d.setTb b { d.tb b with clean := false } else d
  ((((d.wr F.timCorrWd_WD (le r 2 2) b).wr F.timThresh_THRESH (le r 4 4) b).wr F.timRate_RATE (le r 8 4) b).wr
    F.timAonNs_AON_NS (if aon = 0 then 0x14000000 else aon) b).wr F.timCtl_AON_MEAS (le r 16 1 % 2) b

/-- The TIME_PLAN record of a base that no record names: the reset values of R485 (R127). -/
def timePlanReset : List Byte := leBytes 4 0 ++ leBytes 4 1000000 ++ leBytes 4 0 ++ leBytes 4 0 ++ leBytes 4 1 ++ leBytes 4 0

/-- A TIME_PLAN section is applied: every base takes its record's fields, or the reset values where no record names it (R127,
R508). -/
def Datapath.applyTimePlans (d : Datapath) (t : Tab (List Byte)) : Datapath :=
  loop 8 (fun b d => d.applyTimePlan b ((Tab.find t b).getD timePlanReset)) { d with timePlan := t }

/-! ## Logs (R501, R502) -/

/-- Whether log x is the receive log, and its records. -/
def Datapath.timLog (d : Datapath) (x : Nat) : List (List Byte) := if x = 0 then d.tim.txLog else d.tim.rxLog

/-- A record is formed for log x: it is appended, or lost when the log holds 4,096 records (R502). `r` is the
record without REC_SEQ. -/
def Datapath.timRecord (d : Datapath) (x : Nat) (r : List Byte) : Datapath :=
  let n := if x = 0 then d.tim.txSeq else d.tim.rxSeq
  let full := r.take 24 ++ leBytes 4 (n % 2 ^ 32) ++ List.replicate 4 0
  let d := if x = 0 then { d with tim := { d.tim with txSeq := (n + 1) % 2 ^ 32 } }
           else { d with tim := { d.tim with rxSeq := (n + 1) % 2 ^ 32 } }
  if (d.timLog x).length ≥ 4096 then (d.count F.timLogLost_LOST 1 x).wr F.timEvt_LOG_LOST 1
  else if x = 0 then { d with tim := { d.tim with txLog := d.tim.txLog ++ [full] } }
  else { d with tim := { d.tim with rxLog := d.tim.rxLog ++ [full] } }

/-- A write of TIM_LOG_POP (R502). -/
def Datapath.writeLogPop (d : Datapath) (be : BitVec 4) (data : Word) : Datapath :=
  let d := if F.timLogPop_TX.wo be data = 1 then { d with tim := { d.tim with txLog := d.tim.txLog.drop 1 } } else d
  if F.timLogPop_RX.wo be data = 1 then { d with tim := { d.tim with rxLog := d.tim.rxLog.drop 1 } } else d

/-- Word w of the head record of log x, 0 while it is empty (R502). -/
def Datapath.logHead (d : Datapath) (x w : Nat) : Word :=
  match d.timLog x with
  | r :: _ => BitVec.ofNat 32 (le r (4 * w) 4)
  | [] => 0

/-- The bytes of a timestamp record before REC_SEQ (R501). -/
def tsRecord (t : Time) (port hold oneStep dir tb outcome msg dom kind seq : Nat) (q : Option (Nat × Nat)) : List Byte :=
  leBytes 4 t.ns ++ leBytes 4 t.sec ++ leBytes 2 (t.sec / 2 ^ 32) ++ leBytes 2 port ++
  leBytes 1 (hold * 32 + oneStep * 16 + dir * 8 + tb) ++ leBytes 1 (outcome * 16 + msg) ++ leBytes 1 dom ++
  leBytes 1 kind ++ leBytes 2 seq ++
  (match q with
   | some x => leBytes 2 (32768 + x.1) ++ leBytes 2 x.2
   | none => leBytes 4 0) ++ leBytes 2 0

/-! ## Receive and egress times -/

/-- Receive and transmit latency of a line port in ns (R186). -/
def portLatency (width rate fec : Nat) : Nat × Nat :=
  match macSpeed width rate with
  | 10 => (35, 25)
  | 25 => if fec = 0 then (25, 20) else if fec = 1 then (110, 30) else (240, 40)
  | 50 => (140, 40)
  | 100 => if width = 4 then (if fec = 0 then (40, 30) else (90, 35)) else (90, 35)
  | 200 => (90, 35)
  | 1600 => (50, 25)
  | 0 => (0, 0)
  | _ => (65, 30)

/-- FEC code of a port: PORT_MODE.FEC (R130). -/
def Datapath.pmFec (d : Datapath) (p : Nat) : Nat := le (d.pmode p) 4 1

/-- The latencies of a line port. -/
def Datapath.latency (d : Datapath) (p : Nat) : Nat × Nat := portLatency (d.width p) (d.rate p) (d.pmFec p)

/-- The receive time of a frame whose byte 0 passes the interface of a port now, or that becomes ready now on a
client port; none on a port with RX_TS = 0 (R497). -/
def Datapath.rxTime (d : Datapath) (p : Nat) : Option Time :=
  if !d.flag F.timPortCfg_RX_TS p || 518 ≤ p then none
  else
    let v := d.tbNow (d.pmTb p)
    if p < 512 then
      some (Time.ofNs ((v.abs : Int) - (d.latency p).1 - signed 16 (d.rd F.timPortAdj_RX_ADJ p)))
    else some v

/-- The egress time of a capture on a port (R498). -/
def Datapath.egressTime (d : Datapath) (p : Nat) (cap : Time) : Time :=
  Time.ofNs ((cap.abs : Int) + (d.latency p).2 + signed 16 (d.rd F.timPortAdj_TX_ADJ p))

/-! ## Pulses -/

/-- An edge on tpps_in[i] is seen. One in the tick of a clear of NEW leaves NEW 1 and is counted in MISSED (R503). -/
def Datapath.pulseEdge (d : Datapath) (i : Nat) (rise : Bool) : Datapath :=
  let e := d.rd F.timPinCfg_EDGE i
  let wanted := if e = 2 then true else if e = 1 then !rise else rise
  if !d.flag F.timPinCfg_EN i || !wanted then d
  else if d.flag F.timPinNs_NEW i then d.count F.timPinMiss_MISSED 1 i
  else if d.meets .pinNew i then (d.wr F.timPinNs_NEW 1 i).count F.timPinMiss_MISSED 1 i
  else
    let t := Time.ofNs (((d.tbNow (d.rd F.timPinCfg_TB i)).abs : Int) - 5)
    ((((d.wr F.timPinNs_NEW 1 i).wr F.timPinNs_RISE (b2n rise) i).wr F.timPinNs_NS t.ns i).wr
      F.timPinSl_SEC t.sec i).wr F.timPinSh_SEC (t.sec / 2 ^ 32) i

/-- The level L of pulse output o (R504). -/
def Datapath.poutLevel (d : Datapath) (o : Nat) : Bool :=
  let b := d.rd F.timPoutCfg_TB o
  let x := Tab.get d.tim.pout o {}
  let p := max x.period 10
  let w := min (max x.width 5) (p - 5)
  let now := (d.tbNow b).abs
  d.flag F.timPoutCfg_EN o && !(d.flag F.timPoutCfg_HOLD_MUTE o && d.holdover b) &&
    x.start ≤ now && (now - x.start) % p < w

/-- A base tick drives pulse output o to its computed level (R504). -/
def Datapath.drivePout (d : Datapath) (o : Nat) : Datapath :=
  { d with tim := { d.tim with level := modAt (fun _ => d.poutLevel o) d.tim.level o } }

/-- A write of TIM_POUT_CFG_o: with EN = 1 it brings START, PERIOD and WIDTH into force (R504). -/
def Datapath.writePoutCfg (d : Datapath) (o : Nat) (be : BitVec 4) (data : Word) : Datapath :=
  let d := d.writeReg .timPoutCfg false be data o
  if d.flag F.timPoutCfg_EN o && be.getLsbD 3 then
    let x : PulseOut := {
      start := (d.rd F.timPoutStartSh_SEC o * 2 ^ 32 + d.rd F.timPoutStartSl_SEC o) * 1000000000 +
               min (d.rd F.timPoutStartNs_NS o) 999999999
      period := d.rd F.timPoutPeriod_PERIOD o, width := d.rd F.timPoutWidth_WIDTH o }
    { d with tim := { d.tim with pout := Tab.set d.tim.pout o x } }
  else d

/-- The word of TIM_EVT (R506). -/
def Datapath.timEvtWord (d : Datapath) : Word :=
  let w := RegFile.word d.regs .timEvt 0 0
  let w := putBits w 5 5 (b2n ((List.range 4).any (fun i => d.flag F.timPinNs_NEW i)))
  putBits (putBits w 1 1 (b2n (d.tim.rxLog ≠ []))) 0 0 (b2n (d.tim.txLog ≠ []))

/-! ## Commands -/

/-- A write of TIM_CTL_b with a command. AON_MEAS keeps its value. -/
def State.timCommand (src : Src) (b cmd : Nat) (force : Bool) (s : State) : State :=
  s.regWrite src (Reg.timCtl.addr b 0) (fun s =>
    s.onDp (fun d => d.writeTimCtl b false 0x1 (BitVec.ofNat 32 (b2n force * 128 + cmd))))

/-- STEP (R487, R488). -/
def execStep (src : Src) (b : Nat) (force : Bool) (s : State) : Out := .next (s.timCommand src b 1 force)
/-- OFFSET (R487, R488). -/
def execOffset (src : Src) (b : Nat) (force : Bool) (s : State) : Out := .next (s.timCommand src b 2 force)
/-- HOLD (R487, R488). -/
def execHold (src : Src) (b : Nat) (s : State) : Out := .next (s.timCommand src b 3 false)

/-- TIME_SAMPLE: a read of TIM_NOW_NS_b (R486). -/
def execTimeSample (src : Src) (b : Nat) (s : State) : Out :=
  .next (s.regRead src (Reg.timNowNs.addr b 0) (fun s =>
    let r := s.dp.readTimNow (readerOf src) b
    ({ s with dp := r.1 }, r.2)))

/-- AON_WINDOW_END of base b (R493). -/
def execAonWindowEnd (b : Nat) (s : State) : Out := .next (s.onDp (fun d => d.aonWindowEnd b))

/-- TX_LOG_POP: a write of TIM_LOG_POP with TX = 1 (R502). -/
def execTxLogPop (src : Src) (s : State) : Out :=
  .next (s.regWrite src (Reg.timLogPop.addr 0 0) (fun s => s.onDp (fun d => d.writeLogPop 0x1 1)))

/-- RX_LOG_POP: a write of TIM_LOG_POP with RX = 1 (R502). -/
def execRxLogPop (src : Src) (s : State) : Out :=
  .next (s.regWrite src (Reg.timLogPop.addr 0 0) (fun s => s.onDp (fun d => d.writeLogPop 0x1 2)))

/-- PULSE_INPUT_EDGE on tpps_in[i] (R503). -/
def execPulseInputEdge (i : Nat) (rise : Bool) (s : State) : Out := .next (s.onDp (fun d => d.pulseEdge i rise))

/-- PULSE_OUTPUT_EDGE of output o (R504). -/
def execPulseOutputEdge (o : Nat) (s : State) : Out := .next (s.onDp (fun d => d.drivePout o))

/-- POUT_CONFIG: a write of TIM_POUT_CFG_o (R504). -/
def execPoutConfig (src : Src) (o : Nat) (be : BitVec 4) (data : Word) (s : State) : Out :=
  .next (s.regWrite src (Reg.timPoutCfg.addr o 0) (fun s => s.onDp (fun d => d.writePoutCfg o be data)))

end Sys2Proof.Machine
end

