-- ==== Sys2Proof/Machine/Drover.lean ====
section
/-! DEFINITION. The drover (spec/12): a copy's bytes after its output edits, eligibility, selection, grants, shapers,
launch times and gate lists. -/

namespace Sys2Proof.Machine

/-! ## A copy's bytes -/

/-- An Internet checksum after a 16-bit word changed from m to m' (RFC 1624). -/
def inetUpdate (hc m m' : Nat) : Nat :=
  let s := (65535 - hc) + (65535 - m) + m'
  let s := s % 65536 + s / 65536
  let s := s % 65536 + s / 65536
  65535 - s

/-- The bytes of a copy marked under R354, h the position of its IPv4 header. -/
def ecnMark (bytes : List Byte) (h : Nat) : List Byte :=
  let m := be bytes h 2
  let m' := m ||| 3
  if m % 4 = 3 then bytes
  else overlay (overlay bytes (h + 1) [BitVec.ofNat 8 m']) (h + 10) (beBytes 2 (inetUpdate (be bytes (h + 10) 2) m m'))

/-- The template that edits a copy: read at its start (R319). -/
def Datapath.tplOf (d : Datapath) (c : Copy) : Option (List Byte) :=
  c.tpl.map (fun t => if c.started then c.tplData else d.line t)

/-- The bytes that a copy's template has pushed into what its frame holds so far: none before their place has come (R319). -/
def Datapath.pushOf (d : Datapath) (c : Copy) (x : Frame) : Nat :=
  match d.tplOf c with
  | some t => if pushPlaced t x.bytes.length x.ended then pushLen t x.bytes.length else 0
  | none => 0

/-- A template without its push: what edits a head whose byte PUSH_OFS has not come. -/
def noPush (tpl : List Byte) : List Byte := overlay tpl 0 [0]

/-- Whether output bytes make an origin copy for a flock link (R524). -/
def Datapath.isOrigin (d : Datapath) (p : Nat) (x : Frame) (out : List Byte) : Bool :=
  (d.flkLinkOf p).isSome && !x.transit && be out 12 2 = d.flkEtype && byteAt out 14 = 0x10

/-- Writes the fields of R525 into an origin copy. -/
def Datapath.originEdit (d : Datapath) (c : Copy) (x : Frame) (out : List Byte) : List Byte :=
  let src := if d.flkValid then d.flkAddr else 0
  overlay (overlay out 18 (beBytes 2 src ++ beBytes 2 c.flow ++
    beBytes 1 (tcOfQ c.q * 32 + c.colour * 8))) 24 (beBytes 2 x.port)

/-- The position of byte h of a request after the push of the copy's template (R421). -/
def Datapath.tsPos (d : Datapath) (c : Copy) (x : Frame) (h : Nat) : Nat :=
  match d.tplOf c with
  | some t => pushPos t x.bytes.length h
  | none => h

/-- Writes a one-step value over output bytes and keeps a UDP checksum right (R422 to R424). -/
def oneStepWrite (out : List Byte) (o h : Nat) (new : List Byte) : List Byte :=
  let written := overlay out o new
  let c0 := be out (h - 2) 2
  if h < 42 || c0 = 0 then written
  else
    let c := (List.range (new.length / 2)).foldl
      (fun c k => inetUpdate c (be out (o + 2 * k) 2) (be written (o + 2 * k) 2)) c0
    overlay written (h - 2) (beBytes 2 (if c = 0 then 0xFFFF else c))

/-- The output bytes from h on that a one-step request needs (R421). -/
def oneStepNeeds (mode : Nat) : Nat := if mode = 1 then 44 else 16

/-- The one-step value that a copy's capture writes into its output bytes, once they reach as far as it needs. -/
def Datapath.oneStepEdit (d : Datapath) (c : Copy) (x : Frame) (out : List Byte) : List Byte :=
  match c.cap, c.ts with
  | some k, some (mode, o) =>
    let h := d.tsPos c x o
    if !k.oneStep || !editFits out h (oneStepNeeds mode) then out
    else
      if mode = 1 then oneStepWrite out (h + 34) h (beBytes 6 k.te.sec ++ beBytes 4 k.te.ns)
      else
        let ti := (x.rxTs.getD {}).abs
        let v := (signed 64 (be out (h + 8) 8) + ((k.te.abs : Int) - ti) * 2 ^ 16) % (2 ^ 64 : Int)
        oneStepWrite out (h + 8) h (beBytes 8 v.toNat)
  | _, _ => out

/-- The output bytes of a copy, of what its frame holds so far, without FCS and trailer; none where a decrement drops
it (R319, R354, R521, R525). -/
def Datapath.outBytes (d : Datapath) (c : Copy) (x : Frame) : Option (List Byte) :=
  if c.kind ≠ 0 then some x.bytes
  else
    let b := match c.mark, x.ecnAt with
      | true, some h => ecnMark x.bytes h
      | _, _ => x.bytes
    let b := if x.transit then overlay b 15 [byteAt b 15 - 1] else b
    let e := match d.tplOf c with
      | some t => if pushPlaced t b.length x.ended then editHead t b b.length else editHead (noPush t) b b.length
      | none => some b
    e.map (fun out =>
      let out := if d.isOrigin (portOfQ c.q) x out then d.originEdit c x out else out
      d.oneStepEdit c x out)

/-- Whether a copy is sent as a flock frame (R524, R526). -/
def Datapath.isFlockCopy (d : Datapath) (c : Copy) (x : Frame) : Bool :=
  c.kind = 2 || (c.kind = 0 && (x.transit || (match d.outBytes c x with
    | some out => d.isOrigin (portOfQ c.q) x out
    | none => false)))

/-- Lout of a copy of what its frame holds so far. -/
def Datapath.loutOf (d : Datapath) (c : Copy) (x : Frame) : Nat := x.bytes.length + d.pushOf c x

/-- Trailer bytes of a copy: 8 on a flock frame (R526). -/
def Datapath.trailerLen (d : Datapath) (c : Copy) (x : Frame) : Nat := if d.isFlockCopy c x then 8 else 0

/-! ## Shapers (R372 to R374) -/

/-- The most negative token count. -/
def tokFloor : Int := -(2 ^ 47)

/-- The cap rate of a client or loop port (R373). -/
def Datapath.capRate (d : Datapath) (p : Nat) : Nat := d.pmCap p * 32768000

/-- One tick of a token count (R372). -/
def tokTick (tok : Int) (rate burst : Nat) : Int := if rate = 0 then tok else min (tok + rate) (burst * 2 ^ 20)

/-- One clk_shf tick of every shaper: the class and port shapers whose RATE lies in the register file, and the caps
of the client and loop ports. The rates written since the last tick come into force (R374). -/
def Datapath.shaperTick (d : Datapath) : Datapath :=
  let drv := d.regs.foldl (fun (v : Drover) e =>
    match Reg.drvPortRate.geom.index e.1, Reg.drvClassRate.geom.index e.1 with
    | some (n, _), _ =>
      let r := d.rd F.drvPortRate_RATE n
      { v with ratePort := Tab.put v.ratePort n r 0
               tokPort := Tab.upd v.tokPort n 0 (fun t => tokTick t r (d.rd F.drvPortBurst_BURST n)) }
    | none, some (m, _) =>
      let r := d.rd F.drvClassRate_RATE m
      { v with rateClass := Tab.put v.rateClass m r 0
               tokClass := Tab.upd v.tokClass m 0 (fun t => tokTick t r (d.rd F.drvClassBurst_BURST m)) }
    | none, none => v) { d.drv with ratePort := [], rateClass := [] }
  let drv := [512, 513, 514, 515, 516, 517, 518, 519].foldl (fun (v : Drover) p =>
    { v with tokCap := Tab.upd v.tokCap p 0 (fun t => tokTick t (d.capRate p) 16384) }) drv
  { d with drv := drv }

/-- RATE in force of a class shaper and of a port shaper: a write applies from the next tick (R374). -/
def Datapath.rateClass (d : Datapath) (m : Nat) : Nat := Tab.get d.drv.rateClass m 0
def Datapath.ratePort (d : Datapath) (p : Nat) : Nat := Tab.get d.drv.ratePort p 0

/-- Whether the shapers of class c of port p allow a start (R374). -/
def Datapath.shaperOk (d : Datapath) (p c : Nat) : Bool :=
  let m := 8 * p + c
  (d.rateClass m = 0 || 0 ≤ Tab.get d.drv.tokClass m 0) &&
  (d.ratePort p = 0 || 0 ≤ Tab.get d.drv.tokPort p 0) &&
  (p < 512 || 0 ≤ Tab.get d.drv.tokCap p 0)

/-- The charged length of a copy (R368). -/
def Datapath.chargedLen (d : Datapath) (p lout : Nat) : Nat := max lout 60 + 4 + d.rd F.drvPortCfg_OVH p

/-- Whether a class is strict (R369). -/
def Datapath.strict (d : Datapath) (m : Nat) : Bool := d.flag F.drvClassCfg_STRICT m

/-- A deficit as the signed 32-bit number it is (R370); what stands there once a sum leaves that range is a free value, since
no rule states it. Log entry 88. -/
def deficit32 (v : Int) : Int := if -(2 ^ 31) ≤ v && v < 2 ^ 31 then v else (Config.wideDeficit v).toInt

/-- A copy's charged length is taken from the deficit and the shapers of its class and port (R371, R372). -/
def Datapath.charge (d : Datapath) (q lout : Nat) : Datapath :=
  let p := portOfQ q
  let lq : Int := d.chargedLen p lout
  let take (t : Int) : Int := max (t - lq * 2 ^ 20) tokFloor
  let v := d.drv
  let v := if d.strict q then v else { v with deficit := Tab.upd v.deficit q 0 (fun x => deficit32 (x - lq)) }
  let v := if d.rateClass q = 0 then v else { v with tokClass := Tab.upd v.tokClass q 0 take }
  let v := if d.ratePort p = 0 then v else { v with tokPort := Tab.upd v.tokPort p 0 take }
  let v := if p < 512 then v else { v with tokCap := Tab.upd v.tokCap p 0 take }
  { d with drv := v }

/-! ## Gate lists (R379 to R388) -/

/-- The lists of a port. -/
def Datapath.gates (d : Datapath) (p : Nat) : GatePort := Tab.get d.drv.gates p {}

/-- Replaces the lists of a port. -/
def Datapath.setGates (d : Datapath) (p : Nat) (g : GatePort) : Datapath :=
  { d with drv := { d.drv with gates := Tab.put d.drv.gates p g {} } }

/-- Gate modes (R391). -/
def GM.recovery : Nat := 0
def GM.waiting : Nat := 1
def GM.normal : Nat := 2

/-- The gate mode of a port. -/
def Datapath.gateMode (d : Datapath) (p : Nat) : Nat := d.rd F.drvGateStat_MODE p

/-- The entries of a list: gates and interval. -/
def Datapath.gateEntries (d : Datapath) (p : Nat) (l : GateList) : List (Nat × Nat) :=
  (List.range l.len).map (fun k =>
    (d.rd F.drvGclLo_GATES (256 * p + l.start + k), d.rd F.drvGclHi_INTERVAL (256 * p + l.start + k)))

/-- The entry in force at position u of a cycle, and its gates: the last entry with a non-zero interval lasts to the
end of the cycle (R381). -/
def gateEntryAt (es : List (Nat × Nat)) (u : Nat) : Option (Nat × Nat) :=
  let r := (List.range es.length).foldl (fun (a : Nat × Option (Nat × Nat)) k =>
    let e := es.getD k (0, 0)
    (a.1 + e.2, if e.2 ≠ 0 && a.1 ≤ u then some (k, e.1) else a.2)) (0, none)
  r.2

/-- The entry and gates of a list at an instant; none before BASE (R381). -/
def Datapath.gateAt (d : Datapath) (p : Nat) (l : GateList) (t : Nat) : Option (Nat × Nat) :=
  if t < l.base then none else gateEntryAt (d.gateEntries p l) ((t - l.base) % l.cycle)

/-- The list that governs an instant: the pending list from its first start on, else the list in force (R382). -/
def GatePort.governs (g : GatePort) (t : Nat) : Option GateList :=
  match g.pending with
  | some l => if l.first ≤ t then some l else g.inForce
  | none => g.inForce

/-- Whether the gate of class c of a port is open at an instant in NORMAL mode. -/
def Datapath.gateOpen (d : Datapath) (p c t : Nat) : Bool :=
  match (d.gates p).governs t with
  | some l =>
    match d.gateAt p l t with
    | some e => e.2.testBit c
    | none => false
  | none => false

/-- The instants in (t, t + n] at which a list that runs from an instant on may change state. -/
def Datapath.gateEdges (d : Datapath) (p : Nat) (l : GateList) (runs t n : Nat) : List Nat :=
  let es := d.gateEntries p l
  let t0 := max t runs
  let start := if t0 < l.base then l.base else l.base + (t0 - l.base) / l.cycle * l.cycle
  let pos := (List.range (es.length + 1)).map (fun k => min l.cycle (((es.take k).map (·.2)).foldl (· + ·) 0))
  let cycles := if t + n < start then 0 else (t + n - start) / l.cycle + 1
  ((List.range cycles).flatMap (fun j => pos.map (start + j * l.cycle + ·))).filter (fun u => t < u && u ≤ t + n)

/-- The gate test of R384 for class c of port p, at start instant t, for a copy of lb bytes. -/
def Datapath.gateTest (d : Datapath) (p c t lb : Nat) : Bool :=
  let g := d.gates p
  if !d.gateOpen p c t then false
  else
    let n := match g.inForce with
      | some l => l.cycle
      | none => 0
    let edges := (match g.inForce with
      | some l => d.gateEdges p l 0 t n
      | none => []) ++ (match g.pending with
      | some l => l.first :: d.gateEdges p l l.first t n
      | none => [])
    let closes := edges.filter (fun u => t < u && u ≤ t + n && !d.gateOpen p c u)
    let s := d.speed p
    let dur := if s = 0 then 0 else ceilDiv ((lb + 12) * 8) s
    closes.all (fun u => t + dur ≤ u)

/-- A gated port follows its time base: HOLDOVER puts it in RECOVERY; without it, a list in force or pending takes
it to WAITING (R388). -/
def Datapath.gateFollow (d : Datapath) (p : Nat) : Datapath :=
  let g := d.gates p
  if !d.pmGated p then d
  else if d.holdover (d.pmTb p) then d.wr F.drvGateStat_MODE GM.recovery p
  else if d.gateMode p = GM.recovery && (g.inForce.isSome || g.pending.isSome) then
    d.wr F.drvGateStat_MODE GM.waiting p
  else d

/-- Every gated port follows its time base. -/
def Datapath.gatesFollow (d : Datapath) : Datapath :=
  d.portMode.foldl (fun d e => if e.1 < 512 then d.gateFollow e.1 else d) d

/-- Whether ranges of gate entries overlap. -/
def gateOverlap (s n : Nat) (l : Option GateList) : Bool :=
  match l with
  | some l => s < l.start + l.len && l.start < s + n
  | none => false

/-- A commit of the staged list of port p (R382). -/
def Datapath.gateCommit (d : Datapath) (p : Nat) : Datapath :=
  let s := d.rd F.drvGateCtl_START p
  let n := d.rd F.drvGateCtl_LEN p
  let cyc := d.rd F.drvGateCycle_CYCLE p
  let ns := d.rd F.drvGateBaseNs_NS p
  let g := d.gates p
  if n = 0 || 256 < s + n || cyc < 1000 || ns ≥ 1000000000 || gateOverlap s n g.inForce || gateOverlap s n g.pending then
    d.wr F.drvEvt_GATE_ERR 1
  else
    let base := (d.rd F.drvGateBaseSh_SEC p * 2 ^ 32 + d.rd F.drvGateBaseSl_SEC p) * 1000000000 + ns
    let now := (d.tbNow (d.pmTb p)).abs
    let first := if now ≤ base then base else base + ceilDiv (now - base) cyc * cyc
    ((d.setGates p { g with pending := some { start := s, len := n, cycle := cyc, base := base, first := first } }).wr
      F.drvGateStat_PENDING 1 p).gateFollow p

/-- RUN written 0: both lists are discarded (R383, R388). -/
def Datapath.gateDiscard (d : Datapath) (p : Nat) : Datapath :=
  ((d.setGates p {}).wr F.drvGateStat_PENDING 0 p).wr F.drvGateStat_MODE GM.recovery p

/-- A write of DRV_GATE_CTL_n (R382, R383). -/
def Datapath.writeGateCtl (d : Datapath) (p : Nat) (be : BitVec 4) (data : Word) : Datapath :=
  let d := d.writeReg .drvGateCtl false be data p
  if !be.getLsbD 3 then d
  else if !d.flag F.drvGateCtl_RUN p then d.gateDiscard p
  else if F.drvGateCtl_COMMIT.wo be data = 1 then d.gateCommit p
  else d

/-- A write of a gate entry: refused while it lies in the range of a list in force or pending (R383). -/
def Datapath.writeGcl (d : Datapath) (r : Reg) (m : Nat) (be : BitVec 4) (data : Word) : Datapath :=
  let g := d.gates (m / 256)
  if gateOverlap (m % 256) 1 g.inForce || gateOverlap (m % 256) 1 g.pending then d.wr F.drvEvt_GATE_WR_REFUSED 1
  else d.writeReg r false be data m

/-- S' of the pending list of a port arrives (R382, R388). -/
def Datapath.gateSwitch (d : Datapath) (p : Nat) : Datapath :=
  let g := d.gates p
  match g.pending with
  | none => d
  | some l =>
    let d := ((d.setGates p { inForce := some l, pending := none }).wr F.drvGateStat_PENDING 0 p).wr F.drvEvt_GATE_SWITCH 1
    if d.gateMode p = GM.waiting then d.wr F.drvGateStat_MODE GM.normal p else d

/-- A cycle of the list in force starts on a port in WAITING (R388, R169). -/
def Datapath.gateCycle (d : Datapath) (p : Nat) : Datapath :=
  if d.gateMode p = GM.waiting && (d.gates p).inForce.isSome && !d.holdover (d.pmTb p) then
    d.wr F.drvGateStat_MODE GM.normal p
  else d

/-- The word of DRV_GATE_STAT_n: ENTRY is the entry in force (R391). -/
def Datapath.gateStatWord (d : Datapath) (p : Nat) : Word :=
  let w := RegFile.word d.regs .drvGateStat p 0
  let e := if d.gateMode p = GM.normal then
      match (d.gates p).inForce with
      | some l => ((d.gateAt p l (d.tbNow (d.pmTb p)).abs).getD (0, 0)).1
      | none => 0
    else 0
  putBits w 7 0 e

/-! ## Preemption in use (R387, R409) -/

/-- Whether preemption is in use on a port (R387). A gated port stays in recovery mode, and so uses preemption, until the
cycle start that takes it to NORMAL (R168, R169): WAITING still belongs to it, log entry 89. -/
def Datapath.preemptInUse (d : Datapath) (p : Nat) : Bool :=
  p < 512 && (if d.pmGated p then d.gateMode p ≠ GM.normal else d.flag F.drvPortCfg_PREEMPT_FORCE p)

/-- Whether the verification of a port succeeded or is off (R409). -/
def Datapath.verOk (d : Datapath) (p : Nat) : Bool :=
  d.rd F.penMmStat_VERIFY (penOf p) (slotOf p) = 2 || d.flag F.penMmCtl_VERIFY_DIS (penOf p) (slotOf p)

/-- Whether preemption is active on a port: in use, and verification succeeded or is off (R409). -/
def Datapath.preemptActive (d : Datapath) (p : Nat) : Bool := d.preemptInUse p && d.verOk p

/-- Whether class c of a port belongs to the express stream (R387). -/
def Datapath.isExpress (d : Datapath) (p c : Nat) : Bool := !d.preemptInUse p || !(d.pmPreemptTc p).testBit c

/-- The granted copy of a stream of a port that has not been read to its end (R366). -/
def Datapath.inService (d : Datapath) (p : Nat) (express : Bool) : Option (Nat × Copy) :=
  d.copies.find? (fun c => portOfQ c.2.q = p && c.2.granted && !c.2.away && c.2.expressStream = express)

/-- Whether a control frame is pending on a port (R408). -/
def Datapath.ctrlPending (d : Datapath) (p : Nat) : Bool :=
  let x := d.txPort p
  x.ctrlPend || x.respPend || x.verPend

/-- Whether a stream of a port is free (R366, R408, R409). -/
def Datapath.streamFree (d : Datapath) (p : Nat) (express : Bool) : Bool :=
  (d.inService p express).isNone && (d.preemptActive p || (d.inService p (!express)).isNone) &&
    (!d.ctrlPending p || (d.preemptActive p && !express))

/-! ## Eligibility (R367) -/

/-- Whether a copy may start to leave before its frame's last sector is written (R356). -/
def Datapath.mayCutThrough (d : Datapath) (p : Nat) (x : Frame) : Bool :=
  d.flag F.celPortCfg_CT_EN p && x.info.port < 512 && d.speed p ≤ d.speed x.info.port

/-- Whether a copy may start under R356 and R320. -/
def Datapath.mayStart (d : Datapath) (c : Copy) (x : Frame) : Bool :=
  (x.allWritten || c.kind = 2 || (c.kind = 0 && d.mayCutThrough (portOfQ c.q) x)) &&
    (x.ended || (match d.tplOf c with
      | some t => !tplUsesLen t
      | none => true))

/-- Whether a copy's template lets it begin to leave: its decrements can be judged (R319), and the length that it uses is
known (R320). -/
def Datapath.tplReady (d : Datapath) (c : Copy) (x : Frame) : Bool :=
  match d.tplOf c with
  | some t => x.ended || (!tplUsesLen t && tplArrived t x.bytes.length)
  | none => true

/-- Whether a launch time acts on a copy (R375). -/
def Datapath.launchActs (d : Datapath) (c : Copy) : Bool :=
  c.launch.isSome && portOfQ c.q < 512 && d.flag F.drvClassCfg_LT_EN c.q

/-- Whether a class of a port is paused: a class in STORM is not (R221, R389). -/
def Datapath.paused (d : Datapath) (p c : Nat) : Bool := p < 512 && (d.pauseOf p c).st = .paused

/-- PUSH_LEN of a copy's template, as the bound of R384 takes it. -/
def Datapath.pushBound (d : Datapath) (c : Copy) : Nat :=
  match d.tplOf c with
  | some t => pushCount t
  | none => 0

/-- Lb of R384: the length of a copy, or its bound, with the trailer on a flock link. -/
def Datapath.gateLen (d : Datapath) (c : Copy) (x : Frame) : Nat :=
  let t := if (d.flkLinkOf (portOfQ c.q)).isSome then 8 else 0
  if x.ended then max (d.loutOf c x) 60 + t
  else (if d.pmMaxLen x.info.port = 0 then 1518 + 4 * x.tags else d.pmMaxLen x.info.port) + d.pushBound c + t

/-- Whether a copy's frame has ended bad: a copy that has not begun to leave is then removed as its queue reaches it
(R210, R357). -/
def Copy.isBad (c : Copy) (x : Frame) : Bool := c.kind ≠ 2 && x.ended && x.rxErr ≠ RC.none

/-- Whether a copy waits to be removed for its bad frame: one whose write into a receive queue has begun goes on, and so does
one whose queue delivers bad frames (R210, R357). -/
def Datapath.removes (d : Datapath) (c : Copy) (x : Frame) : Bool :=
  c.isBad x && !c.started && !(match c.rxq with
    | some q => d.flag F.trgRxqCfg_DELIVER_BAD q
    | none => false)

/-- Whether R376 finds the launch time of a copy that becomes the head of its class now due. -/
def Datapath.dueAtOnce (d : Datapath) (lead : Nat) (c : Copy) : Bool :=
  match c.launch with
  | some t =>
    let p := portOfQ c.q
    let dif := compactDiff t (d.tbNow (d.pmTb p))
    decide (t.ns < 1000000000) && dif ≤ lead && -(d.pmLateLimit p : Int) ≤ dif
  | none => true

/-- What R367 asks of a class besides that its head copy may start. -/
def Datapath.classReady (d : Datapath) (lead : Nat) (c : Copy) (x : Frame) : Bool :=
  let p := portOfQ c.q
  let tc := tcOfQ c.q
  d.sendable p && !d.paused p tc && (c.kind = 2 || d.shaperOk p tc) &&
    (!d.launchActs c || c.judge = .due) &&
    (!(d.pmGated p && d.gateMode p = GM.normal) ||
      d.gateTest p tc ((d.tbNow (d.pmTb p)).abs + lead) (d.gateLen c x))

/-- Whether a copy at the head of its queue makes its class eligible (R367). -/
def Datapath.eligible (d : Datapath) (lead : Nat) (c : Copy) (x : Frame) : Bool :=
  d.mayStart c x && !d.removes c x && d.classReady lead c x

/-- Whether R385 times a copy's start: on a gated port in NORMAL mode, and with a launch time. -/
def Datapath.timedCopy (d : Datapath) (c : Copy) : Bool :=
  let p := portOfQ c.q
  d.launchActs c || (p < 512 && d.pmGated p && d.gateMode p = GM.normal)

/-- IPG in effect (R395). -/
def Datapath.ipg (d : Datapath) (p : Nat) : Nat := max (d.rd F.penTxCtl_IPG (penOf p) (slotOf p)) 12

/-- The ns that n bytes take at a port's MAC speed. -/
def Datapath.byteTime (d : Datapath) (p n : Nat) : Nat := if d.speed p = 0 then 0 else ceilDiv (8 * n) (d.speed p)

/-- The transmit MAC has n bytes and a gap to send behind what it has accepted (R400, R401). -/
def Datapath.tailFor (d : Datapath) (p n : Nat) : Datapath :=
  let now := (d.tbNow (d.pmTb p)).abs
  d.setTx p { d.txPort p with tailFrom := now, tailTo := now + d.byteTime p (n + d.ipg p) }

/-- Bytes of the frame of a copy that its transmit MAC holds or knows will come, pad and trailer counted (R415). -/
def Datapath.heldBytes (d : Datapath) (c : Copy) (x : Frame) : Nat :=
  if x.ended then max (d.loutOf c x + (if c.flock then 8 else 0)) 60 else 32 * c.read + d.pushOf c x

/-- The least fragment of a port, check bytes included (R415). -/
def Datapath.leastFragment (d : Datapath) (p : Nat) : Nat := 64 * (1 + d.rd F.penMmCtl_ADD_FRAG (penOf p) (slotOf p))

/-- The bytes of a preemptable copy in transmission that lie on the wire: reckoned from the time since its fragment began, and
no more than the interface has accepted. Log entry 90. -/
def Datapath.onWire (d : Datapath) (p : Nat) (c : Copy) (x : Frame) : Nat :=
  let t := d.txPort p
  let now := (d.tbNow (d.pmTb p)).abs
  min (min (32 * c.read + d.pushOf c x) (d.heldBytes c x)) (t.sentTo + ((now - t.wireFrom) * d.speed p / 8 - 8))

/-- Whether the preemptable MAC is idle, or can end its fragment, with the gap and the express preamble, by now + LEAD (R418). -/
def Datapath.fragmentInTime (d : Datapath) (lead p : Nat) : Bool :=
  match d.inService p false with
  | none => true
  | some y =>
    match d.frame y.2.fid with
    | none => true
    | some x =>
      let t := d.txPort p
      let at' := d.onWire p y.2 x
      let stop := max at' (t.sentTo + d.leastFragment p - 4)
      !y.2.started || t.away ||
        (stop + 60 ≤ d.heldBytes y.2 x && d.byteTime p (stop - at' + 4 + d.ipg p + 8) ≤ lead)

/-- Whether a port is free for a copy that R385 times: its start lies behind the last frame's FCS and gap (R401), and while
preemption is active the express stream finds the preemptable one out of the way (R418). -/
def Datapath.freeForTimed (d : Datapath) (lead p : Nat) (express : Bool) : Bool :=
  let now := (d.tbNow (d.pmTb p)).abs
  let t := d.txPort p
  (now < t.tailFrom || t.tailTo ≤ now + lead) && (!express || !d.preemptActive p || d.fragmentInTime lead p)

/-- The head copy of a class queue: the first that has not been granted; for a client port, the first whose write
into its receive queue may start and that has not been granted (R367, R450). -/
def Datapath.headCopy (d : Datapath) (q : Nat) : Option (Nat × Copy) :=
  (d.classQueue q).find? (fun c => !c.2.granted && (!isClient (portOfQ q) || c.2.started))

/-- The flock control frame that heads a class of a port, if one waits (R529). -/
def Datapath.ctrlHead (d : Datapath) (q : Nat) : Option (Nat × List Byte) :=
  match d.flkLinkOf (portOfQ q) with
  | some l => if tcOfQ q = d.flkCtrlTc then ((d.flkLink l).ctrl.head?).map (fun b => (l, b)) else none
  | none => none

/-- A flock control frame as a copy with its frame. -/
def ctrlCopy (q : Nat) (bytes : List Byte) : Copy × Frame :=
  ({ fid := 0, q := q, kind := 2 },
   { pen := penOf (portOfQ q), port := portOfQ q, bytes := bytes, ended := true, len := bytes.length,
     info := { port := 1023 }, inPen := 40, written := sectorsOf bytes.length })

/-- The eligible classes of a stream of a port. -/
def Datapath.candidates (d : Datapath) (lead p : Nat) (express : Bool) : List Nat :=
  (List.range 8).filter (fun c =>
    let q := 8 * p + c
    let fits (c : Copy) (x : Frame) : Bool :=
      d.eligible lead c x && (!d.timedCopy c || d.freeForTimed lead p express)
    d.isExpress p c = express &&
      (match d.ctrlHead q with
       | some b => let y := ctrlCopy q b.2; fits y.1 y.2
       | none =>
         match d.headCopy q with
         | some y =>
           match d.frame y.2.fid with
           | some x => fits y.2 x
           | none => false
         | none => false))

/-! ## Selection (R369, R370) -/

/-- The quantum of a class (R370). -/
def Datapath.quantum (d : Datapath) (m : Nat) : Int := 64 * max (d.rd F.drvClassCfg_QUANTUM m) 1

/-- The next class after cur among the candidates, in the order 7, 6, …, 0, 7 (R370). -/
def nextClass (cand : List Nat) (cur : Nat) : Nat :=
  ((List.range 8).map (fun k => (cur + 7 - k) % 8)).find? (fun c => cand.contains c) |>.getD cur

/-- The loop of R370 over at most n visits. -/
def dwrrLoop (quantum : Nat → Int) (cand : List Nat) : Nat → Tab Int → Nat → Nat → Tab Int × Nat
  | 0, t, _, cur => (t, cur)
  | n + 1, t, port, cur =>
    let c := nextClass cand cur
    let v := deficit32 (Tab.get t (8 * port + c) 0 + quantum (8 * port + c))
    let t := Tab.put t (8 * port + c) v 0
    if 0 < v then (t, c) else dwrrLoop quantum cand n t port c

/-- How many visits the loop of R370 may need: the largest debt over the smallest gain, for each class. -/
def dwrrFuel (t : Tab Int) (cand : List Nat) (port : Nat) : Nat :=
  8 + (cand.map (fun c => (-(Tab.get t (8 * port + c) 0)).toNat / 64 + 1)).foldl (· + ·) 0 * 8

/-- Deficit round robin on a port (R370). -/
def Datapath.dwrr (d : Datapath) (p : Nat) (cand : List Nat) : Datapath × Nat :=
  let cur := Tab.get d.drv.cur p 0
  if cand.contains cur && 0 < Tab.get d.drv.deficit (8 * p + cur) 0 then (d, cur)
  else
    let r := dwrrLoop d.quantum cand (dwrrFuel d.drv.deficit cand p) d.drv.deficit p cur
    ({ d with drv := { d.drv with deficit := r.1, cur := Tab.put d.drv.cur p r.2 0 } }, r.2)

/-- The class selected among the eligible ones (R369). -/
def Datapath.selectClass (d : Datapath) (p : Nat) (cand : List Nat) : Option (Datapath × Nat) :=
  let sp := cand.filter (fun c => d.strict (8 * p + c))
  match sp.getLast? with
  | some c => some (d, c)
  | none => if cand = [] then none else some (d.dwrr p cand)

/-! ## Grants (R366) -/

/-- The ports of an output pen in the round robin order of R366. -/
def Datapath.portOrder (d : Datapath) (pen : Nat) : List Nat :=
  let n := if pen < 32 then 16 else 1
  let last := Tab.get d.drv.lastPort pen 0
  (List.range n).map (fun k => portAt pen ((last + k) % n))

/-- Whether a copy of known length is too long for its port (R398). -/
def Datapath.mtuBad (d : Datapath) (c : Copy) (x : Frame) : Bool :=
  let p := portOfQ c.q
  let out := (d.outBytes c x).getD []
  p < 512 && d.flag F.penTxCtl_MTU_CHK (penOf p) (slotOf p) && x.ended &&
    d.effMaxLen p out < max (d.loutOf c x + d.trailerLen c x) 60 + 4

/-- The round robin of a pen moves past the port just granted (R366). -/
def Datapath.onDrvLast (d : Datapath) (p : Nat) : Datapath :=
  let n := if penOf p < 32 then 16 else 1
  { d with drv := { d.drv with lastPort := Tab.put d.drv.lastPort (penOf p) ((slotOf p + 1) % n) 0 } }

/-- The head of a class of a port is granted (R366): a flock control frame becomes a copy of its own; a copy that is
too long is dropped with TX_MTU_DROP (R398). -/
def Datapath.grantHead (d : Datapath) (p c : Nat) (express : Bool) : Datapath :=
  let q := 8 * p + c
  let d := (d.pmnEvent 0x10 p).onDrvLast p
  match d.ctrlHead q with
  | some b =>
    let d := d.setFlk b.1 { d.flkLink b.1 with ctrl := (d.flkLink b.1).ctrl.drop 1 }
    let y := ctrlCopy q b.2
    let (d, f) := d.newFrame y.2
    { d with copies := Tab.set d.copies d.nextCopy { y.1 with fid := f, granted := true, expressStream := express,
                                                                    timed := d.timedCopy y.1 },
             nextCopy := d.nextCopy + 1 }
  | none =>
    match d.headCopy q with
    | none => d
    | some y =>
      match d.frame y.2.fid with
      | none => d
      | some x =>
        if d.mtuBad y.2 x then (d.tallyAdd p T.TX_MTU_DROP).endCopy y.1
        else d.setCopy y.1 { y.2 with granted := true, expressStream := express, timed := d.timedCopy y.2 }

/-- One stream of a port yields a selected class, if it is free. -/
def Datapath.tryStream (d : Datapath) (lead p : Nat) (express : Bool) : Option Datapath :=
  if !d.sendable p || !d.streamFree p express then none
  else (d.selectClass p (d.candidates lead p express)).map (fun r => r.1.grantHead p r.2 express)

/-- The drover of an output pen grants at most one copy start (R366). -/
def Datapath.droverGrant (d : Datapath) (lead pen : Nat) : Datapath :=
  ((d.portOrder pen).findSome? (fun p =>
    match d.tryStream lead p true with
    | some d' => some d'
    | none => if d.preemptInUse p then d.tryStream lead p false else none)).getD d

/-! ## Launch times (R375 to R378) -/

/-- A copy dropped under R376 ends and is reported (R378). -/
def Datapath.launchDrop (d : Datapath) (cid : Nat) (c : Copy) (x : Frame) (tally : Nat) : Datapath :=
  let d := (d.tallyAdd (portOfQ c.q) tally).wr F.drvEvt_LT_DROP 1
  (d.txNote x (fun r => { r with ltDrop := true })).endCopy cid

/-- The launch time of the head copy of a class is judged (R376); one whose NS is 10^9 or more is too far (R482). -/
def Datapath.launchJudge (d : Datapath) (q : Nat) : Datapath :=
  match d.headCopy q with
  | none => d
  | some y =>
    match y.2.launch, d.frame y.2.fid with
    | some t, some x =>
      if !d.launchActs y.2 || y.2.judge ≠ .not then d
      else
        let p := portOfQ q
        let dif := compactDiff t (d.tbNow (d.pmTb p))
        if 1000000000 ≤ t.ns || 2 ^ 30 < dif then d.launchDrop y.1 y.2 x T.LT_FAR
        else if 0 ≤ dif then d.setCopy y.1 { y.2 with judge := if dif = 0 then .due else .held }
        else if -dif ≤ d.pmLateLimit p then
          ((d.tallyAdd p T.LT_LATE).txNote x (fun r => { r with late := true })).setCopy y.1 { y.2 with judge := .due }
        else d.launchDrop y.1 y.2 x T.LT_DROP
    | _, _ => d

/-- The held head copy of a class becomes due once now ≥ T − LEAD (R377). -/
def Datapath.launchDue (d : Datapath) (lead q : Nat) : Datapath :=
  match d.headCopy q with
  | none => d
  | some y =>
    match y.2.launch with
    | some t =>
      if y.2.judge = .held && compactDiff t (d.tbNow (d.pmTb (portOfQ q))) ≤ lead then
        d.setCopy y.1 { y.2 with judge := .due }
      else d
    | none => d

/-! ## Registers -/

/-- A write of DRV_CLASS_CFG_m: DEF of a strict class is held at 0 (R371). -/
def Datapath.writeClassCfg (d : Datapath) (m : Nat) (be : BitVec 4) (data : Word) : Datapath :=
  let d := d.writeReg .drvClassCfg false be data m
  if d.strict m then { d with drv := { d.drv with deficit := Tab.erase d.drv.deficit m } } else d

/-- A signed value as a register shows it, saturating at the 32-bit limits (R391). -/
def satWord (v : Int) : Word := BitVec.ofInt 32 (max (-(2 ^ 31)) (min v (2 ^ 31 - 1)))

/-- The words of the token and deficit registers (R391). -/
def Datapath.tokPortWord (d : Datapath) (n : Nat) : Word := satWord (Tab.get d.drv.tokPort n 0 / 2 ^ 20)
def Datapath.tokClassWord (d : Datapath) (m : Nat) : Word := satWord (Tab.get d.drv.tokClass m 0 / 2 ^ 20)
def Datapath.deficitWord (d : Datapath) (m : Nat) : Word := satWord (Tab.get d.drv.deficit m 0)

/-! ## Commands -/

/-- LEAD: 40 ns, 58 ns at the cruise point (R375). -/
def State.lead (s : State) : Nat := if s.sh.seq.cruiseOn then 58 else 40

/-- Whether the drover of an output pen may grant. It may not while intake is stopped, before the image is in force (R147),
with the pen gated (R587), or for a held loop pen, whose copies wait under admission (R151). -/
def State.grantsCopies (s : State) (pen : Nat) : Bool :=
  !s.quiet && s.forwards && !s.dp.gated.contains pen && !(38 ≤ pen && s.penHeld pen)

/-- COPY_GRANT by the drover of an output pen (R366). -/
def execCopyGrant (pen : Nat) (s : State) : Out :=
  .next (if s.grantsCopies pen then s.onDp (fun d => d.droverGrant s.lead pen) else s)

/-- LAUNCH_JUDGE of the head copy of class c of port p (R376). -/
def execLaunchJudge (p c : Nat) (s : State) : Out :=
  .next (if s.sh.seq.state = .run || s.sh.seq.state = .trim then s.onDp (fun d => d.launchJudge (8 * p + c)) else s)

/-- LAUNCH_DUE of the head copy of class c of port p (R377). -/
def execLaunchDue (p c : Nat) (s : State) : Out :=
  .next (if s.sh.seq.state = .run || s.sh.seq.state = .trim then s.onDp (fun d => d.launchDue s.lead (8 * p + c)) else s)

/-- GATE_COMMIT: a write of DRV_GATE_CTL_n with COMMIT = 1 and RUN = 1 (R382). -/
def execGateCommit (src : Src) (n start len : Nat) (s : State) : Out :=
  .next (s.regWrite src (Reg.drvGateCtl.addr n 0) (fun s =>
    s.onDp (fun d => d.writeGateCtl n 0xF (BitVec.ofNat 32 (3 * 2 ^ 30 + len % 512 * 65536 + start % 256)))))

/-- GATE_DISCARD: a write of DRV_GATE_CTL_n with RUN = 0 (R383). -/
def execGateDiscard (src : Src) (n : Nat) (s : State) : Out :=
  .next (s.regWrite src (Reg.drvGateCtl.addr n 0) (fun s => s.onDp (fun d => d.writeGateCtl n 0x8 0)))

/-- GATE_ENTRY_WRITE of DRV_GCL_LO_m or DRV_GCL_HI_m (R383). -/
def execGateEntryWrite (src : Src) (hi : Bool) (m : Nat) (be : BitVec 4) (data : Word) (s : State) : Out :=
  let r : Reg := if hi then .drvGclHi else .drvGclLo
  .next (s.regWrite src (r.addr m 0) (fun s => s.onDp (fun d => d.writeGcl r m be data)))

/-- GATE_SWITCH of port p (R382). -/
def execGateSwitch (p : Nat) (s : State) : Out := .next (s.onDp (fun d => d.gateSwitch p))

/-- GATE_CYCLE_START of port p (R388). -/
def execGateCycleStart (p : Nat) (s : State) : Out := .next (s.onDp (fun d => d.gateCycle p))

/-- TIME_COMMAND_APPLY at the next tick of base b (R488); the gated ports follow the base (R388). -/
def execTimeCommandApply (b : Nat) (s : State) : Out := .next (s.onDp (fun d => (d.applyTbCmds b).gatesFollow))

/-- CORR_WD_EXPIRE of base b (R490); the gated ports follow the base (R388). -/
def execCorrWdExpire (b : Nat) (s : State) : Out := .next (s.onDp (fun d => (d.corrWdExpire b).gatesFollow))

end Sys2Proof.Machine
end

