-- ==== Sys2Proof/Machine/Cellar.lean ====
section
/-! DEFINITION. The cellar and the lofts (spec/11): admission, random early drop, storing, sinking, reading, bad
copies, discard and flush, registers. -/

namespace Sys2Proof.Machine

/-! ## Random early drop (R352 to R354) -/

/-- The generator of a pen: at reset what a write of the reset SEED gives (R353). -/
def Datapath.rngOf (d : Datapath) (pen : Nat) : Nat := Tab.get d.cel.rng pen (0xACE1 ^^^ pen)

/-- Sixteen shifts of the Galois generator (R353). -/
def galois16 (s : Nat) : Nat :=
  (List.range 16).foldl (fun s _ => if s % 2 = 1 then s / 2 ^^^ 0xB400 else s / 2) s

/-- What the drop test does to a copy (R353). -/
inductive Red where
  | pass | mark | refuse
  deriving DecidableEq, Repr

/-- The random early drop test of class queue q for a frame of input pen `pen` (R352, R353). -/
def Datapath.redTest (d : Datapath) (pen q colour : Nat) (ecn lossless : Bool) : Datapath × Red :=
  let avg : Int := d.rd F.celQRed_AVG q
  let avg := (avg + ((d.useQ q : Int) * 256 - avg) / 2 ^ d.rd F.celQRed_W q).toNat
  let d := d.wr F.celQRed_AVG avg q
  let n := 3 * d.rd F.celQCfg_RED q + colour
  let lo := d.rd F.celRedLo_MIN n
  let hi := d.rd F.celRedHi_MAX n
  let a := avg / 256
  let p :=
    if !d.flag F.celRedLo_EN n || a < lo then 0
    else if hi ≤ a then 65536
    else d.rd F.celRedHi_MAXP n * 16 * (a - lo) / (hi - lo)
  let r := galois16 (d.rngOf pen)
  let d := { d with cel := { d.cel with rng := Tab.set d.cel.rng pen r } }
  if p ≤ r then (d, .pass)
  else if d.flag F.celRedLo_ECN n && ecn then (d, .mark)
  else if lossless then (d, .pass)
  else (d, .refuse)

/-- Where the IPv4 header of an ECN-capable frame stands (R354): `h` is B + CK_OFS after the strip, if the merge word
names one. -/
def ecnCapable (bytes : List Byte) (h : Option Nat) : Option Nat :=
  match h with
  | some h =>
    if h < bytes.length && fieldOf (be bytes h 1) 7 4 = 4 && be bytes (h + 1) 1 % 4 ≠ 0 then some h else none
  | none => none

/-! ## Admission (R345, R347, R348) -/

/-- A copy that a verdict asks for. -/
structure CopyReq where
  port : Nat
  tc : Nat
  colour : Nat := 0
  tpl : Option Nat := none
  qvalid : Bool := false
  queue : Nat := 0
  ts : Option (Nat × Nat) := none
  flow : Nat := 0
  next : Option PassInfo := none
  launch : Option Time := none
  kind : Nat := 0
  kv : List Byte := []
  deriving DecidableEq, Repr

/-- A refusal of R348: the tally of a port, CEL_Q_DROP of the queue, the refusal event of the output port. -/
def Datapath.refuse (d : Datapath) (q port tally : Nat) : Datapath :=
  ((d.tallyAdd port tally).count F.celQDrop_FRAMES 1 q).pmnEvent 0x11 (portOfQ q)

/-- Whether a unicast frame is lossless (R349). -/
def Datapath.lossless (d : Datapath) (x : Frame) (tc : Nat) : Bool :=
  let m := d.fcMode x.info.port
  x.info.port < 512 && (m = 1 || (m = 2 && (d.pmPfcTc x.info.port).testBit tc))

/-- Whether the threshold test of R345 fails: pool k, minimum `mn`. -/
def Datapath.overThreshold (d : Datapath) (q k mn : Nat) : Bool :=
  let held := d.useQ q
  if held < mn then false
  else
    let free := d.poolSize k - d.poolUse k
    free = 0 || free * 2 ^ d.rd F.celQCfg_ALPHA q / 256 ≤ held - mn

/-- Whether no frame record is free for a frame (R334). -/
def Datapath.noRecord (d : Datapath) : Bool := 524288 - d.recordsUsed ≤ d.loftFrames

/-- Whether a frame fails the landing test of its input pen (R345). -/
def Datapath.noLanding (d : Datapath) (x : Frame) : Bool :=
  d.landLimit x.inPen < d.landUsed x.inPen + d.claimTotal x.inPen + d.claimOf x

/-- The receive queue of a copy for a client port, or its drop with RXQ_NONE (R448). -/
def Datapath.resolveRx (d : Datapath) (r : CopyReq) : Datapath × Option (Option Nat × Nat) :=
  if !isClient r.port then (d, some (none, 0))
  else
    match d.rxResolve r.port r.qvalid r.queue r.kv (r.kind = 1) with
    | some x => (d, some (some x.1, x.2))
    | none => (d.tallyAdd r.port T.RXQ_NONE, none)

/-- The test of a copy against its receive queue (R449): whether it is refused. -/
def Datapath.rxRefuse (d : Datapath) (r : CopyReq) (rxq : Option Nat) (claim : Nat) : Datapath × Bool :=
  match rxq with
  | none => (d, false)
  | some q =>
    let drop (t : Nat) : Datapath × Bool := ((d.tallyAdd r.port t).count F.trgRxqDrops_DROPS 1 q, true)
    let lim := d.rd F.trgRxqLimit_LIMIT q
    if d.rd F.trgRxqCtl_STATE q ≠ QS.running then drop T.RXQ_DROP_STATE
    else if lim ≠ 0 && lim ≤ d.useRx q + claim then
      drop (if d.ringFull (d.rd F.trgRxqCfg2_CQ q) then T.RXQ_DROP_STALL else T.RXQ_DROP_LIMIT)
    else (d, false)

/-- Adds an admitted copy to its queue. -/
def Datapath.addCopy (d : Datapath) (f : Nat) (r : CopyReq) (rx : Option Nat × Nat) (mark mcast entry : Bool) : Datapath :=
  let c : Copy := { fid := f, q := 8 * r.port + r.tc, rxq := rx.1, colour := r.colour, tpl := r.tpl, mcast := mcast,
                    entry := entry, mark := mark, ts := r.ts, launch := r.launch, next := r.next, kind := r.kind,
                    hash := rx.2, flow := r.flow }
  let d := { d with copies := Tab.set d.copies d.nextCopy c, nextCopy := d.nextCopy + 1 }
  if mark then d.tallyAdd r.port T.ECN_MARKED else d

/-- The run time of a loft. -/
def Datapath.loft (d : Datapath) (n : Nat) : Loft := Tab.get d.cel.lofts n {}

/-- Replaces a loft. -/
def Datapath.setLoft (d : Datapath) (n : Nat) (l : Loft) : Datapath :=
  { d with cel := { d.cel with lofts := Tab.put d.cel.lofts n l {} } }

/-- MIN of a class queue as its admission test finds it acts from that test on (R362). -/
def Datapath.takeMin (d : Datapath) (q : Nat) : Datapath :=
  { d with cel := { d.cel with minQ := Tab.put d.cel.minQ q (d.rd F.celQCfg_MIN q) 0 } }

/-- The free sectors of a loft: its ring is in use from the lowest sector on that is written and neither read nor moved
(R337). -/
def Datapath.loftFree (d : Datapath) (n : Nat) : Nat :=
  let l := d.loft n
  let unread := (l.frames ++ l.moving).flatMap (fun f =>
    match d.frame f, (d.copiesOf f).head? with
    | some x, some c => (x.locs.drop c.2.read).filterMap (fun v => if v % 2 = 0 then some (v / 2) else none)
    | _, _ => [])
  match unread with
  | [] => 256
  | u :: us => 256 - (l.wpos - us.foldl min u)

/-- Whether an output pen is idle for a port, for a copy of a frame that would head its class (R336): no copy of the port is
granted or read, and the class is eligible in this clock. Whether this frame's last sector or length is known does not count
(R320, R356). -/
def Datapath.idleFor (d : Datapath) (lead : Nat) (c : Copy) (x : Frame) : Bool :=
  let p := portOfQ c.q
  let head := if d.launchActs c && d.dueAtOnce lead c then { c with judge := .due } else c
  (d.inService p true).isNone && (d.inService p false).isNone && d.classReady lead head x

/-- Whether an admission to the loft of a lower-numbered input pen, for the same output pen, falls in this clock (R22). Which
admissions share a clock is free (log entry 84); those of one clock come in the order of their pens (R335). -/
def Datapath.loftLost (d : Datapath) (inPen outPen : Nat) : Bool :=
  (List.range inPen).any (fun i => d.meets .loftEntry (40 * i + outPen)) && Config.sameClock 1 d.nextCopy

/-- Whether a unicast copy takes the express path (R21, R22). -/
def Datapath.expressPath (d : Datapath) (lead : Nat) (c : Copy) (x : Frame) : Bool :=
  let p := portOfQ c.q
  (match c.rxq with
   | some r => (d.rxList r).isEmpty
   | none => (d.classQueue c.q).isEmpty) &&
  (d.pmExpressTc p).testBit (tcOfQ c.q) && d.idleFor lead c x && !d.loftLost x.inPen (penOf p)

/-- The admission of a unicast frame (R345): whether it was admitted. The frame leaves the block when it is not. -/
def Datapath.admitUnicast (d : Datapath) (lead : Nat) (f : Nat) (x : Frame) (r : CopyReq) (ecnH : Option Nat) : Datapath × Bool :=
  let q := 8 * r.port + r.tc
  let ip := x.info.port
  let res := d.resolveRx r
  match res.2 with
  | none => (res.1.dropFrame f, false)
  | some rx =>
    let d := res.1
    let d := d.takeMin q
    if d.discarding q then ((d.refuse q r.port T.Q_DROP_FLUSH).dropFrame f, false)
    else if d.noRecord then (((d.refuse q ip T.ADMIT_NO_RECORD).wr F.celEvt_NO_RECORD 1).dropFrame f, false)
    else if d.noLanding x then ((d.refuse q ip T.ADMIT_LANDING).dropFrame f, false)
    else
      let k := d.rd F.celQCfg_POOL q
      let above := d.overThreshold q k (d.rd F.celQCfg_MIN q)
      let ll := d.lossless x r.tc
      if above && !ll then ((d.refuse q r.port T.Q_DROP_THRESH).dropFrame f, false)
      else
        let ecn := ecnCapable x.bytes ecnH
        let t := d.redTest x.inPen q r.colour ecn.isSome ll
        if t.2 = .refuse then ((t.1.refuse q r.port T.Q_DROP_RED).dropFrame f, false)
        else
          let u := t.1.rxRefuse r rx.1 (d.claimOf x)
          if u.2 then (u.1.dropFrame f, false)
          else
            let d := u.1
            let c : Copy := { fid := f, q := q, rxq := rx.1, tpl := r.tpl, launch := r.launch, kind := r.kind }
            let n := 40 * x.inPen + penOf r.port
            let express := d.expressPath lead c x
            let sunk := express && ((d.loft n).sinking || d.loftFree n < 8 || (d.loft n).frames.length ≥ 128)
            let x' := { x with admitted := true, claim := d.claimOf x, tc := r.tc, queue := q, pool := k, headroom := above,
                               record := !express || sunk, loft := if express && !sunk then some n else none,
                               ecnAt := ecn }
            let d := (d.setFrame f x').addCopy f r rx (t.2 = .mark) false false
            let d := if sunk then d.tallyAdd r.port T.LOFT_SINK else d
            let d := if express then d.meet .loftEntry n else d
            let d := if express && !sunk then d.setLoft n { d.loft n with frames := (d.loft n).frames ++ [f] } else d
            (d.xoffEval ip r.tc above, true)

/-- The test of one copy of a multicast frame or of a sample (R347): whether it was admitted. `first` tells that no
copy of the frame has been admitted yet. -/
def Datapath.admitMember (d : Datapath) (f : Nat) (x : Frame) (r : CopyReq) (ecn : Option Nat) (first : Bool) :
    Datapath × Bool :=
  let q := 8 * r.port + r.tc
  let res := d.resolveRx r
  match res.2 with
  | none => (res.1, false)
  | some rx =>
    let d := res.1.takeMin q
    if d.discarding q then (d.refuse q r.port T.Q_DROP_FLUSH, false)
    else if !first && d.entriesUsed ≥ 262144 then (d.refuse q r.port T.MC_COPY_DROP, false)
    else if d.overThreshold q d.mcPool 0 then (d.refuse q r.port T.Q_DROP_THRESH, false)
    else
      let t := d.redTest x.inPen q r.colour ecn.isSome false
      if t.2 = .refuse then (t.1.refuse q r.port T.Q_DROP_RED, false)
      else
        let u := t.1.rxRefuse r rx.1 (d.claimOf x)
        if u.2 then (u.1, false) else (u.1.addCopy f r rx (t.2 = .mark) true (!first), true)

/-- The admission of a multicast frame or a sample (R347): whether some copy was admitted. -/
def Datapath.admitMulti (d : Datapath) (f : Nat) (x : Frame) (rs : List CopyReq) (ecnH : Option Nat) : Datapath × Bool :=
  match rs with
  | [] => (d.dropFrame f, false)
  | r0 :: _ =>
    let q0 := 8 * r0.port + r0.tc
    let ip := x.info.port
    if d.noRecord then (((d.refuse q0 ip T.ADMIT_NO_RECORD).wr F.celEvt_NO_RECORD 1).dropFrame f, false)
    else if d.noLanding x then ((d.refuse q0 ip T.ADMIT_LANDING).dropFrame f, false)
    else
      let ecn := ecnCapable x.bytes ecnH
      let x' := { x with admitted := true, claim := d.claimOf x, tc := r0.tc, queue := q0, pool := d.mcPool, mcast := true,
                         record := true, ecnAt := ecn }
      let y := rs.foldl (fun (a : Datapath × Bool) r =>
        let m := a.1.admitMember f x r ecn (!a.2)
        (m.1, a.2 || m.2)) (d, false)
      if y.2 then ((y.1.setFrame f x').xoffEval ip r0.tc, true) else (y.1.dropFrame f, false)

/-! ## Storing (R330, R331, R337) -/

/-- The bank of a cell. -/
def bankOf (w : Nat) : Nat := w / 8192

/-- Cells of a bank on its free list. -/
def Cellar.bankFree (k : Cellar) (b : Nat) : Nat := 8192 - (k.cells.filter (fun e => bankOf e.1 = b)).length

/-- The banks in which a writer other than w holds an open cell. -/
def Cellar.heldBanks (k : Cellar) (w : Nat) : List Nat :=
  (k.openCell.filter (fun e => e.1 ≠ w)).map (fun e => bankOf e.2)

/-- The bank from which a writer takes its new open cell (R331). -/
def Cellar.pickBank (k : Cellar) (w : Nat) : Nat :=
  let held := k.heldBanks w
  let best (bs : List Nat) : Option Nat := bs.foldl (fun (a : Option Nat) b =>
    match a with
    | none => some b
    | some c => if k.bankFree c < k.bankFree b then some b else some c) none
  let free := (List.range 64).filter (fun b => !held.contains b && 0 < k.bankFree b)
  (best free).getD ((best (List.range 64)).getD 0)

/-- A writer's open cell is closed. It stops being a second writer; where it held its bank, the writer that has waited longest
among the others with a cell open there becomes the holder: DESIGN CHOICE, log entry 91 (R331). -/
def Cellar.closeCell (k : Cellar) (w : Nat) : Cellar :=
  match Tab.find k.openCell w with
  | none => k
  | some c =>
    let left := Tab.erase k.openCell w
    let rest := k.second.filter (· ≠ w)
    let heir := if k.second.contains w then none
                else rest.find? (fun v => match Tab.find left v with
                  | some c' => bankOf c' = bankOf c
                  | none => false)
    { k with openCell := left, second := rest.filter (fun v => some v ≠ heir) }

/-- The open cell of a writer, taken if it holds none; none where no cell is free. A cell of a bank that another writer holds
makes it a second writer there (R331). -/
def Cellar.openFor (k : Cellar) (w : Nat) : Cellar × Option Nat :=
  match Tab.find k.openCell w with
  | some c => (k, some c)
  | none =>
    let b := k.pickBank w
    if k.bankFree b = 0 then (k, none)
    else
      let c := Tab.fresh (k.cells.filter (fun e => bankOf e.1 = b)) (8192 * b)
      ({ k with cells := Tab.set k.cells c {}, openCell := Tab.set k.openCell w c,
                second := if (k.heldBanks w).contains b then k.second ++ [w] else k.second }, some c)

/-- A writer stores up to n sectors in its open cell: the places they take (R330). -/
def Cellar.store (k : Cellar) (w n : Nat) : Cellar × List Nat :=
  match k.openFor w with
  | (k, none) => (k, [])
  | (k, some c) =>
    let x := Tab.get k.cells c {}
    let m := min n (8 - x.fill)
    let y : Cell' := { live := x.live + m, fill := x.fill + m, open' := x.fill + m < 8 }
    let k := { k with cells := Tab.set k.cells c y }
    (if y.open' then k else k.closeCell w,
     (List.range m).map (fun i => 2 * (8 * c + x.fill + i) + 1))

/-- The source that gives one more cell to a frame: 0 minimum, 1 pool, 2 headroom, 3 landing (R346, R347). MIN acts as the
queue's last admission test found it (R362). -/
def Datapath.cellSource (d : Datapath) (x : Frame) : Nat :=
  let pool := decide (d.poolUse x.pool < d.poolSize x.pool)
  if x.mcast then (if pool then 1 else 3)
  else if d.useQ x.queue < Tab.get d.cel.minQ x.queue 0 then 0
  else if pool then 1
  else if x.headroom && d.hrUse x.pool < d.headroom x.pool then 2
  else 3

/-- Charges a cell to a frame (R346). -/
def Datapath.chargeCell (d : Datapath) (x : Frame) (key : Nat) : Frame := x.withSrcs (Tab.set x.srcs key (d.cellSource x))

/-- A frame's sectors take new places: each cell that now holds one of them is charged, and then each that no longer does goes
back to the source that gave it (R344, R346). -/
def Datapath.placed (d : Datapath) (f : Nat) (x : Frame) (locs : List Nat) : Datapath :=
  let keys := (locs.map cellKey).eraseDups
  let r := (keys.filter (fun k => (Tab.find x.srcs k).isNone)).foldl (fun (a : Datapath × Frame) k =>
    let z := a.1.chargeCell a.2 k
    (a.1.setFrame f z, z)) (d.setFrame f x, x)
  r.1.setFrame f { r.2.withSrcs (Tab.drop r.2.srcs (fun k => !keys.contains k)) with locs := locs }

/-- Whether a loft frame's further sectors go to the cellar: its loft is sinking, or it does not lie in one. -/
def Datapath.toCellar (d : Datapath) (x : Frame) : Bool :=
  match x.loft with
  | some n => (d.loft n).sinking
  | none => true

/-- Whether the reading of a frame has not begun. -/
def Datapath.unread (d : Datapath) (f : Nat) : Bool :=
  match (d.copiesOf f).head? with
  | some c => c.2.read = 0 && c.2.ahead = []
  | none => false

/-- A loft in which a written sector waits unread begins to sink (R338, R339): every frame whose reading has not begun takes
a frame record, frees its loft record and is to be moved. -/
def Datapath.sinkStart (d : Datapath) (n : Nat) : Datapath :=
  let l := d.loft n
  if l.sinking || d.loftFree n = 256 then d
  else
    let go := l.frames.filter d.unread
    let d := d.setLoft n { l with sinking := true, frames := l.frames.filter (fun f => !go.contains f), moving := go }
    let d := { d with cel := { d.cel with sinkOrder := d.cel.sinkOrder ++ [n] } }
    go.foldl (fun d f =>
      match d.frame f, (d.copiesOf f).head? with
      | some x, some c => (d.setFrame f { x with record := true, moving := true }).tallyAdd (portOfQ c.2.q) T.LOFT_SINK
      | _, _ => d) d

/-- The sectors of a frame that may be presented: whole sectors while it arrives, all of them at its end (R19). -/
def Frame.available (x : Frame) : Nat :=
  if x.ended then sectorsOf x.stored else x.bytes.length / 32

/-- The staging of a frame after its sectors moved on (R214, R215). -/
def Frame.afterBeat (x : Frame) (m : Nat) : Frame :=
  let x := { x with written := x.written + m }
  if x.ended then x.endStaged else { x with resv := x.resv - 32 * m }

/-- A writer stores sectors in its open cell; the holder of a bank is noted to write in this clock (R331). -/
def Datapath.storeBy (d : Datapath) (w n : Nat) : Datapath × List Nat :=
  let o := d.cel.openFor w
  let r := o.1.store w n
  let d := { d with cel := r.1 }
  (match o.2 with
   | some c => if o.1.second.contains w then d else d.meet .bankWrite (bankOf c)
   | none => d, r.2)

/-- A second writer presents no beat in a clock in which the holder of its bank writes, and the clock is counted (R331). -/
def Datapath.writeStall (d : Datapath) (pen : Nat) : Datapath := (d.wr F.celEvt_WRITE_STALL 1).pmnEvent 0x0C pen

/-- An input pen presents a beat of a frame (R18, R330, R337). A beat of the loft for which there is no room makes the
loft sink (R338). `stall` tells that the holder of the bank of a second writer writes in this clock (R331). -/
def Datapath.beatWrite (d : Datapath) (f : Nat) (stall : Bool) : Datapath :=
  match d.frame f with
  | none => d
  | some x =>
    let m := min 8 (x.available - x.written)
    if !x.admitted || m = 0 then d
    else
      let d := match x.loft with
        | some n => if !(d.loft n).sinking && d.loftFree n < m then d.sinkStart n else d
        | none => d
      let x := (d.frame f).getD x
      if !d.toCellar x then
        match x.loft with
        | some n =>
          let l := d.loft n
          let d := d.setLoft n { l with wpos := l.wpos + m }
          let d := d.placed f x (x.locs ++ (List.range m).map (fun i => 2 * (l.wpos + i)))
          (d.modFrame f (fun y => y.afterBeat m)).xoffEval x.info.port x.tc
        | none => d
      else
        let o := d.cel.openFor x.inPen
        if stall && o.1.second.contains x.inPen then { d with cel := o.1 }.writeStall x.inPen
        else
          let r := d.storeBy x.inPen m
          let d := r.1.placed f { x with record := true } (x.locs ++ r.2)
          (d.modFrame f (fun y => y.afterBeat r.2.length)).xoffEval x.info.port x.tc

/-! ## Sinking (R339) -/

/-- The first frame of a loft that is to be moved. -/
def Datapath.nextMoving (d : Datapath) (n : Nat) : Option Nat :=
  (d.loft n).moving.find? (fun f => match d.frame f with
    | some x => x.moving
    | none => false)

/-- The loft that a sink engine serves: the one it has, or the first that waits for an engine (R339). -/
def Datapath.sinkLoft (d : Datapath) (e : Nat) : Option Nat :=
  match d.cel.sinkOrder.find? (fun n => (d.loft n).engine = some e) with
  | some n => some n
  | none => d.cel.sinkOrder.find? (fun n => (d.loft n).engine.isNone)

/-- Whether the holder of a sink engine's bank writes in the clock of this move (R331): whether a write noted before it falls in
its clock is free (log entry 84). -/
def Datapath.sinkStalls (d : Datapath) (w : Nat) : Bool :=
  d.cel.second.contains w && (match Tab.find d.cel.openCell w with
    | some c => d.meets .bankWrite (bankOf c)
    | none => false) && Config.sameClock 2 d.cel.draws

/-- A sink engine moves up to eight sectors of the oldest unmoved frame of its loft into its open cell (R339), unless it is a
second writer that stalls (R331). The cells charged to the frame change with its places, and with them its XOFF state (R344,
R350). -/
def Datapath.sinkMove (d : Datapath) (e : Nat) : Datapath :=
  match d.sinkLoft e with
  | none => d
  | some n =>
    let d := d.setLoft n { d.loft n with engine := some e }
    match d.nextMoving n with
    | none => d
    | some f =>
      match d.frame f with
      | none => d
      | some x =>
        let d := { d with cel := { (d.cel.openFor (40 + e)).1 with draws := d.cel.draws + 1 } }
        if d.sinkStalls (40 + e) then d.writeStall x.inPen
        else
        let idx := (List.range x.locs.length).filter (fun j => x.locs.getD j 1 % 2 = 0)
        let r := d.storeBy (40 + e) (min 8 idx.length)
        let d := r.1
        let locs := (idx.zip r.2).foldl (fun l m => modAt (fun _ => m.2) l m.1) x.locs
        let d := d.placed f x locs
        let d :=
          if locs.any (fun v => v % 2 = 0) then d
          else
            (d.modFrame f (fun y => { y with moving := false, loft := none })).setLoft n
              { d.loft n with moving := (d.loft n).moving.filter (· ≠ f) }
        d.xoffEval x.info.port x.tc

/-- The sink of a loft ends once no frame in it remains unmoved: its engine closes its cell (R333, R339). -/
def Datapath.sinkEnd (d : Datapath) (n : Nat) : Datapath :=
  let l := d.loft n
  if !l.sinking || l.frames ≠ [] || l.moving ≠ [] then d
  else
    let k := d.cel
    let k := match l.engine with
      | some e =>
        match Tab.find k.openCell (40 + e) with
        | some c =>
          let x := Tab.get k.cells c {}
          { k.closeCell (40 + e) with
                   cells := if x.live = 0 then Tab.erase k.cells c else Tab.set k.cells c { x with open' := false } }
        | none => k
      | none => k
    { d with cel := { k with sinkOrder := k.sinkOrder.filter (· ≠ n) } }.setLoft n { l with sinking := false, engine := none }

/-! ## Reading (R332, R337) -/

/-- A read request of a copy in a clock: copy, output pen, sector of the frame, sector of the cellar. -/
structure SectorReq where
  cid : Nat
  pen : Nat
  idx : Nat
  at' : Nat
  deriving DecidableEq, Repr

/-- Bytes of the next pass arrive on a loop pen, and the frame becomes ready (R234). Of a frame that still arrives the last four
bytes that have come are held back, since they may be its FCS, which no loop pass holds (R237). -/
def Datapath.loopFeed (d : Datapath) (cid : Nat) : Datapath :=
  match d.copy cid with
  | none => d
  | some c =>
    match c.next, d.frame c.fid with
    | some info, some x =>
      let out := (d.outBytes c x).getD x.bytes
      let bytes := (if x.ended then out else out.take (out.length - 4)).take (32 * c.read)
      let len := if x.ended then d.loutOf c x else 0
      let r := match c.nextFid with
        | some f => (d.modFrame f (fun y => { y with bytes := stripBytes y.strip bytes, len := max y.len len }), f)
        | none =>
          let y : Frame := { pen := x.pen, port := x.port, bytes := bytes, len := len, tags := x.tags, addrHit := x.addrHit,
                             preempted := x.preempted, rxTs := x.rxTs, rxHold := x.rxHold, tx := x.tx, epoch := x.epoch, info := info,
                             inPen := penOf (portOfQ c.q), inside := true }
          let n := d.newFrame y
          (n.1.setCopy cid { c with nextFid := some n.2 }, n.2)
      if bytes.length ≥ info.base + 256 then r.1.makeReady r.2 else r.1
    | _, _ => d

/-- A sector of a copy has been read: the sectors read in order advance. -/
def Copy.took (c : Copy) (idx : Nat) : Copy :=
  let a := idx :: c.ahead
  let n := (List.range (a.length + 1)).foldl (fun n _ => if a.contains n then n + 1 else n) c.read
  { c with read := n, ahead := a.filter (fun i => n ≤ i) }

/-- The requests of a copy in the cellar: its next up to eight sectors that lie there unread (R332). -/
def sectorReqs (cid : Nat) (c : Copy) (x : Frame) : List SectorReq :=
  (((List.range x.written).filter (fun j => c.read ≤ j && !c.ahead.contains j && x.locs.getD j 0 % 2 = 1)).take 8).map
    (fun j => { cid := cid, pen := penOf (portOfQ c.q), idx := j, at' := x.locs.getD j 1 / 2 })

/-- How long a sector request has waited. -/
def Datapath.waited (d : Datapath) (r : SectorReq) : Nat := Tab.get d.cel.wait (1024 * r.cid + r.idx) 0

/-- Whether a request comes before another: it has waited longer, or as long from a lower pen (R332). Requests of one pen are
told apart by copy and sector: DESIGN CHOICE, log entry 92. -/
def Datapath.reqBefore (d : Datapath) (o r : SectorReq) : Bool :=
  let a := d.waited o
  let b := d.waited r
  b < a || (a = b && (o.pen < r.pen || (o.pen = r.pen && (o.cid < r.cid || (o.cid = r.cid && o.idx < r.idx)))))

/-- The request that wins the column of a request in a clock (R332). -/
def Datapath.columnWinner (d : Datapath) (all : List SectorReq) (r : SectorReq) : SectorReq :=
  (all.filter (fun o => bankOf (o.at' / 8) = bankOf (r.at' / 8) && o.at' % 8 = r.at' % 8)).foldl
    (fun a o => if d.reqBefore o a then o else a) r

/-- Whether a request is served among all of a clock: it asks for the row of the request that wins its column (R332). -/
def Datapath.served (d : Datapath) (all : List SectorReq) (r : SectorReq) : Bool := (d.columnWinner all r).at' = r.at'

/-- Whether a copy's next sector is read from its loft: that of a frame whose reading began there, or that no sink moves
(R337, R339). -/
def Copy.readsLoft (c : Copy) (x : Frame) : Bool := c.read < x.written && !x.moving && x.locs.getD c.read 1 % 2 = 0

/-- One clock of reading by output pens: each reads one loft or the cellar, as the first copy it names asks. A copy in a loft
gets up to eight consecutive sectors; up to eight requests of a pen's copies to the cellar are decided by column (R332, R337). -/
def Datapath.sectorRead (d : Datapath) (cids : List Nat) : Datapath :=
  let cs := cids.filterMap (fun n => match d.copy n with
    | some c => if c.granted then (d.frame c.fid).map (fun x => (n, c, x)) else none
    | none => none)
  let penOfC (y : Nat × Copy × Frame) : Nat := penOf (portOfQ y.2.1.q)
  let firsts := cs.foldl (fun (l : List (Nat × Copy × Frame)) y =>
    if l.any (fun z => penOfC z = penOfC y) then l else l ++ [y]) []
  let reqs := firsts.flatMap (fun y =>
    if y.2.1.readsLoft y.2.2 then []
    else ((cs.filter (fun z => penOfC z = penOfC y)).flatMap (fun z => sectorReqs z.1 z.2.1 z.2.2)).take 8)
  let d' := firsts.foldl (fun (d : Datapath) y =>
    if y.2.1.readsLoft y.2.2 then
      let run := ((List.range 8).map (fun k => y.2.1.read + k)).filter (fun j => j < y.2.2.written)
      let run := run.takeWhile (fun j => y.2.2.locs.getD j 1 % 2 = 0)
      (d.modCopy y.1 (fun c => run.foldl Copy.took c)).loopFeed y.1
    else d) d
  reqs.foldl (fun (e : Datapath) r =>
    let key := 1024 * r.cid + r.idx
    if d.served reqs r then
      ({ e with cel := { e.cel with wait := Tab.erase e.cel.wait key } }.modCopy r.cid (fun c => c.took r.idx)).loopFeed r.cid
    else
      { e with cel := { e.cel with wait := Tab.set e.cel.wait key (d.waited r + 1) } }.pmnEvent 0x0D r.pen) d'

/-! ## Bad copies, discard and flush (R357 to R359) -/

/-- Whether a copy has not begun to be read, or to be written. -/
def Copy.notBegun (c : Copy) : Bool := !c.granted && !c.started

/-- Whether a copy has not begun to leave through its output port: a granted copy of a line port leaves from its start on, one
of a loop port from its grant on (R210, R400). -/
def Copy.notLeft (c : Copy) : Bool := !c.started && (!c.granted || isLine (portOfQ c.q))

/-- A copy that its queue's reader reaches and whose frame has become bad is removed, unless a receive queue with
deliver-bad set takes it (R210, R357). `rx` tells that q is a receive queue. -/
def Datapath.badDiscard (d : Datapath) (rx : Bool) (q : Nat) : Datapath :=
  let l := if rx then d.rxList q else (d.classQueue q).filter (fun c => c.2.rxq.isNone)
  match l.find? (fun c => c.2.notLeft) with
  | none => d
  | some y =>
    match d.frame y.2.fid with
    | none => d
    | some x =>
      if x.ended && x.rxErr ≠ RC.none && !(rx && d.flag F.trgRxqCfg_DELIVER_BAD q) then
        (d.tallyAdd (portOfQ y.2.q) T.BAD_DISCARD).endCopy y.1
      else d

/-- A write of CEL_FLUSH_CMD (R358, R361). -/
def Datapath.flushCmd (d : Datapath) (port tcs : Nat) : Datapath :=
  if 519 < port then d
  else
    let qs := ((List.range 8).filter (fun c => tcs.testBit c)).map (fun c => 8 * port + c)
    let sw := d.cel.sw ++ qs.filter (fun q => !d.cel.sw.contains q)
    { d with cel := { d.cel with sw := sw } }.swDone

/-- Whether the flush engine can remove a copy: its queue is discarding and it is not being read. -/
def Datapath.flushable (d : Datapath) (c : Copy) : Bool := d.discarding c.q && c.notBegun

/-- The flush engine removes one copy from the head of a discarding queue, round robin by queue number (R359). -/
def Datapath.flushRemove (d : Datapath) : Datapath :=
  let cand := d.copies.filter (fun c => d.flushable c.2)
  let best (l : List (Nat × Copy)) : Option (Nat × Copy) := l.foldl (fun (a : Option (Nat × Copy)) c =>
    match a with
    | none => some c
    | some b => if c.2.q < b.2.q then some c else some b) none
  let pick := match best (cand.filter (fun c => d.cel.flushPtr ≤ c.2.q)) with
    | some c => some c
    | none => best cand
  match pick with
  | none => d
  | some c =>
    ({ d with cel := { d.cel with flushPtr := c.2.q + 1 } }.tallyAdd (portOfQ c.2.q) T.Q_DROP_FLUSH).endCopy c.1

/-! ## Registers -/

/-- The sum of MIN over all class queues (R361). -/
def Datapath.minSum (d : Datapath) : Nat :=
  d.regs.foldl (fun n e => if (Reg.celQCfg.geom.index e.1).isSome then n + F.celQCfg_MIN.of e.2 else n) 0

/-- A write of CEL_Q_CFG_n: a MIN that would raise the sum above MIN_RESERVE stays (R362). -/
def Datapath.writeQCfg (d : Datapath) (n : Nat) (be : BitVec 4) (data : Word) : Datapath :=
  let old := d.rd F.celQCfg_MIN n
  let e := d.writeReg .celQCfg false be data n
  if old < e.rd F.celQCfg_MIN n && e.minReserve < e.minSum then
    (e.wr F.celQCfg_MIN old n).wr F.celEvt_MIN_REFUSED 1
  else e

/-- A write of CEL_RED_SEED loads every pen's generator (R353). DESIGN CHOICE, log entry 104: so does one that enables no byte of
SEED, as R11 leaves open. -/
def Datapath.writeRedSeed (d : Datapath) (be : BitVec 4) (data : Word) : Datapath :=
  let d := d.writeReg .celRedSeed false be data
  let s := d.rd F.celRedSeed_SEED
  { d with cel := { d.cel with rng := (List.range 40).map (fun p => (p, if s ^^^ p = 0 then 1 else s ^^^ p)) } }

/-- The words of the cellar's registers that show other state (R361 to R364). -/
def Datapath.freeCells (d : Datapath) : Nat := 524288 - d.cel.cells.length
def Datapath.fcStatWord (d : Datapath) (p : Nat) : Word :=
  if p ≥ 512 then 0
  else BitVec.ofNat 32 (d.rd F.celFcStat_XOFF p + 256 * ofBits 8 (fun c => d.igHr p c ≠ 0))
def Datapath.qUseWord (d : Datapath) (q : Nat) : Word :=
  let inLoft := (d.classQueue q).any (fun c => match d.frame c.2.fid with
    | some x => x.loft.isSome
    | none => false)
  BitVec.ofNat 32 (b2n (d.discarding q) * 2 ^ 31 + b2n inLoft * 2 ^ 30 + d.useQ q)
def Datapath.flushStatWord (d : Datapath) : Word :=
  BitVec.ofNat 32 (b2n (d.cel.sw ≠ []) * 2 ^ 31 + (d.cel.sw.map (fun q => (d.classQueue q).length)).foldl (· + ·) 0)

/-! ## Commands -/

/-- BEAT_WRITE: the input pen that holds frame f presents a beat of it (R330). -/
def execBeatWrite (f : Nat) (stall : Bool) (s : State) : Out := .next (s.onDp (fun d => d.beatWrite f stall))

/-- LOFT_SINK_START of loft 40 * input pen + output pen (R338). -/
def execLoftSinkStart (inPen outPen : Nat) (s : State) : Out := .next (s.onDp (fun d => d.sinkStart (40 * inPen + outPen)))

/-- SINK_MOVE by sink engine e (R339). -/
def execSinkMove (e : Nat) (s : State) : Out := .next (s.onDp (fun d => d.sinkMove e))

/-- SINK_END of a loft (R339). -/
def execSinkEnd (inPen outPen : Nat) (s : State) : Out := .next (s.onDp (fun d => d.sinkEnd (40 * inPen + outPen)))

/-- SECTOR_READ: one clock of the output pens, each reading one of the copies named (R332). -/
def execSectorRead (copies : List Nat) (s : State) : Out := .next (s.onDp (fun d => d.sectorRead copies))

/-- BAD_COPY_DISCARD at the head of a class queue or a receive list (R357). -/
def execBadCopyDiscard (rx : Bool) (q : Nat) (s : State) : Out :=
  .next (if s.sh.seq.state = .run || s.sh.seq.state = .trim then s.onDp (fun d => d.badDiscard rx q) else s)

/-- FLUSH_COMMAND: a write of CEL_FLUSH_CMD (R358). -/
def execFlushCommand (src : Src) (port tcs : Nat) (s : State) : Out :=
  .next (s.regWrite src (Reg.celFlushCmd.addr 0 0) (fun s => s.onDp (fun d => d.flushCmd (port % 1024) (tcs % 256))))

/-- FLUSH_REMOVE by the flush engine (R359). -/
def execFlushRemove (s : State) : Out := .next (s.onDp (fun d => d.flushRemove))

/-- RED_SEED_WRITE: a write of CEL_RED_SEED (R353). -/
def execRedSeedWrite (src : Src) (be : BitVec 4) (data : Word) (s : State) : Out :=
  .next (s.regWrite src (Reg.celRedSeed.addr 0 0) (fun s => s.onDp (fun d => d.writeRedSeed be data)))

/-- QUEUE_CONFIG_WRITE: a write of CEL_Q_CFG_n (R362). -/
def execQueueConfigWrite (src : Src) (n : Nat) (be : BitVec 4) (data : Word) (s : State) : Out :=
  .next (s.regWrite src (Reg.celQCfg.addr n 0) (fun s => s.onDp (fun d => d.writeQCfg n be data)))

end Sys2Proof.Machine
end

