-- ==== Sys2Proof/Machine/Verdict.lean ====
section
/-! DEFINITION. Parse starts and verdicts (spec/08, spec/10): PARSE_START with the transit verdict, the grazer's
commands, VERDICT_MERGE with metering, counting, sampling, stripping, looping and forwarding, the ACT commands. -/

namespace Sys2Proof.Machine

/-! ## Samples (R321, R322) -/

/-- The 16-byte header of a sample, LEN not yet known (R322). -/
def sampleHeader (x : Frame) (p : Pass) (s n : Nat) (dropped : Bool) : List Byte :=
  leBytes 2 x.info.port ++ leBytes 1 s ++ leBytes 1 (b2n dropped * 128 + min x.info.pass 15) ++ leBytes 2 0 ++
  leBytes 1 p.profile ++ leBytes 1 0 ++ leBytes 4 n ++ leBytes 2 x.epoch ++ leBytes 2 0

/-- A pass that names sampler s counts down, and perhaps takes a sample of its frame (R321, R322). `bytes` are the
frame's bytes before the pass's strip. -/
def Datapath.sample (d : Datapath) (s f : Nat) (x : Frame) (bytes : List Byte) (p : Pass) (pen : Nat) (dropped : Bool) :
    Datapath :=
  let r := d.sampleTurn s
  let d := r.1
  if !r.2 then d
  else
    let port := d.rd F.actSampDest_PORT s
    if !isClient port || !d.enabled port then d.tallyAdd x.info.port T.SAMPLE_DROP
    else
      let y : Frame := { pen := x.pen, port := x.port, bytes := sampleHeader x p s (d.rd F.actSampCfg_N s) dropped,
                         rxTs := x.rxTs, epoch := x.epoch, info := x.info, inPen := pen, inside := true, strip := x.strip,
                         sample := true, sampleOf := f, trunc := 32 * max (d.rd F.actSampCfg_TRUNC s) 2 }
      let y := if x.ended then y.fillSample bytes x.rxErr else y
      let n := d.newFrame y
      let req : CopyReq := { port := port, tc := d.rd F.actSampCfg_TC s, qvalid := d.flag F.actSampDest_QVALID s,
                             queue := d.rd F.actSampDest_QUEUE s, kind := 1, kv := p.kv }
      let a := n.1.admitMulti n.2 y [req] none
      if a.2 then a.1 else a.1.tallyAdd x.info.port T.SAMPLE_DROP

/-! ## Receive log (R500) -/

/-- Where the header of a TS group stands in the numbering before the pass's strip, and whether bytes h to h + 31 lie
within the head window and below E of the pass that set it. -/
def tsPlace (v : Verdict) (x : Frame) (p : Pass) : Option (Nat × Nat × Bool) :=
  v.ts.map (fun t =>
    match v.tsAt with
    | some a => (t.1, a.1, a.2)
    | none =>
      let h := x.info.base + 2 * t.2
      (t.1, h, 2 * t.2 + 32 ≤ 256 && within p.dataEnd (h + 31)))

/-- A receive-log request of a frame's last pass (R500). -/
def Datapath.rxLog (d : Datapath) (x : Frame) (t : Option (Nat × Nat × Bool)) : Datapath :=
  match t, x.rxTs with
  | some (3, h, true), some ti =>
    let b (i n : Nat) : Nat := be x.bytes (h + i) n
    let q := x.tx.map (fun t => (t.txq, t.slot))
    d.timRecord 1 (tsRecord ti x.port (b2n x.rxHold) 0 1 (d.pmTb x.port) 0 (b 0 1 % 16) (b 4 1) 3 (b 30 2) q)
  | _, _ => d

/-! ## Forwarding (R307, R309, R312, R323) -/

/-- What the merge hands to forwarding: frame number, frame after the strip, colour, class, templates, where the
timestamp request and the IPv4 header stand after the strip. -/
structure Forward where
  f : Nat
  x : Frame
  pen : Nat
  v : Verdict
  ts : Option (Nat × Nat)
  ecnH : Option Nat
  kv : List Byte
  default' : Bool
  deriving DecidableEq, Repr

/-- FLOW of an origin copy (R525). -/
def Datapath.flowOf (d : Datapath) (kv : List Byte) : Nat := d.symhash d.flkSymFmt kv / 2 ^ 16

/-- The copy that a verdict asks for on a port. -/
def Datapath.reqFor (d : Datapath) (w : Forward) (port : Nat) (qvalid : Bool) (queue : Nat) (tpl : Option Nat) : CopyReq :=
  { port := port, tc := w.v.tc, colour := w.v.colour, tpl := tpl, qvalid := qvalid, queue := queue, ts := w.ts,
    flow := d.flowOf w.kv, launch := w.x.tx.bind (fun t => t.launch), kv := w.kv }

/-- A frame whose target is not valid is dropped (R307, R251). -/
def Datapath.badTarget (d : Datapath) (w : Forward) (err : Bool) : Datapath × Bool :=
  let d := if w.default' then d.tallyAdd w.x.info.port T.PARSE_DEF_DROP
           else (if err then d.wr F.actEvt_TARGET_ERR 1 else d).tallyAdd w.x.info.port T.FWD_BAD_TARGET
  (d.dropFrame w.f, false)

/-- Sends one copy to a port (R307). -/
def Datapath.forwardPort (d : Datapath) (lead : Nat) (w : Forward) (port : Nat) (g : Fwd) : Datapath × Bool :=
  if !(if w.default' then d.defTarget port else d.validTarget port) then d.badTarget w true
  else d.admitUnicast lead w.f w.x (d.reqFor w port g.qvalid g.queue w.v.edit) w.ecnH

/-- Sends a frame to a multicast group (R310 to R312). -/
def Datapath.forwardMulti (d : Datapath) (w : Forward) (g : Nat) : Datapath × Bool :=
  match d.mcHead g with
  | none => d.badTarget w false
  | some h =>
    let ms := (d.members h).filter (fun m => !(bit h 30 && m.port = w.x.port))
    let good := ms.filter (fun m => d.validTarget m.port)
    let d := if good.length = ms.length then d else d.tallyAdd w.x.info.port T.FWD_BAD_TARGET
    d.admitMulti w.f w.x (good.map (fun m =>
      d.reqFor w m.port m.qvalid m.queue (if m.tplEn then some m.tpl else w.v.edit))) w.ecnH

/-- Forwards a frame by the FWD group of its verdict. -/
def Datapath.forward (d : Datapath) (lead : Nat) (w : Forward) (g : Fwd) : Datapath × Bool :=
  match g.kind with
  | 0 => d.forwardPort lead w g.target g
  | 1 =>
    match d.ecmp g.target w.kv with
    | some p => d.forwardPort lead w p g
    | none => d.badTarget w false
  | 2 => d.forwardMulti w g.target
  | _ => (d.dropFrame w.f, false)

/-! ## Merge -/

/-- CK_OFS of the merge word of a profile, if it names a header (R302, R354). -/
def Datapath.ckOfs (d : Datapath) (pen prof : Nat) : Option Nat :=
  let ck := d.rd F.penMerge_CK_OFS pen prof
  if ck = 0xFF then none else some ck

/-- The length of a frame without FCS, before the pass's strip: `len` stands for it while the frame arrives on a line
port; a frame of a transmit queue has a known length from its start. -/
def Frame.storedLen (x : Frame) (len : Nat) : Nat :=
  if x.ended then x.bytes.length else if x.tx.isSome && x.info.pass = 1 then max x.len x.bytes.length
  else max len x.bytes.length

/-- The pass's outcome is counted and its frame leaves the block, dropped. -/
def Datapath.passDrop (d : Datapath) (pen f : Nat) (p : Pass) : Datapath := (d.dropFrame f).pmnOutcome pen p.acct false

/-- A pass that continues ends: it loops or is forwarded, and its outcome is counted. -/
def Datapath.passForward (d : Datapath) (lead : Nat) (pen : Nat) (p : Pass) (w : Forward) (loopTo : Option PassInfo) : Datapath :=
  let r := match loopTo, w.v.fwd with
    | some info, _ =>
      let req : CopyReq := { port := 518 + w.x.pen % 2, tc := w.v.tc, colour := w.v.colour, next := some info,
                             launch := w.x.tx.bind (fun t => t.launch), kv := w.kv }
      d.admitUnicast lead w.f w.x req w.ecnH
    | none, some g => d.forward lead w g
    | none, none => (d.dropFrame w.f, false)
  let d := if r.2 then r.1.txNote w.x (fun t => { t with admitted := true }) else r.1
  d.pmnOutcome pen p.acct r.2

/-- The head pass of a pen, merged with a verdict that is not dropped by R304, goes on: strip, meter, loop limits, receive log,
forwarding (R315, R318, R324, R325). A pass that was to loop and loses its frame is the frame's last too (R500). DESIGN CHOICE, log
entry 112: the order of the drops (strip, base move, loop limit, meter), and that every pass R304 does not drop counts as one that
continues. -/
def Datapath.passContinue (d : Datapath) (lead : Nat) (pen tick len : Nat) (f : Nat) (x : Frame) (p : Pass) (m : Merged) : Datapath :=
  let v := m.v
  let port := x.info.port
  let full := x.storedLen len
  let range := if m.edits then v.edit.bind (fun t => stripRange (d.line t) x.info.base) else none
  let stripBad' := match range with
    | some r => stripBad r x.info.base p.dataEnd
    | none => false
  let strip := if stripBad' then none else range
  let cut := match strip with
    | some r => min (r.1 + r.2) full - min r.1 full
    | none => 0
  let x' := { x with bytes := stripBytes strip x.bytes, strip := strip }
  let d := match v.count with
    | some k => d.flowCount k (full - cut + 4)
    | none => d
  let mt := match v.meter with
    | some (k, aware) =>
      let r := d.meterRec k
      let u := meterStep r tick (full - cut + 4) v.colour aware
      (d.setMeter k u.1, u.2, bit (le r 8 4) 31)
    | none => (d, v.colour, false)
  let d := mt.1
  let v := { v with colour := mt.2.1 }
  let ts := tsPlace v x p
  let d := d.setFrame f x'
  let d := match v.sample with
    | some s => d.sample s f x' x.bytes p pen false
    | none => d
  let d := if v.loop.isNone then d.rxLog x ts else d
  let last (d : Datapath) : Datapath := if v.loop.isNone then d else d.rxLog x ts
  if stripBad' then (((last d).tallyAdd port T.EDIT_ERR).wr F.actEvt_EDIT_ERR 1).passDrop pen f p
  else
    let nb := match v.loop with
      | some (_, adv) => d.nextBase pen x p adv
      | none => some 0
    match nb with
    | none => (((last d).tallyAdd port T.EDIT_ERR).wr F.actEvt_EDIT_ERR 1).passDrop pen f p
    | some b =>
      if v.loop.isSome && d.passLimit ≤ x.info.pass then
        (((last d).tallyAdd port T.LOOP_LIMIT).wr F.actEvt_LOOP_LIMIT 1).passDrop pen f p
      else if mt.2.2 && v.colour = 2 then ((last d).tallyAdd port T.METER_DROP).passDrop pen f p
      else
        let w : Forward := {
          f := f, x := x', pen := pen, v := v, kv := p.kv, default' := false
          ts := ts.bind (fun t => if t.1 ≤ 2 then some (t.1, stripPos strip t.2.1) else none)
          ecnH := (d.ckOfs pen p.profile).map (fun ck => stripPos strip (x.info.base + ck)) }
        let info := v.loop.map (fun l =>
          let carried := { v.carried with tsAt := ts.map (fun t => (stripPos strip t.2.1, t.2.2)) }
          { pass := x.info.pass + 1, base := min (stripPos strip b) (full - cut), hint := l.1, port := 518 + x.pen % 2,
            prevProfile := p.profile, prev := p.graze, verdict := carried : PassInfo })
        let d := d.passForward lead pen p w info
        if (d.frame f).isNone then last d else d

/-- VERDICT_MERGE of the head pass of a pen at clk_shf tick `tick` (R304). -/
def Datapath.verdictMerge (d : Datapath) (lead : Nat) (pen tick len : Nat) : Datapath :=
  match d.passesOf pen with
  | [] => d
  | p :: rest =>
    match d.frame p.fid with
    | none => d.setPasses pen rest
    | some x =>
      if !Datapath.mergeReady p x then d
      else
        let x := if isLoop x.info.port && !x.ended && x.len = 0 then { x with len := len } else x
        let r := d.closeWindow pen p
        let p := r.2
        let d := r.1.setPasses pen rest
        let f := p.fid
        let port := x.info.port
        let d := if p.graze.state = 2 then d.tallyAdd port T.GRAZE_PARTIAL else d
        let dv (v : Verdict) : Datapath :=
          let d := d.txNote x (fun t => { t with tc := v.tc })
          let w : Forward := { f := f, x := x, pen := pen, v := v, kv := p.kv, default' := true, ts := none, ecnH := none }
          d.passForward lead pen p w none
        if p.failed then dv (d.defVerdict port)
        else
          let m := d.merge pen x p
          let d := if m.ckBad then d.tallyAdd port T.L3_CSUM_ERR else d
          if m.default' then
            let d := d.txNote x (fun t => { t with tc := m.v.tc })
            let w : Forward := { f := f, x := x, pen := pen, v := m.v, kv := p.kv, default' := true, ts := none,
                                 ecnH := (d.ckOfs pen p.profile).map (x.info.base + ·) }
            d.passForward lead pen p w none
          else
            let d := d.txNote x (fun t => { t with tc := m.v.tc })
            match m.drop with
            | none => d.passContinue lead pen tick len f x p m
            | some t =>
              let d := if t = T.L3_CSUM_ERR then d else d.tallyAdd port t
              let d := match m.v.count with
                | some k => d.flowCount k (x.storedLen len + 4)
                | none => d
              let d := match m.v.sample with
                | some s => d.sample s f x x.bytes p pen true
                | none => d
              d.passDrop pen f p

/-! ## Parse start (R236, R251, R521) -/

/-- A transit flock frame takes the transit verdict (R521, R522). -/
def Datapath.transitVerdict (d : Datapath) (lead : Nat) (pen f : Nat) (x : Frame) : Datapath :=
  let acct := d.flag F.pmnCtl_RUN
  let w := be x.bytes 22 1
  match d.flkRoute (be x.bytes 16 2 % 4096) (be x.bytes 20 2) with
  | none => (((d.flkDrop 4).wr F.flkEvt_NO_ROUTE 1).dropFrame f).pmnOutcome pen acct false
  | some l =>
    match d.flkPort l with
    | none => (d.dropFrame f).pmnOutcome pen acct false
    | some p =>
      let req : CopyReq := { port := p, tc := fieldOf w 7 5, colour := min (fieldOf w 4 3) 2 }
      let r := d.admitUnicast lead f x req none
      r.1.pmnOutcome pen acct r.2

/-- The slot that a parse takes: slot 1 takes a frame only behind one that slot 0 took in the same clock (R234). -/
def Datapath.slotFor (d : Datapath) (pen slot : Nat) : Nat := if slot = 1 && d.meets .slotZero pen then 1 else 0

/-- A slot of a pen has taken a frame. -/
def Datapath.slotTaken (d : Datapath) (pen slot : Nat) : Datapath :=
  if slot = 0 then d.meet .slotZero pen else d.unmeet .slotZero pen

/-- A parse slot of a pen takes its earliest ready frame (R214, R234, R236, R241 to R252). -/
def Datapath.parseStart (d : Datapath) (lead : Nat) (pen slot : Nat) : Datapath :=
  match d.readyOf pen with
  | [] => d
  | f :: rest =>
    match d.frame f with
    | none => d.setReady pen rest
    | some x =>
      let slot := d.slotFor pen slot
      let d := (d.setReady pen rest).slotTaken pen slot
      let d := { d with pmn := { d.pmn with started := if d.flag F.pmnCtl_RUN then Tab.upd d.pmn.started pen 0 (· + 1)
                                                       else d.pmn.started } }
      let x := if x.info.pass = 1 then { x with epoch := d.rd F.larEpoch_CUR, inside := true } else x
      let d := d.setFrame f x
      let d := if isLoop x.info.port && x.ended then d.tallyLoopPass x else d
      if x.transit then d.transitVerdict lead pen f x
      else
        let port := x.info.port
        let hint := d.hintOf x
        let e := dataEndOf x
        let out := match d.sortSelect pen (d.sortKey pen x hint e) with
          | some prof => d.runProfile pen prof x hint e
          | none => .noProfile
        match out with
        | .ok prof kv sv => d.startPass pen slot f x prof kv sv hint
        | bad =>
          let d := match bad with
            | .short k prof => (d.tallyAdd port T.PARSE_SHORT).parseStat pen 1 k (slotOf port) x.info.pass prof
            | _ => (d.tallyAdd port T.PARSE_NO_PROFILE).parseStat pen 0 0 (slotOf port) x.info.pass 0
          let drop (d : Datapath) : Datapath :=
            ((d.tallyAdd port T.PARSE_DEF_DROP).dropFrame f).pmnOutcome pen (d.flag F.pmnCtl_RUN) false
          if d.defMode port = 0 then drop d
          else if d.defMode port = 1 then d.startFailed pen slot f x hint
          else
            match d.runProfile pen (d.rd F.penParsePort_DEF_PROFILE (penOf port) (parseIdx port)) x hint e with
            | .ok prof kv sv => d.startPass pen slot f x prof kv sv hint
            | _ => drop d

/-! ## Commands -/

/-- PARSE_START of a slot of a pen (R236). A held pen, a gated pen, a pen whose pipeline holds, a block that does not
forward and one whose intake is stopped start none (R147, R150, R587, R602, R615). -/
def execParseStart (pen slot : Nat) (s : State) : Out :=
  .next (if s.quiet || !s.forwards || s.penHeld pen || s.dp.gated.contains pen || s.dp.pipeHolds pen then s
         else s.onDp (fun d => d.parseStart s.lead pen slot))

/-- GRAZE_BLOCK_SCAN by the grazer of a pen (R260). -/
def execGrazeBlockScan (pen : Nat) (s : State) : Out := .next (s.onDp (fun d => d.grazeScan pen))

/-- GRAZE_DEADLINE of pass k of a pen (R262). -/
def execGrazeDeadline (pen k : Nat) (s : State) : Out := .next (s.onDp (fun d => d.grazeDeadline pen k))

/-- VERDICT_MERGE of the head pass of a pen (R304). `len` is the length without FCS of a frame that still arrives. -/
def execVerdictMerge (pen len : Nat) (s : State) : Out :=
  .next (s.onDp (fun d => d.verdictMerge s.lead pen s.sh.tick len))

end Sys2Proof.Machine
end

