-- ==== Sys2Proof/Machine/TxMac.lean ====
section
/-! DEFINITION. The transmit MAC (spec/13): verification, timestamp captures, the bytes on the wire and their return in near-end
loopback, starts, frame ends and bad tails, pause and PFC frames, fragments. -/

namespace Sys2Proof.Machine

/-! ## Verification (R410 to R414) -/

/-- VERIFY states (R410). -/
def VS.disabled : Nat := 0
def VS.verifying : Nat := 1
def VS.succeeded : Nat := 2
def VS.failed : Nat := 3

/-- The verification state of a port. -/
def Datapath.verState (d : Datapath) (p : Nat) : Nat := d.rd F.penMmStat_VERIFY (penOf p) (slotOf p)

/-- Sets the verification state of a port. -/
def Datapath.setVer (d : Datapath) (p st : Nat) : Datapath := d.wr F.penMmStat_VERIFY st (penOf p) (slotOf p)

/-- PEN_MM_CHG of a port is set (R410). -/
def Datapath.verChg (d : Datapath) (p : Nat) : Datapath := d.wrBit F.penMmChg_CHG (slotOf p) true (penOf p)

/-- Verification of a port begins where the first row of R413 applies. -/
def Datapath.verBegin (d : Datapath) (p : Nat) : Datapath :=
  if isLine p && d.verState p = VS.disabled && d.linkState p = LS.up && d.pmPreemptTc p ≠ 0 &&
      !d.flag F.penMmCtl_VERIFY_DIS (penOf p) (slotOf p) then
    ((d.setVer p VS.verifying).wr F.penMmStat_TRIES 1 (penOf p) (slotOf p)).setTx p { d.txPort p with verPend := true }
  else d

/-- Verification of a port returns to DISABLED (R413). -/
def Datapath.verReset (d : Datapath) (p : Nat) : Datapath :=
  let d := if d.verState p = VS.succeeded then d.verChg p else d
  (d.setVer p VS.disabled).setTx p { d.txPort p with verPend := false }

/-- The verification timer of a port reaches VERIFY_TIME (R413). -/
def Datapath.verTimer (d : Datapath) (p : Nat) : Datapath :=
  let pen := penOf p
  let i := slotOf p
  if d.verState p ≠ VS.verifying then d
  else if d.rd F.penMmStat_TRIES pen i < max (d.rd F.penMmCtl_VERIFY_LIMIT pen i) 1 then
    (d.wr F.penMmStat_TRIES (d.rd F.penMmStat_TRIES pen i + 1) pen i).setTx p { d.txPort p with verPend := true }
  else ((d.setVer p VS.failed).verChg p).tallyAdd p T.MM_VERIFY_FAIL

/-- A valid respond frame arrives (R413). -/
def Datapath.verRespond (d : Datapath) (p : Nat) : Datapath :=
  if d.verState p = VS.verifying then (d.setVer p VS.succeeded).verChg p else d

/-- A valid verify frame arrives (R414). -/
def Datapath.verRequest (d : Datapath) (p : Nat) : Datapath :=
  if d.flag F.penRxCtl_MM_RX_EN (penOf p) (slotOf p) then d.setTx p { d.txPort p with respPend := true } else d

/-- A write of PEN_MM_CTL_i (R410, R413). -/
def Datapath.writeMmCtl (d : Datapath) (p : Nat) (be : BitVec 4) (data : Word) : Datapath :=
  let d := d.writeReg .penMmCtl false be data (penOf p) (slotOf p)
  let d := if F.penMmCtl_RESTART.wo be data = 1 || d.flag F.penMmCtl_VERIFY_DIS (penOf p) (slotOf p) then d.verReset p else d
  d.verBegin p

/-- The word of PEN_MM_STAT_i: ACTIVE is computed (R409, R410). -/
def Datapath.mmStatWord (d : Datapath) (p : Nat) : Word :=
  putBits (RegFile.word d.regs .penMmStat (penOf p) (slotOf p)) 3 3 (b2n (d.preemptActive p))

/-! ## Timestamps (R420 to R425) -/

/-- The fields of a message that a capture carries, from a copy's output bytes (R425). -/
def Capture.ofBytes (k : Capture) (out : List Byte) (h : Nat) : Capture :=
  { k with msg := be out h 1 % 16, dom := be out (h + 4) 1, seq := be out (h + 30) 2 }

/-- The capture of a copy that starts now, with the tallies of its request; none without a request or where the
request is skipped. `out` are its output bytes so far: a one-step request whose bytes may still come waits (R421). -/
def Datapath.takeCapture (d : Datapath) (c : Copy) (x : Frame) (out : List Byte) : Datapath × Option Capture :=
  match c.ts with
  | none => (d, none)
  | some (mode, o) =>
    let p := portOfQ c.q
    let h := d.tsPos c x o
    let b := d.pmTb p
    let k : Capture := { te := d.egressTime p (d.tbNow b), mode := mode, hold := d.holdover b, oneStep := mode ≠ 0,
                         msg := 0, dom := 0, seq := 0, txq := x.tx.map (fun t => (t.txq, t.slot)) }
    let k := k.ofBytes out h
    let need := oneStepNeeds mode
    if mode = 0 then (d.tallyAdd p T.TS_TWO_STEP, some k)
    else if !(mode = 1 || (x.rxTs.isSome && d.pmTb x.port = b)) || 256 < h + need then (d.tallyAdd p T.TS_SKIP, none)
    else if editFits out h need then (d.tallyAdd p T.TS_ONE_STEP, some k)
    else if x.ended then (d.tallyAdd p T.TS_SKIP, none)
    else (d, some { k with waits := true })

/-- A copy ends: its capture takes the message's fields, and a one-step request that waited is judged by the bytes that came
(R421, R425). -/
def Datapath.settleCapture (d : Datapath) (p : Nat) (c : Copy) (x : Frame) (out : List Byte) : Datapath × Option Capture :=
  match c.cap, c.ts with
  | some k, some (_, o) =>
    let h := d.tsPos c x o
    let k' := k.ofBytes out h
    if !k.waits then (d, some k')
    else if editFits out h (oneStepNeeds k.mode) then (d.tallyAdd p T.TS_ONE_STEP, some { k' with waits := false })
    else (d.tallyAdd p T.TS_SKIP, none)
  | k, _ => (d, k)

/-- A capture becomes a transmit record (R425, R501). `outcome` is coded as in the record. -/
def Datapath.passCapture (d : Datapath) (p outcome : Nat) (k : Option Capture) : Datapath :=
  match k with
  | some k => d.timRecord 0 (tsRecord k.te p (b2n k.hold) (b2n k.oneStep) 0 (d.pmTb p) outcome k.msg k.dom k.mode k.seq k.txq)
  | none => d

/-! ## Outcomes (R404) -/

/-- The outcome tally of a row of R404; row 5 is TX_OK. -/
def outcomeTally (row : Nat) : Nat :=
  match row with
  | 1 => T.TX_LINK_ABORT | 2 => T.TX_OVERSIZE | 3 => T.TX_UNDERRUN | 4 => T.TX_STOMPED | _ => T.TX_OK

/-- A copy that started on the wire is counted by a row of R404, its capture is passed, and the worst outcome of its
transmit frame is kept (R425, R447). -/
def Datapath.outcome (d : Datapath) (p row : Nat) (k : Option Capture) (rec' : Option Nat) : Datapath :=
  let d := (d.tallyAdd p (outcomeTally row)).passCapture p (if row = 5 then 0 else row) k
  match rec' with
  | none => d
  | some n =>
    match Tab.find d.trg.txRecs n with
    | some r =>
      if row = 5 then d
      else
        let w := match r.worst with
          | some v => min v row
          | none => row
        { d with trg := { d.trg with txRecs := Tab.set d.trg.txRecs n { r with worst := some w } } }
    | none => d

/-- The frame of some data bytes as sent, with pad and FCS, or with the stomp pattern (R397, R402, R403). -/
def frameOf (bytes : List Byte) (stomp : Bool) : List Byte :=
  let b := bytes ++ List.replicate (60 - bytes.length) 0
  b ++ leBytes 4 (if stomp then crc32 b ^^^ 0xFFFFFFFF else crc32 b)

/-- Counts a padded copy (R397). -/
def Datapath.countPad (d : Datapath) (p n : Nat) : Datapath := if n < 60 then d.tallyAdd p T.TX_PAD else d

/-! ## The wire (R192, R397, R412, R416) -/

/-- The SMD-S of a frame count, the SMD-C of a frame count, the byte of a fragment count (R397, R416). -/
def smdSByte (n : Nat) : Byte := byteAt [0xE6, 0x4C, 0x7F, 0xB3] (n % 4)
def smdCByte (n : Nat) : Byte := byteAt [0x61, 0x52, 0x2A, 0x9E] (n % 4)

/-- The delimiter of a frame or fragment sent now: SMD-E; SMD-S of the frame count for a frame that may be fragmented; SMD-C of
that count and the fragment count for a continuation (R397, R416). -/
def TxPort.delim (t : TxPort) (pre : Bool) : List Byte :=
  if !pre || !t.split then [0xD5]
  else if t.frags = 0 then [smdSByte (t.smd + 3)]
  else [smdCByte (t.smd + 3), smdSByte (t.frags + 3)]

/-- The eight bytes before a frame's or fragment's first byte: 0x55 up to the delimiter (R397, R412, R416). -/
def preamble (delim : List Byte) : List Byte := List.replicate (8 - delim.length) 0x55 ++ delim

/-- How a frame or fragment ends on the wire: with its check bytes, with an error control character, or with one as its port
stops receiving too. -/
inductive WireEnd where
  | check | error | left
  deriving DecidableEq, Repr

/-- A verify (0x07) or respond (0x19) frame ends with its last bytes: a valid one is handed to verification (R230). -/
def Datapath.mmEnd (d : Datapath) (p code : Nat) (bs : List Byte) : Datapath :=
  match (d.rxPort p).mmFrame with
  | some (c, r) =>
    if c ≠ code then d
    else
      let d := d.setRx p { d.rxPort p with mmFrame := none }
      if !mmValid (r ++ bs) then d.tallyAdd p T.MM_SMD_ERR
      else if code = 0x07 then d.verRequest p
      else d.verRespond p
  | none => d

/-- In near-end loopback the port receives what it has sent (R192). -/
def Datapath.wireBack (d : Datapath) (p : Nat) (delim body : List Byte) (how : WireEnd) : Datapath :=
  let smd := (byteAt delim 0).toNat
  let d := d.rxStart false p smd (byteAt delim 1).toNat (d.rxTime p)
  match how with
  | .error => d.rxCut false p body
  | .left => d.rxBytes false p body
  | .check =>
    if smd = 0x07 || smd = 0x19 then d.mmEnd p smd body
    else if smd = 0xD5 then d.rxEnd false p body
    else d.rxFragmentEnd false p body

/-- A frame or fragment has been sent: `body` from its first byte to its check bytes. -/
def Datapath.wireSent (d : Datapath) (p : Nat) (delim body : List Byte) (how : WireEnd) : Datapath :=
  let d := d.setTx p { d.txPort p with last := preamble delim ++ body, lastErr := how ≠ .check }
  if d.loopMode p = 1 then d.wireBack p delim body how else d

/-- The bytes sent of a frame that is cut after n of those at hand: up to the next 8-byte boundary of the PCS (R182). -/
def cutAt8 (n : Nat) (out : List Byte) : List Byte := out.take (8 * min (ceilDiv n 8) (out.length / 8))

/-! ## Starts (R400) -/

/-- Whether a port's transmitter is in low-power idle or waking from it (R188). -/
def Datapath.lpiBlocks (d : Datapath) (p : Nat) : Bool :=
  d.flag F.penLinkStat_TX_LPI (penOf p) (slotOf p) || d.waking.contains p

/-- Whether the wire of a port is taken: a frame whose FCS is not sent, or a copy of the other stream in a frame or
fragment. -/
def Datapath.wireTaken (d : Datapath) (p : Nat) (express : Bool) : Bool :=
  let t := d.txPort p
  t.tail.isSome ||
    (match d.inService p (!express) with
     | some y => y.2.started && !(express && t.away)
     | none => false)

/-- The express head copies of a port whose launch times lie ahead by no more than LEAD and the time of 256 bytes (R418). -/
def Datapath.nearLaunch (d : Datapath) (lead p : Nat) : List Nat :=
  (List.range 8).filterMap (fun c =>
    match d.headCopy (8 * p + c) with
    | some y =>
      match y.2.launch with
      | some t =>
        if d.isExpress p c && d.launchActs y.2 && y.2.judge = .held &&
            compactDiff t (d.tbNow (d.pmTb p)) ≤ lead + d.byteTime p 256 then some y.1 else none
      | none => none
    | none => none)

/-- Whether the preemptable MAC is held: an express copy that it is held for has not started (R418). -/
def Datapath.preHeld (d : Datapath) (p : Nat) : Bool :=
  (d.txPort p).hold.any (fun n => match d.copy n with
    | some c => !c.started
    | none => false)

/-- Whether enough of a granted copy has been read for it to start (R400): one that R385 times starts at its instant. -/
def Datapath.dataReady (d : Datapath) (c : Copy) (x : Frame) : Bool :=
  let p := portOfQ c.q
  if c.kind = 2 || c.timed then true
  else if x.allWritten || x.loft.isSome then 0 < c.read
  else
    let m := max (d.rd F.penTxCtl_CT_MARGIN (penOf p) (slotOf p)) 64
    (if x.ended then min m (d.loutOf c x) else m) ≤ 32 * c.read + d.pushOf c x

/-- The granted copy of a stream of a line port starts at the transmit interface (R400): template, capture, edits. One whose
frame has become bad is discarded (R210), one now known to be too long is not sent (R398). -/
def Datapath.copyStart (d : Datapath) (p : Nat) (express : Bool) : Datapath :=
  match d.inService p express with
  | none => d
  | some y =>
    match d.frame y.2.fid with
    | none => d
    | some x =>
      let c := y.2
      if !isLine p || c.started || d.wireTaken p express || d.lpiBlocks p || !d.sendable p ||
          !d.dataReady c x || !d.tplReady c x || (!express && d.preHeld p) then d
      else if c.isBad x then (d.tallyAdd p T.BAD_DISCARD).endCopy y.1
      else if d.mtuBad c x then (d.tallyAdd p T.TX_MTU_DROP).endCopy y.1
      else
        let c := { c with started := true, tplData := (c.tpl.map d.line).getD [] }
        match d.outBytes c x with
        | none => (d.tallyAdd p T.TTL_EXPIRED).endCopy y.1
        | some out =>
          let k := d.takeCapture c x out
          let d := k.1.setCopy y.1 { c with cap := k.2, flock := d.isFlockCopy c x }
          let t := d.txPort p
          if express then d.setTx p { t with hold := t.hold.filter (· ≠ y.1) }
          else
            d.setTx p { t with away := false, sentTo := 0, frags := 0, split := d.preemptActive p,
                               wireFrom := (d.tbNow (d.pmTb p)).abs,
                               smd := if d.preemptActive p then (t.smd + 1) % 4 else t.smd }

/-! ## Ends -/

/-- The next ALIVE of a flock link, and whether the frame is retracted: the trailer of a flock frame (R526, R528). -/
def Datapath.flkTrail (d : Datapath) (l : Nat) (out : List Byte) (bad : Bool) : Datapath × List Byte :=
  let k := d.flkLink l
  let d := (d.setFlk l { k with count := (k.count + 1) % 65536 }).flkCount l 6
  (if bad then d.flkCount l 5 else d, flkTrailer out k.count bad)

/-- Whether every sector of a copy has been read. -/
def readAll (c : Copy) (x : Frame) : Bool := c.kind = 2 || (x.ended && c.read = sectorsOf x.stored)

/-- A copy read from its store is counted for the performance monitor (R584). -/
def Datapath.pmnRead (d : Datapath) (p : Nat) (x : Frame) : Datapath := d.pmnEvent (if x.loft.isSome then 0x0E else 0x0F) p

/-- A copy of a line port is read to its end: the interface accepts its last byte (R368, R396). It ends; its frame's
tail is still to be sent. The trailer of a flock copy follows its data and pad bytes (R397, R526, R571); a control frame of the
flock has its 52 bytes in front of it (R517). -/
def Datapath.lineCopyEnd (d : Datapath) (p : Nat) (express : Bool) : Datapath :=
  match d.inService p express with
  | none => d
  | some y =>
    match d.frame y.2.fid with
    | none => d
    | some x =>
      let c := y.2
      if !c.started || !readAll c x || (!express && (d.txPort p).away) || (d.txPort p).tail.isSome then d
      else
        let out := (d.outBytes c x).getD []
        let bad := x.rxErr ≠ RC.none
        let least := if c.kind = 2 then 52 else 60
        let padded := out ++ List.replicate (least - out.length) 0
        let tr := match c.flock, d.flkLinkOf p with
          | true, some l => let r := d.flkTrail l padded bad; (r.1, padded ++ r.2)
          | _, _ => (d, out)
        let k := tr.1.settleCapture p c x out
        let d := if c.kind = 2 then k.1 else (k.1.charge c.q out.length).pmnRead p x
        let tail : TxTail := { bytes := tr.2, bad := bad, padded := c.flock && decide (out.length < least),
                               flock := if c.flock then some c.kind else none,
                               txRec := x.tx.map (fun t => t.txRec), cap := k.2, pre := !express }
        ((d.setTx p { d.txPort p with tail := some tail }).tailFor p (max tr.2.length 60 - out.length + 4)).endCopy y.1

/-- The frame of a copy ends on the wire (R397, R403): FCS or stomp pattern, outcome, capture, tallies. -/
def Datapath.frameEnd (d : Datapath) (p : Nat) : Datapath :=
  let t := d.txPort p
  match t.tail with
  | none => d
  | some w =>
    let sent := frameOf w.bytes (w.bad && w.flock.isNone)
    let ctrl := w.flock = some 2
    let d := if ctrl then d else (d.countPad p (if w.padded then 0 else w.bytes.length)).outcome p (if w.bad then 4 else 5) w.cap w.txRec
    let d := if w.bad || ctrl then d else d.tallyTx p sent.length w.bytes
    let d := if w.pre && 0 < t.frags then d.tallyAdd p T.MM_FRAG_TX else d
    let body := if w.pre then sent.drop t.sentTo else sent
    let d := d.setTx p { t with tail := none, away := if w.pre then false else t.away, sentTo := if w.pre then 0 else t.sentTo,
                                frags := if w.pre then 0 else t.frags }
    d.wireSent p (t.delim w.pre) body .check

/-- A started copy of a line port ends on the wire at once, by a row of R404. `body` are the bytes of its present fragment as
sent, of which `left` are still to come; a frame that awaits its continuation sends none (R419). -/
def Datapath.wireCut (d : Datapath) (p cid row : Nat) (c : Copy) (x : Frame) (body : List Byte) (left : Nat) (how : WireEnd) :
    Datapath :=
  let k := d.settleCapture p c x ((d.outBytes c x).getD [])
  let d := if c.kind = 2 then k.1
           else ((k.1.charge c.q (d.loutOf c x)).pmnRead p x).outcome p row k.2 (x.tx.map (fun t => t.txRec))
  let t := d.txPort p
  let pre := !c.expressStream
  let d := if pre && 0 < t.frags && !t.away then d.tallyAdd p T.MM_FRAG_TX else d
  let d := d.setTx p { t with away := if pre then false else t.away, sentTo := if pre then 0 else t.sentTo,
                              frags := if pre then 0 else t.frags }
  let d := (d.tailFor p left).endCopy cid
  if pre && t.away then d else d.wireSent p (t.delim pre) body how

/-- The bytes of the present fragment among those of a frame. -/
def Datapath.inFragment (d : Datapath) (p : Nat) (c : Copy) (bytes : List Byte) : List Byte :=
  if c.expressStream then bytes else bytes.drop (d.txPort p).sentTo

/-- The transmit MAC must send byte n of a started copy and it has not reached the interface (R402). -/
def Datapath.underrun (d : Datapath) (p : Nat) (express : Bool) (n : Nat) : Datapath :=
  match d.inService p express with
  | none => d
  | some y =>
    match d.frame y.2.fid with
    | none => d
    | some x =>
      if !y.2.started || readAll y.2 x || (!express && (d.txPort p).away) then d
      else
        let out := ((d.outBytes y.2 x).getD []).take (min n (32 * y.2.read + d.pushOf y.2 x))
        (d.countPad p out.length).wireCut p y.1 3 y.2 x (d.inFragment p y.2 (frameOf out true))
          (60 - out.length + 4) .check

/-- A started copy passes the port's length limit (R398). -/
def Datapath.oversize (d : Datapath) (p : Nat) (express : Bool) : Datapath :=
  match d.inService p express with
  | none => d
  | some y =>
    match d.frame y.2.fid with
    | none => d
    | some x =>
      let out := (d.outBytes y.2 x).getD []
      let lim := d.effMaxLen p out
      if !y.2.started || !d.flag F.penTxCtl_MTU_CHK (penOf p) (slotOf p) || (!express && (d.txPort p).away) ||
          max (out.length + (if y.2.flock then 8 else 0)) 60 + 4 ≤ lim then d
      else
        let past := d.inFragment p y.2 (out.take (lim - 3 - (if y.2.flock then 8 else 0)))
        let body := cutAt8 past.length (d.inFragment p y.2 out)
        d.wireCut p y.1 2 y.2 x body (body.length - past.length) .error

/-- The port leaves UP: the frame in transmission is cut at the next 8-byte boundary with an error control character, a
preempted frame is ended, pending control frames and the announced set are dropped (R182, R407, R419). -/
def Datapath.txCut (d : Datapath) (p : Nat) (how : WireEnd) : Datapath :=
  let t := d.txPort p
  let d := match t.tail with
    | some w =>
      let body := if w.pre then w.bytes.drop t.sentTo else w.bytes
      let d := if w.flock = some 2 then d else d.outcome p 1 w.cap w.txRec
      let d := if w.pre && 0 < t.frags then d.tallyAdd p T.MM_FRAG_TX else d
      d.wireSent p (t.delim w.pre) (cutAt8 body.length body) how
    | none => d
  let cut (d : Datapath) (express : Bool) : Datapath :=
    match d.inService p express with
    | none => d
    | some y =>
      match d.frame y.2.fid with
      | none => d
      | some x =>
        if y.2.started then
          let out := (d.outBytes y.2 x).getD []
          let got := d.inFragment p y.2 (out.take (32 * y.2.read + d.pushOf y.2 x))
          d.wireCut p y.1 1 y.2 x (cutAt8 got.length (d.inFragment p y.2 out)) 0 how
        else if y.2.read = 0 && y.2.ahead = [] then d.setCopy y.1 { y.2 with granted := false }
        else d
  let d := cut (cut d true) false
  d.setTx p { smd := (d.txPort p).smd, last := (d.txPort p).last, lastErr := (d.txPort p).lastErr }

/-! ## Pause and PFC frames (R405 to R408) -/

/-- QUANTA in effect (R405). -/
def Datapath.quanta (d : Datapath) (p : Nat) : Nat := max (d.rd F.penTxFc_QUANTA (penOf p) (slotOf p)) 1

/-- The 64 bytes of a pause or PFC frame from its bytes 14 on (R406). -/
def Datapath.controlFrame (d : Datapath) (p : Nat) (body : List Byte) : List Byte :=
  frameOf (beBytes 6 0x0180C2000001 ++ beBytes 6 (d.txSa p) ++ beBytes 2 0x8808 ++ body ++
    List.replicate (46 - body.length) 0) false

/-- The content of a pause or PFC frame that starts now, and its tally; none where no frame is sent (R407). -/
def Datapath.fcFrame (d : Datapath) (p : Nat) : Option (Nat × List Byte) :=
  let xoff := d.rd F.celFcStat_XOFF p
  let ann := (d.txPort p).announced
  match d.fcMode p with
  | 1 =>
    if xoff ≠ 0 then some (T.TX_PAUSE, d.controlFrame p (beBytes 2 1 ++ beBytes 2 (d.quanta p)))
    else if ann ≠ 0 then some (T.TX_PAUSE, d.controlFrame p (beBytes 2 1 ++ beBytes 2 0))
    else none
  | 2 =>
    let en := xoff ||| ann
    if en = 0 then none
    else some (T.TX_PFC, d.controlFrame p (beBytes 2 0x0101 ++ beBytes 2 en ++
      (List.range 8).flatMap (fun c => beBytes 2 (if xoff.testBit c then d.quanta p else 0))))
  | _ => none

/-- A verify or respond frame, from its 60 zero bytes on (R412). -/
def mmFrameBytes : List Byte :=
  let z : List Byte := List.replicate 60 0
  z ++ leBytes 4 (crc32 z ^^^ 0x0000FFFF)

/-- A pending control frame starts, in the order pause or PFC, respond, verify; its content is formed now (R408). -/
def Datapath.controlStart (d : Datapath) (p : Nat) : Datapath :=
  let t := d.txPort p
  let preBusy := (d.inService p false).isSome && !t.away
  if !d.sendable p || t.tail.isSome || (d.inService p true).isSome || preBusy || d.lpiBlocks p then d
  else if t.ctrlPend then
    let d' := d.setTx p { t with ctrlPend := false }
    match d.fcFrame p with
    | none => d'
    | some (n, bytes) =>
      (((d.setTx p { t with ctrlPend := false, announced := d.rd F.celFcStat_XOFF p }).tallyAdd p n).tailFor p 72).wireSent
        p [0xD5] bytes .check
  else if t.respPend then
    (((d.setTx p { t with respPend := false }).tallyAdd p T.MM_RESPOND_TX).tailFor p 72).wireSent p [0x19] mmFrameBytes .check
  else if t.verPend then
    (((d.setTx p { t with verPend := false }).tallyAdd p T.MM_VERIFY_TX).tailFor p 72).wireSent p [0x07] mmFrameBytes .check
  else d

/-- REFRESH quanta have passed since the last pausing frame (R407). -/
def Datapath.fcRefresh (d : Datapath) (p : Nat) : Datapath :=
  if d.fcMode p ≠ 0 && d.rd F.celFcStat_XOFF p ≠ 0 then d.fcTrigger p else d

/-- A write of CEL_PORT_CFG_n: FC_MODE triggers a control frame, the XOFF states are evaluated (R350, R407). -/
def Datapath.writeCelPort (d : Datapath) (n : Nat) (be : BitVec 4) (data : Word) : Datapath :=
  let d := d.writeReg .celPortCfg false be data n
  let d := loop 8 (fun c d => d.xoffEval n c) d
  if be.getLsbD 3 && n < 512 then d.fcTrigger n else d

/-! ## Fragments (R415 to R418) -/

/-- Whether an express copy of a port is granted and ready to start (R400, R415). -/
def Datapath.expressReady (d : Datapath) (p : Nat) : Bool :=
  match d.inService p true with
  | some y =>
    match d.frame y.2.fid with
    | some x => d.dataReady y.2 x && d.tplReady y.2 x
    | none => false
  | none => false

/-- The preemptable MAC ends its fragment after data byte k where R415 allows it. A frame that started while preemption was
active may still be fragmented after its port's gates have taken preemption out of use (R169, R388). That k is the first such
byte is the command's to say: log entry 90. -/
def Datapath.fragmentEnd (d : Datapath) (p k : Nat) : Datapath :=
  match d.inService p false with
  | none => d
  | some y =>
    match d.frame y.2.fid with
    | none => d
    | some x =>
      let t := d.txPort p
      let out := (d.outBytes y.2 x).getD []
      let known := d.heldBytes y.2 x
      let least := d.leastFragment p
      let wanted := d.expressReady p || d.ctrlPending p || d.preHeld p
      if !d.verOk p || !t.split || !y.2.started || t.away || t.tail.isSome || !wanted || k < t.sentTo ||
          k + 1 - t.sentTo + 4 < least || known < k + 1 + 60 || out.length < k + 1 then d
      else
        let sent := out.take (k + 1)
        let body := sent.drop t.sentTo ++ leBytes 4 (crc32 sent ^^^ 0x0000FFFF)
        ((((d.setTx p { t with away := true, sentTo := k + 1, frags := t.frags + 1 }).tallyAdd p T.MM_PREEMPT).tallyAdd p
          T.MM_FRAG_TX).tailFor p 4).wireSent p (t.delim true) body .check

/-- The preemptable MAC resumes its frame (R417). -/
def Datapath.preemptResume (d : Datapath) (p : Nat) : Datapath :=
  let t := d.txPort p
  if !t.away || (d.inService p true).isSome || d.ctrlPending p || t.tail.isSome || d.preHeld p then d
  else d.setTx p { t with away := false, wireFrom := (d.tbNow (d.pmTb p)).abs }

/-- The preemptable MAC is held for the express head copies whose launch times are near and not due (R418). -/
def Datapath.preemptHold (d : Datapath) (lead p : Nat) : Datapath :=
  let near := d.nearLaunch lead p
  if d.preemptActive p && near ≠ [] then
    d.setTx p { d.txPort p with hold := (d.txPort p).hold.filter (fun n => !near.contains n) ++ near }
  else d

/-! ## Commands -/

/-- COPY_START of the granted copy of a stream of a line port (R400). -/
def execCopyStart (p : Nat) (express : Bool) (s : State) : Out := .next (s.onDp (fun d => d.copyStart p express))

/-- TX_UNDERRUN: byte n of the started copy of a stream has not reached the interface (R402). -/
def execTxUnderrun (p : Nat) (express : Bool) (n : Nat) (s : State) : Out :=
  .next (s.onDp (fun d => d.underrun p express n))

/-- TX_OVERSIZE_CUT of the started copy of a stream (R398). -/
def execTxOversizeCut (p : Nat) (express : Bool) (s : State) : Out := .next (s.onDp (fun d => d.oversize p express))

/-- TX_FRAME_END on a line port (R403). -/
def execTxFrameEnd (p : Nat) (s : State) : Out := .next (s.onDp (fun d => d.frameEnd p))

/-- PAUSE_REFRESH_EXPIRE on a port (R407). -/
def execPauseRefreshExpire (p : Nat) (s : State) : Out := .next (s.onDp (fun d => d.fcRefresh p))

/-- FC_MODE_WRITE: a write of CEL_PORT_CFG_n that reaches FC_MODE (R407). -/
def execFcModeWrite (src : Src) (n : Nat) (be : BitVec 4) (data : Word) (s : State) : Out :=
  .next (s.regWrite src (Reg.celPortCfg.addr n 0) (fun s => s.onDp (fun d => d.writeCelPort n (be ||| 0x8) data)))

/-- CONTROL_FRAME_START on a port (R408). -/
def execControlFrameStart (p : Nat) (s : State) : Out := .next (s.onDp (fun d => d.controlStart p))

/-- VERIFY_TIMER_EXPIRE on a port (R413). -/
def execVerifyTimerExpire (p : Nat) (s : State) : Out := .next (s.onDp (fun d => d.verTimer p))

/-- VERIFY_RESTART: a write of PEN_MM_CTL_i with RESTART = 1; its RW fields take the data written beside it (R413). -/
def execVerifyRestart (src : Src) (p : Nat) (be : BitVec 4) (data : Word) (s : State) : Out :=
  .next (s.regWrite src (Reg.penMmCtl.addr (penOf p) (slotOf p)) (fun s =>
    s.onDp (fun d => if d.carved p then d.writeMmCtl p (be ||| 0x1) (data ||| 1) else d)))

/-- VERIFY_DISABLE: a write of PEN_MM_CTL_i with VERIFY_DIS = 1 (R413). -/
def execVerifyDisable (src : Src) (p : Nat) (be : BitVec 4) (data : Word) (s : State) : Out :=
  .next (s.regWrite src (Reg.penMmCtl.addr (penOf p) (slotOf p)) (fun s =>
    s.onDp (fun d => if d.carved p then d.writeMmCtl p (be ||| 0x1) (data ||| 2) else d)))

/-- FRAGMENT_END after data byte k (R415). -/
def execFragmentEnd (p k : Nat) (s : State) : Out := .next (s.onDp (fun d => d.fragmentEnd p k))

/-- PREEMPT_RESUME on a port (R417). -/
def execPreemptResume (p : Nat) (s : State) : Out := .next (s.onDp (fun d => d.preemptResume p))

/-- PREEMPT_HOLD on a port (R418). -/
def execPreemptHold (p : Nat) (s : State) : Out := .next (s.onDp (fun d => d.preemptHold s.lead p))

end Sys2Proof.Machine
end

