-- ==== Sys2Proof/Machine/StoreRoom.lean ====
section
/-! DEFINITION. The store-room ports and their arbiters (spec/15, and R62 to R72 of spec/02): requests, grants, age
stamps, tags, transfers, responses, captured errors, registers. What a response brings to its requester stands in
Machine/FoldApply.lean. -/

namespace Sys2Proof.Machine

/-! ## Ports -/

/-- Store-room port k. -/
def Datapath.srp (d : Datapath) (k : Nat) : StpPort := Tab.get d.stp k {}

/-- Replaces store-room port k. -/
def Datapath.setSrp (d : Datapath) (k : Nat) (p : StpPort) : Datapath := { d with stp := Tab.put d.stp k p {} }

/-- Read tags a requester holds, a presented read's among them (R467). -/
def StpPort.held (p : StpPort) (r : Nat) : Nat :=
  (p.reads.filter (fun e => e.2.req.r = r)).length +
    (match p.presented with
     | some (q, _) => b2n (!q.write && q.r = r)
     | none => 0)

/-- TAG_MAX of a requester in effect (R479). -/
def Datapath.tagMax (d : Datapath) (k r : Nat) : Nat :=
  let t := d.rd F.stpReqCfg_TAG_MAX (8 * k + r)
  if t = 0 || 8192 < t then 8192 else t

/-- Whether a request may be issued now: a read while a tag is free and its requester holds fewer than TAG_MAX, a write
while fewer than 1,024 responses are outstanding (R467). -/
def Datapath.issuable (d : Datapath) (k : Nat) (q : SReq) : Bool :=
  let p := d.srp k
  if q.write then p.writes.length < 1024 else p.reads.length < 8192 && p.held q.r < d.tagMax k q.r

/-- The request that a requester presents next: its first that may be issued now (R467). On a port that is stopped, or
whose pen is not enabled, there is none (R70, R72). -/
def Datapath.srpNext (d : Datapath) (k r : Nat) : Option SReq :=
  let p := d.srp k
  if p.stopped || !d.enabled (512 + k) then none else p.want.find? (fun q => q.r = r && d.issuable k q)

/-- Whether a requester is ready (R467). -/
def Datapath.srpReady (d : Datapath) (k r : Nat) : Bool := (d.srpNext k r).isSome

/-- The lowest-numbered free tag (R468). -/
def StpPort.freeTag (p : StpPort) : Nat := Tab.fresh p.reads 0

/-- A port after a change: a holder that is not cut off and has nothing presented presents its next ready request
(R469); a requester that became ready without a grant takes the tick counter as its age stamp, one that is no longer
ready loses it (R471). A request that is presented, and the write beats behind transferred requests, stay where a re-fold
disables the pen meanwhile: R72 against R63 and R64. DESIGN CHOICE, log entry 99. -/
def Datapath.settle (d : Datapath) (k : Nat) : Datapath :=
  let p := d.srp k
  let p := match p.grant, p.presented with
    | some (r, _), none =>
      match d.srpNext k r with
      | some q =>
        if p.cut then p
        else { p with presented := some (q, if q.write then 0 else p.freeTag), want := p.want.erase q }
      | none => p
    | _, _ => p
  let d := d.setSrp k p
  let stamps := (List.range 6).foldl (fun (s : Tab Nat) r =>
    let holds := match p.grant with
      | some (g, _) => g = r
      | none => false
    if !holds && d.srpReady k r then
      (match Tab.find s r with
       | some _ => s
       | none => Tab.set s r p.tick)
    else Tab.erase s r) p.stamps
  d.setSrp k { p with stamps := stamps }

/-- A requester forms a request: it joins the requests of its port. -/
def Datapath.srpWant (d : Datapath) (k : Nat) (q : SReq) : Datapath :=
  (d.setSrp k { d.srp k with want := (d.srp k).want ++ [q] }).settle k

/-! ## Arbitration (R471 to R474) -/

/-- The age of a requester's stamp (R471). -/
def StpPort.age (p : StpPort) (r : Nat) : Nat :=
  match Tab.find p.stamps r with
  | some s => min ((p.tick + 4096 - s % 4096) % 4096) 2047
  | none => 0

/-- CLASS of a requester in force. -/
def Datapath.srpClass (d : Datapath) (k r : Nat) : Nat := d.rd F.stpReqCfg_CLASS (8 * k + r)

/-- The class a requester competes under (R472). -/
def Datapath.effClass (d : Datapath) (k r : Nat) : Nat :=
  let c := d.srpClass k r
  let q := d.rd F.stpQuota_QUOTA (4 * k + c)
  if c ≠ 0 && q ≠ 0 && q ≤ Tab.get (d.srp k).used c 0 then 0 else c

/-- The requester that an arbitration grants among the ready ones (R472). -/
def Datapath.srpPick (d : Datapath) (k : Nat) : Option Nat :=
  ((List.range 6).filter (d.srpReady k)).foldl (fun (best : Option Nat) r =>
    match best with
    | none => some r
    | some b =>
      let p := d.srp k
      if d.effClass k b < d.effClass k r || (d.effClass k b = d.effClass k r && p.age b < p.age r) then some r
      else best) none

/-- An arbitration clock of port k (R469, R472). -/
def Datapath.arbitrate (d : Datapath) (k : Nat) : Datapath :=
  let p := d.srp k
  match p.grant, d.srpPick k with
  | none, some r =>
    let c := d.srpClass k r
    (d.setSrp k { p with grant := some (r, c), cut := false, lastClass := Tab.put p.lastClass r c 0 }).settle k
  | _, _ => d

/-- A holder with nothing presented and nothing ready releases its grant (R470). -/
def Datapath.grantRelease (d : Datapath) (k : Nat) : Datapath :=
  let p := d.srp k
  match p.grant, p.presented with
  | some (r, _), none => if d.srpReady k r && !p.cut then d else (d.setSrp k { p with grant := none, cut := false }).settle k
  | _, _ => d

/-- A grant reaches HOLD_LIMIT: its holder is cut off, unless it releases in the same clock (R470). -/
def Datapath.holdCut (d : Datapath) (k : Nat) : Datapath :=
  let p := d.srp k
  match p.grant with
  | none => d
  | some (r, _) =>
    if p.cut then d
    else if p.presented.isNone && !d.srpReady k r then d.grantRelease k
    else
      let d := (d.wr F.stpEvt_HOLD_CUT 1).count F.stpReqCuts_CUTS 1 (8 * k + r)
      match p.presented with
      | some _ => d.setSrp k { p with cut := true }
      | none => (d.setSrp k { p with grant := none, cut := false }).settle k

/-- A quota window of port k starts (R473). -/
def Datapath.quotaWindow (d : Datapath) (k : Nat) : Datapath := d.setSrp k { d.srp k with used := [] }

/-! ## Transfers (R63, R64) -/

/-- The data beats of a write (R64, R65): beat b covers bytes 256 b on from the request's address; bytes outside the
request's data have strobe 0. -/
def SReq.beats (q : SReq) : List WBeat :=
  (List.range q.len).map (fun b =>
    let from' := if b = 0 then q.lo else 0
    let skip := if b = 0 then 0 else 256 * b - q.lo
    { addr := q.addr + 256 * b, lo := from', data := (q.data.drop skip).take (256 - from'), last := b + 1 = q.len, job := q.job })

/-- What a transferred request means to its engine: a receive copy counts its data requests down (R64, R68). -/
def Datapath.noteTransfer (d : Datapath) (q : SReq) : Datapath :=
  match q.job with
  | .rxData n =>
    match Tab.find d.trg.rxRecs n with
    | some r => { d with trg := { d.trg with rxRecs := Tab.set d.trg.rxRecs n { r with left := r.left - 1 } } }
    | none => d
  | _ => d

/-- The presented request of port k transfers (R63, R468, R473). -/
def Datapath.srpTransfer (d : Datapath) (k : Nat) : Datapath :=
  let p := d.srp k
  match p.presented with
  | none => d
  | some (q, tag) =>
    let c := match p.grant with
      | some (_, c) => c
      | none => 0
    let p := { p with
      presented := none
      used := if c = 0 then p.used else Tab.upd p.used c 0 (fun n => n + q.len)
      grant := if p.cut then none else p.grant
      cut := false }
    let p :=
      if q.write then { p with writes := p.writes ++ [q], wbeats := p.wbeats ++ q.beats }
      else { p with reads := Tab.set p.reads tag { req := q } }
    ((d.setSrp k p).noteTransfer q).settle k

/-- The presented write data beat of port k transfers (R63). -/
def Datapath.srpBeat (d : Datapath) (k : Nat) : Datapath :=
  let p := d.srp k
  match p.wbeats with
  | [] => d
  | _ :: bs => (d.setSrp k { p with wbeats := bs }).pmnEvent 0x13 (32 + k)

/-! ## Responses (R66 to R70, R476, R477) -/

/-- A protocol violation: the offending beat or response is discarded and the port issues no further request (R70). -/
def Datapath.srpViolation (d : Datapath) (k : Nat) : Datapath :=
  ((d.setSrp k { d.srp k with stopped := true }).wr F.stpPortStat_PROTO 1 k).settle k

/-- The code that a response code is treated as: 0b01 as DATA_ERR (R69). -/
def respCode (resp : Nat) : Nat := if resp % 4 = 1 then 2 else resp % 4

/-- An error response sets RESP_ERR and is captured while NEW is 0; one in the clock of a clear of NEW only leaves NEW 1
(R476, R477). -/
def Datapath.srpError (d : Datapath) (k : Nat) (q : SReq) (tag code : Nat) : Datapath :=
  let d := d.wr F.stpEvt_RESP_ERR 1
  if d.flag F.stpErrCtl_NEW k then d
  else if d.meets .storeNew k then d.wr F.stpErrCtl_NEW 1 k
  else
    let d := ((d.wr F.stpErrCtl_NEW 1 k).wr F.stpErrCtl_REQ q.r k).wr F.stpErrCtl_CODE code k
    let d := ((d.wr F.stpErrCtl_DIR (b2n q.write) k).wr F.stpErrCtl_LEN (q.len - 1) k).wr F.stpErrCtl_TAG tag k
    let d := (d.wr F.stpErrAddrLo_ADDR (q.addr % 2 ^ 32) k).wr F.stpErrAddrHi_ADDR (q.addr / 2 ^ 32) k
    (d.wr F.stpErrOwner_TENANT q.tenant k).wr F.stpErrOwner_OWNER q.owner k

/-- A read beat arrives: the finished read, if this beat ends it without a violation (R66, R69, R70). -/
def Datapath.srpReadBeat (d : Datapath) (k tag : Nat) (data : List Byte) (resp : Nat) (last : Bool) :
    Datapath × Option SRead :=
  let p := d.srp k
  match Tab.find p.reads tag with
  | none => (d.srpViolation k, none)
  | some r =>
    if last ≠ (r.got + 1 = r.req.len : Bool) then (d.srpViolation k, none)
    else
      let d := d.pmnEvent 0x12 (32 + k)
      let r := { r with got := r.got + 1, err := if r.err = 0 then respCode resp else r.err,
                        bytes := r.bytes ++ slice data 0 256 }
      if !last then (d.setSrp k { p with reads := Tab.set p.reads tag r }, none)
      else
        let d := (d.setSrp k { p with reads := Tab.erase p.reads tag }).settle k
        (if r.err = 0 then d else d.srpError k r.req tag r.err, some r)

/-- A write response arrives: the write it retires (R67, R70). -/
def Datapath.srpWriteResp (d : Datapath) (k resp : Nat) : Datapath × Option SReq :=
  let p := d.srp k
  match p.writes with
  | [] => (d.srpViolation k, none)
  | q :: ws =>
    let d := (d.setSrp k { p with writes := ws }).settle k
    (if respCode resp = 0 then d else d.srpError k q 0 (respCode resp), some q)

/-- A read beat while rst_blk_n is low: it is accepted and discarded, and the tracker follows it (R42). -/
def Datapath.srpReadDiscard (d : Datapath) (k tag : Nat) (last : Bool) : Datapath :=
  let p := d.srp k
  match Tab.find p.reads tag with
  | none => d
  | some r => d.setSrp k { p with reads := if last then Tab.erase p.reads tag else Tab.set p.reads tag { r with got := r.got + 1 } }

/-- A write response while rst_blk_n is low: it is accepted and discarded, and the tracker follows it (R42). -/
def Datapath.srpWriteDiscard (d : Datapath) (k : Nat) : Datapath :=
  d.setSrp k { d.srp k with writes := (d.srp k).writes.drop 1 }

/-! ## Owners (R476) -/

/-- A change of every request of a port, whether it waits, is presented or is outstanding. -/
def StpPort.mapReqs (p : StpPort) (g : SReq → SReq) : StpPort :=
  { p with
    want := p.want.map g
    presented := p.presented.map (fun e => (g e.1, e.2))
    reads := p.reads.map (fun e => (e.1, { e.2 with req := g e.2.req }))
    writes := p.writes.map g }

/-- A change of the requests that a test selects, on every port. -/
def Datapath.mapReqs (d : Datapath) (sel : SReq → Bool) (g : SReq → SReq) : Datapath :=
  { d with stp := d.stp.map (fun e => (e.1, e.2.mapReqs (fun w => if sel w then g w else w))) }

/-- Whether a port holds a request that a test selects and whose data or response is still owed. -/
def StpPort.anyReq (p : StpPort) (sel : SReq → Bool) : Bool :=
  p.want.any sel || p.presented.any (fun e => sel e.1) || p.reads.any (fun e => sel e.2.req) || p.writes.any sel

/-! ## Ticks (R471) -/

/-- One increment of a port's tick counter; a stamp whose age stands at 2,047 moves with it (R471). -/
def StpPort.tickOnce (p : StpPort) : StpPort :=
  { p with tick := (p.tick + 1) % 4096
           stamps := p.stamps.map (fun e => (e.1, if (p.tick + 4096 - e.2 % 4096) % 4096 ≥ 2047 then (e.2 + 1) % 4096 else e.2)) }

/-- n clocks of clk_srp on every port: a tick comes once 2^TICK_LOG2 clocks have passed since the last, at the next clock
where a write of TICK_LOG2 leaves more behind (R471). -/
def Datapath.srpClocks (d : Datapath) (n : Nat) : Datapath :=
  let t := 2 ^ min (d.rd F.stpCfg_TICK_LOG2) 10
  loop 6 (fun k d =>
    let p := d.srp k
    let s := min p.sub (t - 1) + n
    let p := (List.range (s / t)).foldl (fun p _ => p.tickOnce) p
    d.setSrp k { p with sub := s % t }) d

/-! ## Registers (R478, R479) -/

/-- The value of srp_<k>_busy (R62). -/
def StpPort.busy (p : StpPort) : Bool := p.reads ≠ [] || p.writes ≠ []

/-- The word of STP_EVT: PROTO_ERR is 1 while some port's PROTO is. -/
def Datapath.stpEvtWord (d : Datapath) : Word :=
  putBits (RegFile.word d.regs .stpEvt 0 0) 0 0
    (b2n ((List.range 6).any (fun k => d.flag F.stpPortStat_PROTO k)))

/-- The word of STP_PORT_STAT_k. -/
def Datapath.stpPortWord (d : Datapath) (k : Nat) : Word :=
  let p := d.srp k
  putBits (putBits (putBits (RegFile.word d.regs .stpPortStat k 0) 30 30 (b2n p.busy)) 29 16 p.reads.length) 10 0
    p.writes.length

/-- The word of STP_REQ_STAT_m. -/
def Datapath.stpReqWord (d : Datapath) (m : Nat) : Word :=
  let k := m / 8
  let r := m % 8
  let p := d.srp k
  let holds := match p.grant with
    | some (g, _) => g = r
    | none => false
  BitVec.ofNat 32 (b2n holds * 2 ^ 31 + b2n (Tab.find p.stamps r).isSome * 2 ^ 30 + Tab.get p.lastClass r 0 * 2 ^ 28 +
    p.held r * 2 ^ 12 + p.age r)

/-- A write of an STP register other than of class 0 and of requesters 6 and 7; the ports settle after it (R474). -/
def Datapath.writeStp (d : Datapath) (r : Reg) (unl : Bool) (i : Nat) (be : BitVec 4) (data : Word) : Datapath :=
  loop 6 (fun k d => d.settle k) (d.writeReg r unl be data i)

/-! ## Commands -/

/-- ARBITRATION on store-room port k (R472). -/
def execArbitration (k : Nat) (s : State) : Out := .next (s.onDp (fun d => d.arbitrate k))

/-- GRANT_RELEASE on store-room port k (R470). -/
def execGrantRelease (k : Nat) (s : State) : Out := .next (s.onDp (fun d => d.grantRelease k))

/-- HOLD_CUT on store-room port k (R470). -/
def execHoldCut (k : Nat) (s : State) : Out := .next (s.onDp (fun d => d.holdCut k))

/-- QUOTA_WINDOW_START on store-room port k (R473). -/
def execQuotaWindowStart (k : Nat) (s : State) : Out := .next (s.onDp (fun d => d.quotaWindow k))

/-- SRP_REQUEST_TRANSFER on store-room port k (R63). -/
def execSrpRequestTransfer (k : Nat) (s : State) : Out := .next (s.onDp (fun d => d.srpTransfer k))

end Sys2Proof.Machine
end

