-- ==== Sys2Proof/Machine/Rings.lean ====
section
/-! DEFINITION. Queue contexts, tenant windows, completion rings and the holding store (spec/14): what the trough
engines of all client pens share. -/

namespace Sys2Proof.Machine

/-! ## Contexts -/

/-- The field of a transmit or receive context that a queue has. -/
def QRef.f (x : QRef) (t r : RegField) : RegField := if x.rx then r else t

/-- STATE of a queue (R464). -/
def Datapath.qSt (d : Datapath) (x : QRef) : Nat := d.rd (x.f F.trgTxqCtl_STATE F.trgRxqCtl_STATE) x.q

/-- Sets STATE of a queue. -/
def Datapath.setQSt (d : Datapath) (x : QRef) (st : Nat) : Datapath :=
  d.wr (x.f F.trgTxqCtl_STATE F.trgRxqCtl_STATE) st x.q

/-- The run time of a queue. -/
def Datapath.qRt (d : Datapath) (x : QRef) : QueueRt := Tab.get (if x.rx then d.trg.rxq else d.trg.txq) x.q {}

/-- Replaces the run time of a queue. -/
def Datapath.setQRt (d : Datapath) (x : QRef) (v : QueueRt) : Datapath :=
  if x.rx then { d with trg := { d.trg with rxq := Tab.put d.trg.rxq x.q v {} } }
  else { d with trg := { d.trg with txq := Tab.put d.trg.txq x.q v {} } }

/-- TENANT of a queue. -/
def Datapath.qTenant (d : Datapath) (x : QRef) : Nat := d.rd (x.f F.trgTxqCfg_TENANT F.trgRxqCfg_TENANT) x.q

/-- BUF_WIN of a queue. -/
def Datapath.qBufWin (d : Datapath) (x : QRef) : Nat := d.rd (x.f F.trgTxqCfg_BUF_WIN F.trgRxqCfg_BUF_WIN) x.q

/-- The completion ring that a queue names. -/
def Datapath.qCq (d : Datapath) (x : QRef) : Nat := d.rd (x.f F.trgTxqCfg2_CQ F.trgRxqCfg2_CQ) x.q

/-- The ring base of a queue. -/
def Datapath.qBase (d : Datapath) (x : QRef) : Nat :=
  d.rd (x.f F.trgTxqBaseHi_ADDR F.trgRxqBaseHi_ADDR) x.q * 2 ^ 32 +
    d.rd (x.f F.trgTxqBaseLo_ADDR F.trgRxqBaseLo_ADDR) x.q * 256

/-- SIZE_LOG2 of a queue. -/
def Datapath.qLog (d : Datapath) (x : QRef) : Nat := d.rd (x.f F.trgTxqCfg_SIZE_LOG2 F.trgRxqCfg_SIZE_LOG2) x.q

/-- FETCH of a queue. -/
def Datapath.qFetch (d : Datapath) (x : QRef) : Nat := d.rd (x.f F.trgTxqIdx_FETCH F.trgRxqIdx_FETCH) x.q

/-- The phase expected at FETCH. -/
def Datapath.qPhase (d : Datapath) (x : QRef) : Nat := d.rd (x.f F.trgTxqIdx_PHASE F.trgRxqIdx_PHASE) x.q

/-- Sets FETCH and the expected phase. -/
def Datapath.setFetch (d : Datapath) (x : QRef) (i ph : Nat) : Datapath :=
  (d.wr (x.f F.trgTxqIdx_FETCH F.trgRxqIdx_FETCH) i x.q).wr (x.f F.trgTxqIdx_PHASE F.trgRxqIdx_PHASE) ph x.q

/-- The store-room port of a queue: that of the enabled client port it belongs to (R427). -/
def Datapath.qPort (d : Datapath) (x : QRef) : Option Nat := (d.ownerOf (if x.rx then QK.rx else QK.tx) x.q).map (· - 512)

/-- The store-room port of a ring. -/
def Datapath.ringPort (d : Datapath) (r : Nat) : Option Nat := (d.ownerOf QK.cq r).map (· - 512)

/-- The queues that are not DISABLED, transmit queues first, ascending. -/
def Datapath.liveQueues (d : Datapath) : List QRef :=
  d.regs.filterMap (fun e =>
    if F.trgTxqCtl_STATE.of e.2 = 0 then none
    else
      match Reg.trgTxqCtl.geom.index e.1, Reg.trgRxqCtl.geom.index e.1 with
      | some (q, _), _ => some { rx := false, q := q }
      | none, some (q, _) => some { rx := true, q := q }
      | none, none => none)

/-- The polling state of client pen 32 + k. -/
def Datapath.trgPen (d : Datapath) (k : Nat) : TrgPen := Tab.get d.trg.pens k {}

/-- Replaces the polling state of client pen 32 + k. -/
def Datapath.setTrgPen (d : Datapath) (k : Nat) (v : TrgPen) : Datapath :=
  { d with trg := { d.trg with pens := Tab.put d.trg.pens k v {} } }

/-! ## Tenant windows (R428, R429) -/

/-- Whether n bytes from an address lie wholly in window w of tenant t. -/
def Datapath.inWindow (d : Datapath) (t w a n : Nat) : Bool :=
  let i := 4 * t + w
  let base := d.rd F.trgTenBhi_ADDR i * 2 ^ 32 + d.rd F.trgTenBlo_BASE i * 4096
  let lim := d.rd F.trgTenLhi_ADDR i * 2 ^ 32 + d.rd F.trgTenLlo_LIMIT i * 4096
  d.flag F.trgTenBlo_EN i && base < lim && base ≤ a && a + n ≤ lim

/-- Whether n bytes from an address lie wholly in one of the windows that a mask selects. -/
def Datapath.windowOk (d : Datapath) (t mask a n : Nat) : Bool :=
  (List.range 4).any (fun w => mask.testBit w && d.inWindow t w a n)

/-! ## Leaving RUNNING (R457) -/

/-- Whether a store-room request serves a queue: a poll, a data read or a data write of it (R466). -/
def SReq.ofQueue (x : QRef) (w : SReq) : Bool :=
  w.owner = x.q && (if x.rx then w.r = 1 || w.r = 3 else w.r = 2 || w.r = 4)

/-- A queue is no longer polled: it leaves the kicked, due and hot queues, and the slots of a poll that is outstanding
are not taken. -/
def Datapath.stopPolls (d : Datapath) (x : QRef) : Datapath :=
  let d := match d.qPort x with
    | some k =>
      let p := d.trgPen k
      d.setTrgPen k { p with kicks := p.kicks.filter (· ≠ x), due := p.due.filter (· ≠ x), hot := p.hot.filter (· ≠ x),
                             polls := p.polls.filter (fun e => e.1 ≠ x) }
    | none => d
  (d.setQRt x { d.qRt x with waiting := false }).mapReqs (fun w => w.job = .poll x.rx x.q) (fun w => { w with untaken := true })

/-- A queue in RUNNING or STOPPING enters ERROR with a code (R457). -/
def Datapath.errState (d : Datapath) (x : QRef) (code : Nat) : Datapath :=
  (((d.setQSt x QS.error).wr (x.f F.trgTxqCtl_ERR F.trgRxqCtl_ERR) code x.q).wr F.trgEvt_QUEUE_ERR 1).stopPolls x

/-- Whether a failure acts on a queue: it is in RUNNING or STOPPING (R457). -/
def Datapath.canFail (d : Datapath) (x : QRef) : Bool := d.qSt x = QS.running || d.qSt x = QS.stopping

/-- Whether an error response acts on a queue: it is in any state but DISABLED, so that a further error acts again on one in
ERROR, and the error of a poll still outstanding on one in STOPPED (R476; log entry 66). -/
def Datapath.canMeet (d : Datapath) (x : QRef) : Bool := d.qSt x ≠ QS.disabled

/-! ## Completion rings (R430 to R435, R454 to R456) -/

/-- Replaces the run time of a ring. -/
def Datapath.setRing (d : Datapath) (r : Nat) (g : RingRt) : Datapath :=
  { d with trg := { d.trg with rings := Tab.put d.trg.rings r g {} } }

/-- The base of a ring. -/
def Datapath.ringBase (d : Datapath) (r : Nat) : Nat :=
  d.rd F.trgCqBaseHi_ADDR r * 2 ^ 32 + d.rd F.trgCqBaseLo_ADDR r * 256

/-- Whether a ring is RUNNING. -/
def Datapath.ringRuns (d : Datapath) (r : Nat) : Bool := d.rd F.trgCqCtl_STATE r = QS.running

/-- A ring enters ERROR with a code; every queue that names it and runs or stops enters ERROR with CQ_ERROR, and the
completions waiting for the ring are discarded, those of unused descriptors among them (R456, R457). -/
def Datapath.ringError (d : Datapath) (r code : Nat) : Datapath :=
  let d := ((d.wr F.trgCqCtl_STATE QS.error r).wr F.trgCqCtl_ERR code r).wr F.trgEvt_CQ_ERR 1
  let d := d.setRing r { d.ring r with held := [], resv := 0, heldResv := 0 }
  d.liveQueues.foldl (fun d x =>
    if d.qCq x = r && d.canFail x then
      let d := d.errState x 6
      if x.rx then d.setQRt x { d.qRt x with descs := [] } else d
    else d) d

/-- Entries of the holding store of client pen 32 + k that are in use or reserved (R454). -/
def Datapath.holdUsed (d : Datapath) (k : Nat) : Nat :=
  Tab.sum d.trg.rings (fun r g => if d.ringPort r = some k then g.held.length + g.heldResv else 0)

/-- HOLD_MAX in effect (R465). -/
def Datapath.holdMax (d : Datapath) : Nat :=
  let m := d.rd F.trgHoldCfg_HOLD_MAX
  if m = 0 || 2048 < m then 2048 else m

/-- A place for a completion of ring r is reserved: whether it lies in the ring; none where none can be had (R454). -/
def Datapath.reserve (d : Datapath) (k r : Nat) : Option (Datapath × Bool) :=
  let g := d.ring r
  if !d.ringRuns r then none
  else if 0 < d.ringFree r then some (d.setRing r { g with resv := g.resv + 1 }, true)
  else if g.held.length + g.heldResv < d.holdMax && d.holdUsed k < 2048 then
    some (d.setRing r { g with heldResv := g.heldResv + 1 }, false)
  else none

/-- A completion with the ring's write phase in bit 7 of its byte 31 (R430). -/
def withPhase (c : List Byte) (ph : Nat) : List Byte := overlay c 31 [byteAt c 31 ||| BitVec.ofNat 8 (ph * 128)]

/-- The requests of a port with a completion added: to the last completion write of its ring that has not been presented,
where it is the next of its beat, else as a write of its own (R456). Requests of other rings and consumer-index reads that
wait behind that write do not matter: completions consecutive in their ring are written together. -/
def addCpl (want : List SReq) (q : SReq) : List SReq :=
  match (want.reverse.find? (fun w => w.r = 0 && w.job = q.job)) with
  | some w =>
    if w.write && w.addr = q.addr && w.lo + w.data.length = q.lo then
      want.reverse.foldl (fun (a : List SReq × Bool) v =>
        if !a.2 && v.r = 0 && v.job = q.job then ({ v with data := v.data ++ q.data } :: a.1, true) else (v :: a.1, a.2)) ([], false) |>.1
    else want ++ [q]
  | none => want ++ [q]

/-- A completion is written into the next slot of its ring (R435); a window violation puts the ring into ERROR (R456). -/
def Datapath.ringWrite (d : Datapath) (r : Nat) (c : List Byte) : Datapath :=
  let pi := d.rd F.trgCqIdx_PI r
  let ph := d.rd F.trgCqIdx_PHASE r
  let a := d.ringBase r + 32 * pi
  let t := d.rd F.trgCqCfg_TENANT r
  match d.ringPort r with
  | none => d
  | some k =>
    if !d.windowOk t 15 a 32 then d.ringError r 2
    else
      let q : SReq := { r := 0, write := true, addr := a / 256 * 256, len := 1, tenant := t, kind := 2, owner := r, job := .cpl r,
                        lo := a % 256, data := withPhase c ph }
      let wrap := pi + 1 = d.ringSize r
      let d := (d.wr F.trgCqIdx_PI (if wrap then 0 else pi + 1) r).wr F.trgCqIdx_PHASE (if wrap then 1 - ph else ph) r
      (d.setSrp k { d.srp k with want := addCpl (d.srp k).want q }).settle k

/-- A completion enters the holding store of its ring: CQ_FULL and STALLS (R455). -/
def Datapath.holdCpl (d : Datapath) (r : Nat) (g : RingRt) (c : List Byte) : Datapath :=
  ((d.setRing r { g with held := g.held ++ [c] }).wr F.trgEvt_CQ_FULL 1).count F.trgCqStalls_STALLS 1 r

/-- A completion takes its reserved place (R454, R455). While completions of the ring are held, one with a place in
the ring lets the first of them out and enters the store behind the others. A ring that is not RUNNING discards it
(R456). -/
def Datapath.placeCpl (d : Datapath) (r : Nat) (inRing : Bool) (c : List Byte) : Datapath :=
  let g := d.ring r
  if !d.ringRuns r then d
  else if inRing then
    if g.resv = 0 then d
    else
      match g.held with
      | [] => (d.setRing r { g with resv := g.resv - 1 }).ringWrite r c
      | h :: t => (d.holdCpl r { g with resv := g.resv - 1, held := t } c).ringWrite r h
  else if g.heldResv = 0 then d
  else d.holdCpl r { g with heldResv := g.heldResv - 1 } c

/-- A completion of a queue is placed and counted (R464). -/
def Datapath.placeFor (d : Datapath) (x : QRef) (inRing : Bool) (status : Nat) (c : List Byte) : Datapath :=
  let r := d.qCq x
  if !d.ringRuns r then d.placeCpl r inRing c
  else
    let d := d.placeCpl r inRing c
    if x.rx then d.count F.trgRxqFrames_FRAMES 1 x.q
    else
      let d := d.count F.trgTxqFrames_FRAMES 1 x.q
      if status = 0 then d else d.count F.trgTxqErrs_ERRS 1 x.q

/-- A completion without its phase (R439). -/
structure Cpl where
  cookie : Nat
  x : QRef
  slot : Nat
  len : Nat
  port : Nat := 0
  stamp : Nat := 0
  aux : Nat := 0
  status : Nat
  rxErr : Nat := 0
  sample : Bool := false
  late : Bool := false
  ndesc : Nat := 1
  tc : Nat := 0
  deriving DecidableEq, Repr

/-- The 32 bytes of a completion (R439). -/
def Cpl.bytes (c : Cpl) : List Byte :=
  leBytes 8 c.cookie ++
  leBytes 4 (c.x.q % 2 ^ 15 + b2n c.x.rx * 2 ^ 15 + c.slot % 2 ^ 16 * 2 ^ 16) ++
  leBytes 4 (c.len % 2 ^ 15 + c.port * 2 ^ 16) ++
  leBytes 8 c.stamp ++ leBytes 4 c.aux ++
  leBytes 4 (c.status + c.rxErr * 2 ^ 8 + b2n c.sample * 2 ^ 11 + b2n c.late * 2 ^ 12 + (c.ndesc - 1) % 8 * 2 ^ 13 +
    c.tc * 2 ^ 16)

/-- Whether completion bytes report a queue. -/
def cplOf (x : QRef) (c : List Byte) : Bool := le c 8 2 = x.q + b2n x.rx * 2 ^ 15

/-- Held completions leave the store for slots of their ring that are free, in order (R455). -/
def Datapath.holdRelease (d : Datapath) (r : Nat) : Datapath :=
  (List.range (min (d.ring r).held.length (d.ringFree r))).foldl (fun d _ =>
    match (d.ring r).held with
    | [] => d
    | h :: t => if d.ringRuns r then (d.setRing r { d.ring r with held := t }).ringWrite r h else d) d

/-- A read of a ring's consumer-index word is requested (R456). -/
def Datapath.ciRead (d : Datapath) (r : Nat) : Datapath :=
  let a := d.rd F.trgCqCiHi_ADDR r * 2 ^ 32 + d.rd F.trgCqCiLo_ADDR r * 8
  let t := d.rd F.trgCqCfg_TENANT r
  match d.ringPort r with
  | none => d
  | some k =>
    if !d.ringRuns r || (d.ring r).ciWait then d
    else if !d.windowOk t 15 a 4 then d.ringError r 2
    else
      (d.setRing r { d.ring r with ciWait := true }).srpWant k
        { r := 0, write := false, addr := a / 256 * 256, len := 1, tenant := t, kind := 2, owner := r, job := .ci r (a % 256) }

/-- An error response of a ring's request acts on the ring, on one already in ERROR again; only a DISABLED one is spared
(R456, R476). -/
def Datapath.ringMeets (d : Datapath) (r code : Nat) : Datapath :=
  if d.rd F.trgCqCtl_STATE r = QS.disabled then d else d.ringError r code

/-- A consumer-index read returned: the word, or none on an error (R434, R456). -/
def Datapath.ciResult (d : Datapath) (r : Nat) (w : Option Nat) : Datapath :=
  let d := d.setRing r { d.ring r with ciWait := false }
  match w with
  | some w =>
    if !d.ringRuns r then d
    else (d.wr F.trgCqStat_CI (w % 2 ^ 16) r).wr F.trgCqStat_CI_PHASE (w / 2 ^ 31) r
  | none => d.ringMeets r 8

/-- A completion write was answered with an error (R456, R476). -/
def Datapath.cplError (d : Datapath) (r : Nat) : Datapath := d.ringMeets r 7

/-! ## Unused descriptors (R458) -/

/-- The completion RX_UNUSED of a receive descriptor. -/
def unusedCpl (x : QRef) (e : Desc) : Cpl := { cookie := e.cookie, x := x, slot := e.slot, len := 0, status := 4 }

/-- The receive record of a queue's copy in writing. -/
def Datapath.rxRecOf (d : Datapath) (q : Nat) : Option (Nat × RxRec) := d.trg.rxRecs.find? (fun e => e.2.q = q)

/-- The ready descriptors of a receive queue are returned in ring order, as far as completions can be reserved; the
others wait (R454, R458). While a copy is in writing all wait: the descriptors set aside for it lie in front. -/
def Datapath.returnUnused (d : Datapath) (q : Nat) : Datapath :=
  let x : QRef := { rx := true, q := q }
  if (d.rxRecOf q).isSome then d
  else (d.qRt x).descs.foldl (fun (a : Datapath × Bool) e =>
    if a.2 then a
    else
      match a.1.qPort x with
      | none => (a.1, true)
      | some k =>
        match a.1.reserve k (a.1.qCq x) with
        | none => (a.1, true)
        | some (d, inRing) =>
          let d := d.setQRt x { d.qRt x with descs := (d.qRt x).descs.drop 1 }
          (d.placeFor x inRing 4 (unusedCpl x e).bytes, false)) (d, false) |>.1

/-- A queue enters ERROR with a code, and a receive queue returns its ready descriptors (R457). -/
def Datapath.queueFalls (d : Datapath) (x : QRef) (code : Nat) : Datapath :=
  let d := d.errState x code
  if x.rx then d.returnUnused x.q else d

/-- A queue that runs or stops fails with a code (R457). -/
def Datapath.queueError (d : Datapath) (x : QRef) (code : Nat) : Datapath :=
  if d.canFail x then d.queueFalls x code else d

/-- An error response of a queue's request acts on the queue (R476). -/
def Datapath.queueMeets (d : Datapath) (x : QRef) (code : Nat) : Datapath :=
  if d.canMeet x then d.queueFalls x code else d

/-! ## Ring commands (R456, R460) -/

/-- Whether a ring of 2^n slots may be enabled at a base for a tenant: its size, and one window that holds it all
(R458). -/
def Datapath.ringFits (d : Datapath) (t base n : Nat) : Bool := 3 ≤ n && n ≤ 16 && d.windowOk t 15 base (32 * 2 ^ n)

/-- A command or context write that does not apply (R457, R460, R461). -/
def Datapath.ctxRefused (d : Datapath) : Datapath := d.wr F.trgEvt_CTX_REFUSED 1

/-- ENABLE of a ring (R460). -/
def Datapath.ringEnable (d : Datapath) (r : Nat) : Datapath :=
  if d.rd F.trgCqCtl_STATE r ≠ QS.disabled then d.ctxRefused
  else if (d.ringPort r).isSome && d.ringFits (d.rd F.trgCqCfg_TENANT r) (d.ringBase r) (d.rd F.trgCqCfg_SIZE_LOG2 r) then
    let d := (d.wr F.trgCqCtl_STATE QS.running r).wr F.trgCqIdx_PI 0 r
    let d := (d.wr F.trgCqIdx_PHASE 1 r).wr F.trgCqStat_CI 0 r
    (d.wr F.trgCqStat_CI_PHASE 1 r).setRing r {}
  else d.ringError r 1

/-- DISABLE of a ring: taken only while no queue but DISABLED ones names it (R460). What is outstanding of it acts on it no
longer (R476). -/
def Datapath.ringDisable (d : Datapath) (r : Nat) : Datapath :=
  if d.liveQueues.any (fun x => d.qCq x = r) then d.ctxRefused
  else
    ((d.wr F.trgCqCtl_STATE QS.disabled r).setRing r {}).mapReqs (fun w => w.r = 0 && w.owner = r)
      (fun w => { w with orphan := true })

/-- KICK of a ring: its consumer-index word is read at once (R456). -/
def Datapath.ringKick (d : Datapath) (r : Nat) : Datapath := if d.ringRuns r then d.ciRead r else d.ctxRefused

/-- A command written to TRG_CQ_CTL_r. -/
def Datapath.ringCmd (d : Datapath) (r cmd : Nat) : Datapath :=
  match cmd with
  | 0 => d
  | 1 => d.ringEnable r
  | 3 => d.ringDisable r
  | 5 => d.ringKick r
  | _ => d.ctxRefused

/-! ## Commands -/

/-- HOLD_RELEASE of ring r (R455). -/
def execHoldRelease (r : Nat) (s : State) : Out := .next (s.onDp (fun d => d.holdRelease r))

/-- CI_POLL_EXPIRE of ring r: read while no slot is free (R435, R456). -/
def execCiPollExpire (r : Nat) (s : State) : Out :=
  .next (s.onDp (fun d => if d.ringRuns r && d.ringFree r = 0 then d.ciRead r else d))

/-- HOLD_FULL_EXPIRE of client pen 32 + k: a reservation has waited 1 µs on a full holding store (R454). -/
def execHoldFullExpire (k : Nat) (s : State) : Out :=
  .next (s.onDp (fun d => if 2048 ≤ d.holdUsed k then d.wr F.trgEvt_HOLD_FULL 1 else d))

/-- RING_ENABLE: a write of ENABLE to TRG_CQ_CTL_r (R460). -/
def execRingEnable (src : Src) (r : Nat) (s : State) : Out :=
  .next (s.regWrite src (Reg.trgCqCtl.addr r 0) (fun s => s.onDp (fun d => d.ringEnable r)))

/-- RING_DISABLE: a write of DISABLE to TRG_CQ_CTL_r (R460). -/
def execRingDisable (src : Src) (r : Nat) (s : State) : Out :=
  .next (s.regWrite src (Reg.trgCqCtl.addr r 0) (fun s => s.onDp (fun d => d.ringDisable r)))

/-- RING_KICK: a write of KICK to TRG_CQ_CTL_r (R456). -/
def execRingKick (src : Src) (r : Nat) (s : State) : Out :=
  .next (s.regWrite src (Reg.trgCqCtl.addr r 0) (fun s => s.onDp (fun d => d.ringKick r)))

end Sys2Proof.Machine
end

