-- ==== Sys2Proof/Machine/Troughs.lean ====
section
/-! DEFINITION. The trough engines (spec/14, with the digests of spec/18): polling, transmit fetches and their
completions, receive copies and their completions, the life cycle of queues, context writes. -/

namespace Sys2Proof.Machine

/-! ## Descriptors (R436 to R438) -/

/-- A descriptor slot as read. -/
def descOf (slot : Nat) (b : List Byte) : Desc :=
  { slot := slot, addr := le b 0 8, cookie := le b 8 8, launch := le b 16 8, dgOfs := le b 24 2,
    dgMode := (let m := le b 26 1 % 4; if m = 3 then 0 else m), len := le b 28 2 % 2 ^ 15, lt := bit (le b 30 1) 0,
    more := bit (le b 30 1) 1 }

/-- PHASE of a descriptor slot (R430). -/
def phaseOf (b : List Byte) : Nat := le b 31 1 / 128

/-- The first whole frame of the descriptors taken of a transmit queue, and the rest (R437). -/
def splitFrame : List Desc → Option (List Desc × List Desc)
  | [] => none
  | e :: t => if e.more then (splitFrame t).map (fun r => (e :: r.1, r.2)) else some ([e], t)

/-- The descriptors in front of the first chain of more than n descriptors, if there is one: `run` counts those of the
chain so far. -/
def longChain (n : Nat) : List Desc → List Desc → Nat → Option (List Desc)
  | _, [], _ => none
  | front, e :: t, run =>
    if n ≤ run then some (front.take (front.length - run))
    else longChain n (front ++ [e]) t (if e.more then run + 1 else 0)

/-! ## Polling (R441 to R444) -/

/-- Entries of a client pen's ready store that are taken: the ready descriptors of its receive queues, and 8 reserved for
each poll whose result is outstanding (R441, R467). -/
def Datapath.readyStore (d : Datapath) (k : Nat) : Nat :=
  Tab.sum d.trg.rxq (fun q v =>
    if d.qPort { rx := true, q := q } = some k then v.descs.length + (if v.waiting then 8 else 0) else 0)

/-- Whether a queue of client pen 32 + k is pollable (R441). -/
def Datapath.pollable (d : Datapath) (k : Nat) (x : QRef) : Bool :=
  let t := d.qRt x
  d.qPort x = some k && d.qSt x = QS.running && !t.waiting &&
    (if x.rx then t.descs.length < 8 && d.readyStore k + 8 ≤ 4096 else (splitFrame t.descs).isNone)

/-- A queue falls due (R442). -/
def Datapath.fallDue (d : Datapath) (x : QRef) : Datapath :=
  match d.qPort x with
  | some k =>
    let p := d.trgPen k
    if d.qSt x ≠ QS.running || p.due.contains x then d else d.setTrgPen k { p with due := p.due ++ [x] }
  | none => d

/-- POLL_CLASS of a queue. -/
def Datapath.pollClass (d : Datapath) (x : QRef) : Nat := d.rd (x.f F.trgTxqCfg_POLL_CLASS F.trgRxqCfg_POLL_CLASS) x.q

/-- The poll that a poll opportunity chooses among kicked, hot and due queues; `held` bars the transmit queues of a
held pen (R151, R442). -/
def Datapath.pollPick (d : Datapath) (k : Nat) (held : Bool) : Option (QRef × TrgPen) :=
  let p := d.trgPen k
  let ok (x : QRef) : Bool := d.pollable k x && (x.rx || !held)
  match p.kicks.find? ok, p.hot.find? ok, p.due.find? ok with
  | some x, _, _ => some (x, p)
  | none, some h, some u => if p.lastHot then some (u, { p with lastHot := false }) else some (h, { p with lastHot := true })
  | none, some h, none => some (h, { p with lastHot := true })
  | none, none, some u => some (u, { p with lastHot := false })
  | none, none, none => none

/-- A poll opportunity of client pen 32 + k (R442); `late` tells that the chosen queue fell due more than one interval
ago (R444). -/
def Datapath.pollIssue (d : Datapath) (k : Nat) (late held : Bool) : Datapath :=
  match d.pollPick k held with
  | none => d
  | some (x, p) =>
    let hot := if p.hot.contains x then p.hot.filter (· ≠ x) ++ [x] else p.hot
    let wasDue := p.due.contains x
    let d := d.setTrgPen k { p with kicks := p.kicks.filter (· ≠ x), due := p.due.filter (· ≠ x), hot := hot }
    let d := if late && wasDue then (d.wr F.trgEvt_POLL_LATE 1).count F.trgPollLate_LATE 1 (d.pollClass x) else d
    let a := d.qBase x + d.qFetch x / 8 * 256
    if !d.windowOk (d.qTenant x) 15 a 256 then d.queueError x 2
    else
      (d.setQRt x { d.qRt x with waiting := true }).pmnEvent 0x14 (32 + k) |>.srpWant k
        { r := if x.rx then 1 else 2, write := false, addr := a, len := 1, tenant := d.qTenant x, kind := 1, owner := x.q,
          job := .poll x.rx x.q }

/-- The valid slots of a beat from FETCH on, at most n of them: the descriptors taken, FETCH and phase after them
(R432, R441). -/
def takeSlots (size : Nat) (beat : List Byte) : Nat → Nat → Nat → List Desc × Nat × Nat
  | 0, i, ph => ([], i, ph)
  | n + 1, i, ph =>
    let b := slice beat (32 * (i % 8)) 32
    if phaseOf b ≠ ph then ([], i, ph)
    else
      let i' := if i + 1 = size then 0 else i + 1
      let ph' := if i + 1 = size then 1 - ph else ph
      if i % 8 = 7 then ([descOf i b], i', ph')
      else
        let r := takeSlots size beat n i' ph'
        (descOf i b :: r.1, r.2.1, r.2.2)

/-- A hit: the queue enters the hot list if a place is free (R443). -/
def Datapath.enterHot (d : Datapath) (k : Nat) (x : QRef) : Datapath :=
  let p := d.trgPen k
  if p.hot.contains x || 512 ≤ p.hot.length then d else d.setTrgPen k { p with hot := p.hot ++ [x] }

/-- A poll's beat is taken (R437, R441, R443, R458). -/
def Datapath.pollTake (d : Datapath) (k : Nat) (x : QRef) (beat : List Byte) : Datapath :=
  let t := d.qRt x
  let d := d.setQRt x { t with waiting := false }
  if d.qSt x ≠ QS.running then d
  else
    let r := takeSlots (2 ^ d.qLog x) beat (if x.rx then 8 - t.descs.length else 8) (d.qFetch x) (d.qPhase x)
    if r.1 = [] then d
    else
      let d := ((d.setFetch x r.2.1 r.2.2).enterHot k x).pmnEvent 0x15 (32 + k)
      if x.rx then
        let good := r.1.takeWhile (fun e => 64 ≤ e.len)
        let d := d.setQRt x { d.qRt x with descs := t.descs ++ good }
        if good.length = r.1.length then d else d.queueError x 3
      else
        match longChain 8 [] (t.descs ++ r.1) 0 with
        | some front => (d.setQRt x { d.qRt x with descs := front }).queueError x 3
        | none => d.setQRt x { d.qRt x with descs := t.descs ++ r.1 }

/-- The oldest poll beat that came back to client pen 32 + k is taken. -/
def Datapath.pollResult (d : Datapath) (k : Nat) : Datapath :=
  let p := d.trgPen k
  match p.polls with
  | [] => d
  | (x, beat) :: t => (d.setTrgPen k { p with polls := t }).pollTake k x beat

/-- A poll's read returned: its beat waits to be taken, unless the queue has left RUNNING since. On an error the queue,
running or stopping, fails (R457, R476). -/
def Datapath.pollReturn (d : Datapath) (k : Nat) (x : QRef) (untaken : Bool) (beat : Option (List Byte)) : Datapath :=
  match beat with
  | some b => if untaken then d else d.setTrgPen k { d.trgPen k with polls := (d.trgPen k).polls ++ [(x, b)] }
  | none => (if untaken then d else d.setQRt x { d.qRt x with waiting := false }).queueMeets x 4

/-- HOT_IDLE passed since a queue's last hit: it leaves the hot list and falls due (R443). -/
def Datapath.hotIdle (d : Datapath) (x : QRef) : Datapath :=
  match d.qPort x with
  | some k =>
    let p := d.trgPen k
    if p.hot.contains x then (d.setTrgPen k { p with hot := p.hot.filter (· ≠ x) }).fallDue x else d
  | none => d

/-! ## Transmit (R445 to R447) -/

/-- The pieces of a buffer that lie in one 4 KiB page each: address and length (R64). -/
def pieces (a n : Nat) : List (Nat × Nat) :=
  if n = 0 then []
  else
    (List.range ((a + n - 1) / 4096 - a / 4096 + 1)).map (fun i =>
      let lo := max a ((a / 4096 + i) * 4096)
      (lo, min (a + n) ((a / 4096 + i + 1) * 4096) - lo))

/-- The digest of client pen 32 + k (R540). -/
def digest (crc32' : Bool) (b : List Byte) : Nat := if crc32' then crc32 b else crc32c b

/-- A transmit frame taken: its data length D before padding, and what the checks of R446 make of it (none: fetched). -/
def Datapath.txCheck (d : Datapath) (q : Nat) (fr : List Desc) : Nat × Option Nat :=
  let x : QRef := { rx := false, q := q }
  let n := (fr.map (fun e => e.len)).foldl (· + ·) 0
  let dl := n + (if (fr.head?.map (fun e => e.dgMode)) = some 2 then 4 else 0)
  let code :=
    if fr.any (fun e => e.len = 0) then some 0x12
    else if fr.any (fun e => !d.windowOk (d.qTenant x) (d.qBufWin x) e.addr e.len) then some 0x13
    else if d.rd F.trgTxqCfg2_MAX_LEN q - 4 < dl then some 0x11
    else if dl < 60 && !d.flag F.trgTxqCfg_PAD q then some 0x10
    else none
  (dl, code)

/-- The transmit queues of client pen 32 + k whose taken frames may be fetched, in round robin order (R445, R457). -/
def Datapath.txTurns (d : Datapath) (k : Nat) : List Nat :=
  let qs := d.liveQueues.filterMap (fun x =>
    if !x.rx && d.qPort x = some k && d.qSt x ≠ QS.stopped then some x.q else none)
  let last := (d.trgPen k).rrLast
  qs.filter (fun q => last < q) ++ qs.filter (fun q => q ≤ last)

/-- Whether transmit staging of a client pen has an entry and room for a frame of n bytes (R445). -/
def Datapath.txRoom (d : Datapath) (k n : Nat) : Bool :=
  (d.stagedOf (32 + k)).length < 256 && d.stagedBytes (32 + k) + 256 * ceilDiv n 256 ≤ 262144

/-- The data reads of a frame's descriptors (R64, R445). -/
def txReads (q tenant rec' : Nat) : Nat → List Desc → List SReq
  | _, [] => []
  | ofs, e :: t =>
    (pieces e.addr e.len).map (fun p =>
      { r := 4, write := false, addr := p.1 / 256 * 256, len := ceilDiv (p.1 % 256 + p.2) 256, tenant := tenant, kind := 0,
        owner := q, job := .txData rec' (ofs + (p.1 - e.addr)) (p.1 % 256) p.2 }) ++
    txReads q tenant rec' (ofs + e.len) t

/-- The next frame of a transmit queue is started, if it can be: its completion is reserved, it is checked, and its
data reads are formed (R445, R446, R454). -/
def Datapath.txStart (d : Datapath) (k q : Nat) : Option Datapath :=
  let x : QRef := { rx := false, q := q }
  match splitFrame (d.qRt x).descs with
  | none => none
  | some (fr, rest) =>
    let c := d.txCheck q fr
    let dl := if c.2.isNone then max c.1 60 else c.1
    if c.2.isNone && !d.txRoom k dl then none
    else
      match d.reserve k (d.qCq x) with
      | none => none
      | some (d, inRing) =>
        let e := fr.headD { slot := 0, addr := 0, cookie := 0, len := 0 }
        let n := d.trg.nextRec
        let d := d.setQRt x { d.qRt x with descs := rest }
        let d := d.setTrgPen k { d.trgPen k with rrLast := q }
        let r : TxRec := { q := q, pen := 32 + k, slot := e.slot, cookie := e.cookie, dlen := dl,
                           fetchLen := (fr.map (fun e => e.len)).foldl (· + ·) 0, ndesc := fr.length, lt := e.lt,
                           dgMode := e.dgMode, dgOfs := e.dgOfs, code := c.2, crc32 := d.rdBit F.cvuDgCfg_CRC32 k,
                           inRing := inRing }
        let put (d : Datapath) (r : TxRec) : Datapath :=
          { d with trg := { d.trg with txRecs := Tab.set d.trg.txRecs n r, nextRec := n + 1 } }
        match c.2 with
        | some code =>
          let d := (put d r).tallyAdd (512 + k) T.TX_REJECT
          some (if code = 0x13 then d.queueError x 2 else d)
        | none =>
          let t : TxInfo := { txq := q, slot := e.slot, tenant := d.qTenant x, txRec := n,
                              launch := if e.lt then some (timeOfCompact e.launch) else none }
          let f := d.newFrame { pen := 32 + k, port := 512 + k, inPen := 32 + k, staged := true, resv := 256 * ceilDiv dl 256,
                                len := dl, tx := some t, info := { port := 512 + k } }
          some ((txReads q (d.qTenant x) n 0 fr).foldl (fun d a => d.srpWant k a) (put f.1 { r with fid := some f.2 }))

/-- A fetch opportunity of client pen 32 + k (R445). -/
def Datapath.txFetch (d : Datapath) (k : Nat) : Datapath := ((d.txTurns k).findSome? (fun q => d.txStart k q)).getD d

/-- The data fetched from byte 0 on without a gap. -/
def joinParts (ps : List (Nat × List Byte)) : List Byte :=
  ps.foldl (fun acc _ =>
    match ps.find? (fun p => p.1 = acc.length) with
    | some p => acc ++ p.2
    | none => acc) []

/-- Whether the fetch of a transmit frame is complete: rejected, failed or fetched whole. -/
def TxRec.fetched (r : TxRec) : Bool := r.code.isSome || (joinParts r.parts).length = r.fetchLen

/-- The frames of a transmit queue become ready for a parse in descriptor order: 256 bytes or the end are there (R234,
R445). A frame is stamped and counted as it becomes ready (R571). -/
def Datapath.txReady (d : Datapath) (q : Nat) : Datapath :=
  (d.trg.txRecs.filter (fun e => e.2.q = q)).foldl (fun (a : Datapath × Bool) e =>
    if a.2 then a
    else
      match e.2.fid with
      | none => a
      | some f =>
        match a.1.frame f with
        | none => a
        | some x =>
          if x.ready then a
          else if !x.ended && x.bytes.length < 256 then (a.1, true)
          else
            let p := x.port
            let d := a.1.setFrame f { x with rxTs := a.1.rxTime p, rxHold := a.1.holdover (a.1.pmTb p) }
            (((d.tallyAdd p T.RX_OK).tallyRx p (e.2.dlen + 4) x.bytes).makeReady f, false)) (d, false) |>.1

/-- A frame whose end is known and whose sectors have all been stored leaves staging (R215). -/
def Datapath.stageDone (d : Datapath) (f : Nat) : Datapath :=
  d.modFrame f (fun x => if x.admitted && x.allWritten then { x with staged := false, resv := 0 } else x)

/-- The data of a transmit frame after its digest and padding (R446, R541). -/
def TxRec.whole (r : TxRec) (b : List Byte) : List Byte :=
  let b := if r.dgMode = 2 then b ++ leBytes 4 (digest r.crc32 (b.drop r.dgOfs)) else b
  b ++ List.replicate (60 - b.length) 0

/-- Data of a transmit frame has been read: its frame takes what lies at its front, and ends when all is there. -/
def Datapath.txData (d : Datapath) (n ofs : Nat) (bytes : List Byte) : Datapath :=
  match Tab.find d.trg.txRecs n with
  | none => d
  | some r =>
    if r.code.isSome then d
    else
      let r := { r with parts := r.parts ++ [(ofs, bytes)] }
      let b := joinParts r.parts
      let all := b.length = r.fetchLen
      let r := if all && r.dgMode ≠ 0 then { r with aux := digest r.crc32 (b.drop r.dgOfs) } else r
      let d := { d with trg := { d.trg with txRecs := Tab.set d.trg.txRecs n r } }
      let data := if all then r.whole b else b
      match r.fid with
      | none => d
      | some f =>
        let d := d.modFrame f (fun y => { y with bytes := stripBytes y.strip data, ended := all, len := r.dlen })
        let d := if all then (d.fillSamples f data RC.none).stageDone f else d
        d.txReady r.q

/-- A data read of a transmit frame failed: the frame takes class CUT at the data in front of it (R446). -/
def Datapath.txFail (d : Datapath) (n : Nat) : Datapath :=
  match Tab.find d.trg.txRecs n with
  | none => d
  | some r =>
    if r.code.isSome then d
    else
      let data := joinParts r.parts
      let d := { d with trg := { d.trg with txRecs := Tab.set d.trg.txRecs n { r with code := some 0x14 } } }
      match r.fid with
      | none => d
      | some f =>
        let d := d.modFrame f (fun y => { y with bytes := stripBytes y.strip data, ended := true, len := data.length, rxErr := RC.cut })
        ((d.fillSamples f data RC.cut).stageDone f).txReady r.q

/-- Whether a frame inside the block carries a transmit record. -/
def Frame.carries (x : Frame) (n : Nat) : Bool := x.tx.any (fun t => t.txRec = n)

/-- Whether the completion of a transmit record is to be placed (R378, R447). A copy to a loop pen counts as started once its next
pass exists, which carries the record on. Samples carry no record. -/
def Datapath.txPoint (d : Datapath) (n : Nat) (r : TxRec) : Bool :=
  let fs := d.frames.filter (fun e => e.2.carries n)
  if r.code.any (fun c => c ≠ 0x14) then true
  else if !r.fetched then false
  else if d.flag F.trgTxqCfg_CPL_LATE r.q then
    fs = [] && d.tx.all (fun e => !(e.2.tail.any (fun t => t.txRec = some n)))
  else if r.lt then fs.all (fun e => e.2.admitted && (d.copiesOf e.1).all (fun c => c.2.started || (isLoop (portOfQ c.2.q) && c.2.nextFid.isSome)))
  else
    match r.fid.bind (fun f => d.frame f) with
    | some x => x.admitted && x.allWritten
    | none => true

/-- STATUS of a transmit completion (R447). -/
def Datapath.txStatus (d : Datapath) (r : TxRec) : Nat :=
  match r.code with
  | some c => c
  | none =>
    if !r.admitted then 0x15
    else if r.ltDrop then 0x16
    else
      match d.flag F.trgTxqCfg_CPL_LATE r.q, r.worst with
      | true, some w => 0x16 + w
      | _, _ => 0

/-- The completion of transmit record n is placed (R439, R447). -/
def Datapath.txPlace (d : Datapath) (n : Nat) : Datapath :=
  match Tab.find d.trg.txRecs n with
  | none => d
  | some r =>
    if !d.txPoint n r then d
    else
      let x : QRef := { rx := false, q := r.q }
      let st := d.txStatus r
      let c : Cpl := { cookie := r.cookie, x := x, slot := r.slot,
                       len := if r.dlen < 2 ^ 15 then r.dlen else (Config.wideLen r.dlen).toNat,
                       aux := if r.code.isSome then 0 else r.aux, status := st, late := r.late, ndesc := r.ndesc, tc := r.tc }
      let d := { d with trg := { d.trg with txRecs := Tab.erase d.trg.txRecs n } }
      (d.placeFor x r.inRing st c.bytes).txReady r.q

/-! ## Receive (R450 to R453) -/

/-- The shortest front of descriptors whose buffers hold n bytes, at least one; all of them where they do not. -/
def covering : Nat → List Desc → List Desc
  | _, [] => []
  | n, e :: t => if n ≤ e.len then [e] else e :: covering (n - e.len) t

/-- The bytes that buffers hold. -/
def bufBytes (l : List Desc) : Nat := (l.map (fun e => e.len)).foldl (· + ·) 0

/-- The first copy of a receive queue's list starts to be written, before its last sector is stored only under R356 (R450,
R451, R454), nor before its template lets it begin (R319, R320). -/
def Datapath.rxStartCopy (d : Datapath) (q : Nat) : Datapath :=
  let x : QRef := { rx := true, q := q }
  match d.rxRecOf q, (d.rxList q).head?, d.qPort x with
  | none, some (cid, c), some k =>
    match d.frame c.fid with
    | none => d
    | some fr =>
      let ds := (d.qRt x).descs
      let n := if fr.ended then d.loutOf c fr else 16384
      let covered := ds ≠ [] && (n ≤ bufBytes ds || (fr.ended && ds.length = 8))
      let bad := fr.ended && fr.rxErr ≠ RC.none && !d.flag F.trgRxqCfg_DELIVER_BAD q
      if c.started || bad || !covered || !d.mayStart c fr || !d.tplReady c fr then d
      else
        let c := { c with started := true, tplData := (c.tpl.map d.line).getD [] }
        match d.outBytes c fr with
        | none => (d.tallyAdd (portOfQ c.q) T.TTL_EXPIRED).endCopy cid
        | some _ =>
          match d.reserve k (d.qCq x) with
          | none => d
          | some (d, inRing) =>
            let use := covering n ds
            let r : RxRec := { q := q, cid := cid, descs := use, crc32 := d.rdBit F.cvuDgCfg_CRC32 k, inRing := inRing }
            { d.setCopy cid c with trg := { d.trg with
                rxRecs := Tab.set d.trg.rxRecs d.trg.nextRec r, nextRec := d.trg.nextRec + 1 } }
  | _, _, _ => d

/-- The data writes of a receive copy: buffers in order, each filled before the next (R450). -/
def rxWrites (q tenant rec' : Nat) : List Byte → List Desc → List SReq
  | _, [] => []
  | b, e :: t =>
    let m := b.take e.len
    (pieces e.addr m.length).map (fun p =>
      { r := 3, write := true, addr := p.1 / 256 * 256, len := ceilDiv (p.1 % 256 + p.2) 256, tenant := tenant, kind := 0,
        owner := q, job := .rxData rec', lo := p.1 % 256, data := (m.drop (p.1 - e.addr)).take p.2 }) ++
    rxWrites q tenant rec' (b.drop e.len) t

/-- A copy of a client port has been read to its end (R368): it is charged, and its data goes to its buffers (R450,
R451). Buffers it does not need stay with its queue. -/
def Datapath.clientCopyEnd (d : Datapath) (p : Nat) : Datapath :=
  match d.inService p true with
  | none => d
  | some (cid, c) =>
    match d.frame c.fid, d.trg.rxRecs.find? (fun e => e.2.cid = cid) with
    | some fr, some (n, r) =>
      if !readAll c fr || r.read then d
      else
        let x : QRef := { rx := true, q := r.q }
        let k := p - 512
        let out := (d.outBytes c fr).getD []
        let d := (d.charge c.q out.length).pmnRead p fr
        let d := d.setCopy cid { c with away := true }
        let data := out.take (bufBytes r.descs)
        let use := covering data.length r.descs
        let reqs := rxWrites r.q (d.qTenant x) n data use
        let good := reqs.takeWhile (fun w => d.windowOk (d.qTenant x) (d.qBufWin x) (w.addr + w.lo) w.data.length)
        let bad := fr.rxErr ≠ RC.none
        let deliver := d.flag F.trgRxqCfg_DELIVER_BAD r.q
        let status :=
          if r.status ≠ 0 || good.length ≠ reqs.length then 5
          else if bad && !deliver then 3
          else if data.length < out.length && (!bad || Config.truncWins fr.rxErr out.length) then 2
          else if bad then 1
          else 0
        let aux := if status = 3 || status = 5 then 0
                   else if d.flag F.trgRxqCfg_DG_RX r.q then digest r.crc32 data
                   else c.hash
        let r : RxRec := { r with descs := use, left := good.length, read := true, len := if status = 3 then 0 else data.length,
                                  status := status, rxErr := fr.rxErr, sample := c.kind = 1, tc := tcOfQ c.q, port := fr.port,
                                  stamp := (fr.rxTs.map Time.compact).getD 0, aux := aux, ndesc := use.length }
        let d := { d with trg := { d.trg with rxRecs := Tab.set d.trg.rxRecs n r } }
        let d := good.foldl (fun d w => d.srpWant k w) d
        if good.length = reqs.length then d else d.queueError x 2
    | _, _ => d

/-- A data write of a receive queue failed (R452). -/
def Datapath.rxWriteError (d : Datapath) (q n : Nat) : Datapath :=
  let d := match Tab.find d.trg.rxRecs n with
    | some r => { d with trg := { d.trg with rxRecs := Tab.set d.trg.rxRecs n { r with status := 5, aux := 0 } } }
    | none => d
  d.queueMeets { rx := true, q := q } 5

/-- The written copy of a receive queue completes (R453): its descriptors are used, its completion is placed, its copy ends
(R294). Ready descriptors of a queue that left RUNNING are returned once no copy is in writing (R458). -/
def Datapath.rxPlace (d : Datapath) (q : Nat) : Datapath :=
  let x : QRef := { rx := true, q := q }
  match d.rxRecOf q with
  | some (n, r) =>
    if !r.read || r.left ≠ 0 then d
    else
      let e := r.descs.headD { slot := 0, addr := 0, cookie := 0, len := 0 }
      let c : Cpl := { cookie := e.cookie, x := x, slot := e.slot, len := r.len, port := r.port, stamp := r.stamp, aux := r.aux,
                       status := r.status, rxErr := r.rxErr, sample := r.sample, ndesc := r.ndesc, tc := r.tc }
      let d := { d with trg := { d.trg with rxRecs := Tab.erase d.trg.rxRecs n } }
      let d := if r.own then d.setQRt x { d.qRt x with descs := (d.qRt x).descs.drop r.descs.length } else d
      let d := d.placeFor x r.inRing r.status c.bytes
      let d := match d.copy r.cid with
        | none => d
        | some y =>
          let p := portOfQ y.q
          let d := if r.status = 0 then
              (d.tallyAdd p T.TX_OK).tallyTx p (r.len + 4) (((d.frame y.fid).bind (fun fr => d.outBytes y fr)).getD [])
            else d
          d.endCopy r.cid
      if d.qSt x = QS.running then d else d.returnUnused q
  | none => if d.qSt x = QS.running then d else d.returnUnused q

/-! ## The end of a copy on a loop port -/

/-- A copy of a loop port has been read to its end (R368): it is charged and counted, and the frame of the next pass has
all its bytes (R234, R571). -/
def Datapath.loopCopyEnd (d : Datapath) (p : Nat) : Datapath :=
  match d.inService p true with
  | none => d
  | some (cid, c) =>
    match d.frame c.fid with
    | none => d
    | some x =>
      if !readAll c x then d
      else
        let out := (d.outBytes c x).getD []
        let d := (d.charge c.q out.length).pmnRead p x
        let d := (d.tallyAdd p T.TX_OK).tallyTx p (out.length + 4) out
        let d := d.loopFeed cid
        let d := match (d.copy cid).bind (fun c => c.nextFid), c.next with
          | some f, some info =>
            let begun := match d.frame f with
              | some y => y.ready && !(d.readyOf y.inPen).contains f
              | none => true
            let d := d.modFrame f (fun y => { y with
              bytes := stripBytes y.strip out, ended := true, len := out.length, rxErr := x.rxErr })
            let d := ((d.fillSamples f out x.rxErr).makeReady f).stageDone f
            if begun then d.tallyLoopPass { x with info := info, bytes := out } else d
          | _, _ => d
        d.endCopy cid

/-- COPY_END on a port: line, client or loop. -/
def Datapath.copyEnd (d : Datapath) (p : Nat) (express : Bool) : Datapath :=
  if isLine p then d.lineCopyEnd p express else if isClient p then d.clientCopyEnd p else if isLoop p then d.loopCopyEnd p else d

/-! ## Life cycle (R457 to R459) -/

/-- Whether the checks of ENABLE pass (R458). -/
def Datapath.queueOk (d : Datapath) (x : QRef) : Bool :=
  let r := d.qCq x
  (d.qPort x).isSome && d.ringFits (d.qTenant x) (d.qBase x) (d.qLog x) && d.ringRuns r && d.ringPort r = d.qPort x &&
    d.rd F.trgCqCfg_TENANT r = d.qTenant x &&
    (x.rx || (64 ≤ d.rd F.trgTxqCfg2_MAX_LEN x.q && d.rd F.trgTxqCfg2_MAX_LEN x.q ≤ 16384))

/-- ENABLE of a queue. -/
def Datapath.queueEnable (d : Datapath) (x : QRef) : Datapath :=
  if d.qSt x = QS.stopped then (d.setQSt x QS.running).fallDue x
  else if d.qSt x ≠ QS.disabled then d.ctxRefused
  else if d.queueOk x then ((d.setFetch x 0 1).setQSt x QS.running).fallDue x
  else ((d.setQSt x QS.error).wr (x.f F.trgTxqCtl_ERR F.trgRxqCtl_ERR) 1 x.q).wr F.trgEvt_QUEUE_ERR 1

/-- STOP of a queue. -/
def Datapath.queueStop (d : Datapath) (x : QRef) : Datapath :=
  if d.qSt x ≠ QS.running then d.ctxRefused
  else
    let d := (d.setQSt x QS.stopping).stopPolls x
    if x.rx then d.returnUnused x.q else d

/-- DISABLE of a queue. Errors of what is outstanding of it act on it no longer (R476). -/
def Datapath.queueDisable (d : Datapath) (x : QRef) : Datapath :=
  if d.qSt x = QS.stopped || d.qSt x = QS.error then
    let d := ((d.setQSt x QS.disabled).setFetch x 0 0).stopPolls x
    let d := (d.setQRt x { d.qRt x with descs := [] }).mapReqs (SReq.ofQueue x) (fun w => { w with orphan := true })
    { d with trg := { d.trg with rxRecs := d.trg.rxRecs.map (fun e =>
        (e.1, { e.2 with own := e.2.own && !(x.rx && e.2.q = x.q) })) } }
  else d.ctxRefused

/-- FLUSH of a receive queue: the copies of its list whose writing has not started are removed. -/
def Datapath.queueFlush (d : Datapath) (x : QRef) : Datapath :=
  if !x.rx || (d.qSt x ≠ QS.stopping && d.qSt x ≠ QS.error) then d.ctxRefused
  else
    ((d.rxList x.q).filter (fun c => c.2.notBegun)).foldl (fun d c =>
      (d.tallyAdd (portOfQ c.2.q) T.RXQ_FLUSH).endCopy c.1) d

/-- KICK of a queue. -/
def Datapath.queueKick (d : Datapath) (x : QRef) : Datapath :=
  if d.qSt x ≠ QS.running then d.ctxRefused
  else
    match d.qPort x with
    | some k =>
      let p := d.trgPen k
      d.setTrgPen k { p with kicks := if p.kicks.contains x then p.kicks else p.kicks ++ [x] }
    | none => d

/-- A command written to CMD of a queue's CTL register. -/
def Datapath.queueCmd (d : Datapath) (x : QRef) (cmd : Nat) : Datapath :=
  match cmd with
  | 0 => d
  | 1 => d.queueEnable x
  | 2 => d.queueStop x
  | 3 => d.queueDisable x
  | 4 => d.queueFlush x
  | 5 => d.queueKick x
  | _ => d.ctxRefused

/-- Whether the store-room port of a queue holds a request that a test selects, up to its response. -/
def Datapath.portAny (d : Datapath) (x : QRef) (sel : SReq → Bool) : Bool :=
  match d.qPort x with
  | some k => (d.srp k).anyReq sel
  | none => false

/-- Whether completions of a queue wait: in the holding store, or in completion writes that have not been answered. -/
def Datapath.owes (d : Datapath) (x : QRef) : Bool :=
  let r := d.qCq x
  (d.ring r).held.any (cplOf x) ||
    d.portAny x (fun w =>
      w.job = .cpl r && (List.range (w.data.length / 32)).any (fun i => cplOf x (slice w.data (32 * i) 32)))

/-- Whether a queue is drained (R459). -/
def Datapath.drained (d : Datapath) (x : QRef) : Bool :=
  !d.owes x && !d.portAny x (fun w => w.ofQueue x && (w.r = 3 || w.r = 4)) &&
    (if x.rx then (d.rxRecOf x.q).isNone && (d.rxList x.q).isEmpty && (d.qRt x).descs.isEmpty
     else (splitFrame (d.qRt x).descs).isNone && !d.trg.txRecs.any (fun e => e.2.q = x.q))

/-- A STOPPING queue whose work has drained enters STOPPED (R457, R459). -/
def Datapath.queueDrained (d : Datapath) (x : QRef) : Datapath :=
  if d.qSt x = QS.stopping && d.drained x then d.setQSt x QS.stopped else d

/-! ## Context writes (R461) -/

/-- A context register takes a write; while its owner is not DISABLED only the bits of `mask` change, and a write that
would change another bit sets CTX_REFUSED (R461). -/
def Datapath.writeCtx (d : Datapath) (r : Reg) (i : Nat) (st mask : Nat) (be : BitVec 4) (data : Word) : Datapath :=
  if st = QS.disabled then d.writeReg r false be data i
  else
    let old := RegFile.word d.regs r i 0
    let new := r.writeWord false be data old
    let w := BitVec.ofNat 32 ((old.toNat &&& (0xFFFFFFFF ^^^ mask)) ||| (new.toNat &&& mask))
    let d := { d with regs := RegFile.setWord d.regs r i 0 w }
    if w = new then d else d.ctxRefused

/-- A write of a register of the TRG contexts: commands, context fields, counters (R457, R460, R461). -/
def Datapath.writeTrgCtx (d : Datapath) (r : Reg) (i : Nat) (be : BitVec 4) (data : Word) : Datapath :=
  let t : QRef := { rx := false, q := i }
  let x : QRef := { rx := true, q := i }
  match r with
  | .trgTxqCtl => d.queueCmd t (F.trgTxqCtl_CMD.wo be data)
  | .trgRxqCtl => d.queueCmd x (F.trgRxqCtl_CMD.wo be data)
  | .trgCqCtl => d.ringCmd i (F.trgCqCtl_CMD.wo be data)
  | .trgTxqBaseLo => d.writeCtx r i (d.qSt t) 0 be data
  | .trgTxqBaseHi => d.writeCtx r i (d.qSt t) 0 be data
  | .trgTxqCfg => d.writeCtx r i (d.qSt t) 0xE000 be data
  | .trgTxqCfg2 => d.writeCtx r i (d.qSt t) 0 be data
  | .trgRxqBaseLo => d.writeCtx r i (d.qSt x) 0 be data
  | .trgRxqBaseHi => d.writeCtx r i (d.qSt x) 0 be data
  | .trgRxqCfg => d.writeCtx r i (d.qSt x) 0xEF00 be data
  | .trgRxqCfg2 => d.writeCtx r i (d.qSt x) 0xFF000000 be data
  | .trgRxqLimit => d.writeCtx r i (d.qSt x) 0xFFFFF be data
  | .trgCqBaseLo => d.writeCtx r i (d.rd F.trgCqCtl_STATE i) 0 be data
  | .trgCqBaseHi => d.writeCtx r i (d.rd F.trgCqCtl_STATE i) 0 be data
  | .trgCqCfg => d.writeCtx r i (d.rd F.trgCqCtl_STATE i) 0 be data
  | .trgCqCiLo => d.writeCtx r i (d.rd F.trgCqCtl_STATE i) 0 be data
  | .trgCqCiHi => d.writeCtx r i (d.rd F.trgCqCtl_STATE i) 0 be data
  | r => d.writeReg r false be data i

/-- Whether a register is a field of a queue or ring context. -/
def isCtx (r : Reg) : Bool :=
  match r with
  | .trgTxqBaseLo => true | .trgTxqBaseHi => true | .trgTxqCfg => true | .trgTxqCfg2 => true
  | .trgRxqBaseLo => true | .trgRxqBaseHi => true | .trgRxqCfg => true | .trgRxqCfg2 => true | .trgRxqLimit => true
  | .trgCqBaseLo => true | .trgCqBaseHi => true | .trgCqCfg => true | .trgCqCiLo => true | .trgCqCiHi => true
  | _ => false

/-- The words of the computed TRG registers: READY of a receive queue (0 on a transmit queue), USE, FULL and HELD of a ring, the pens' lists (R464, R465). -/
def Datapath.rxIdxWord (d : Datapath) (q : Nat) : Word :=
  putBits (RegFile.word d.regs .trgRxqIdx q 0) 19 16 (d.rxRt q).descs.length
def Datapath.rxUseWord (d : Datapath) (q : Nat) : Word := BitVec.ofNat 32 (d.useRx q % 2 ^ 20)
def Datapath.cqStatWord (d : Datapath) (r : Nat) : Word :=
  let g := d.ring r
  putBits (putBits (RegFile.word d.regs .trgCqStat r 0) 31 31 (b2n (g.held ≠ []))) 27 16 g.held.length
def Datapath.trgPenWord (d : Datapath) (k : Nat) : Word :=
  BitVec.ofNat 32 ((d.trgPen k).hot.length * 2 ^ 22 +
    Tab.sum d.trg.rings (fun r g => if d.ringPort r = some k then g.held.length else 0))

/-! ## Commands -/

/-- COPY_END on port p (R368): the copy in service in its express or preemptable stream has been read to its end. -/
def execCopyEnd (p : Nat) (express : Bool) (s : State) : Out := .next (s.onDp (fun d => d.copyEnd p express))

/-- POLL_DUE of a queue (R442). -/
def execPollDue (rx : Bool) (q : Nat) (s : State) : Out := .next (s.onDp (fun d => d.fallDue { rx := rx, q := q }))

/-- POLL_ISSUE by client pen 32 + k (R442); none while intake is stopped (R602). -/
def execPollIssue (k : Nat) (late : Bool) (s : State) : Out :=
  .next (if s.quiet then s else s.onDp (fun d => d.pollIssue k late (s.penHeld (32 + k))))

/-- POLL_RESULT on client pen 32 + k (R441). -/
def execPollResult (k : Nat) (s : State) : Out := .next (s.onDp (fun d => d.pollResult k))

/-- HOT_IDLE_EXPIRE of a queue (R443). -/
def execHotIdleExpire (rx : Bool) (q : Nat) (s : State) : Out := .next (s.onDp (fun d => d.hotIdle { rx := rx, q := q }))

/-- TX_FETCH_START by client pen 32 + k (R445). -/
def execTxFetchStart (k : Nat) (s : State) : Out := .next (s.onDp (fun d => d.txFetch k))

/-- TX_COMPLETION_PLACE of transmit record n (R447). -/
def execTxCompletionPlace (n : Nat) (s : State) : Out := .next (s.onDp (fun d => d.txPlace n))

/-- RX_COPY_WRITE_START by receive queue q (R450). -/
def execRxCopyWriteStart (q : Nat) (s : State) : Out := .next (s.onDp (fun d => d.rxStartCopy q))

/-- RX_COMPLETION_PLACE by receive queue q (R453). -/
def execRxCompletionPlace (q : Nat) (s : State) : Out := .next (s.onDp (fun d => d.rxPlace q))

/-- A write of a command to a queue's CTL register. -/
def State.queueWrite (s : State) (src : Src) (rx : Bool) (q : Nat) (f : Datapath → QRef → Datapath) : State :=
  s.regWrite src ((if rx then Reg.trgRxqCtl else Reg.trgTxqCtl).addr q 0) (fun s => s.onDp (fun d => f d { rx := rx, q := q }))

/-- QUEUE_ENABLE (R458). -/
def execQueueEnable (src : Src) (rx : Bool) (q : Nat) (s : State) : Out := .next (s.queueWrite src rx q Datapath.queueEnable)

/-- QUEUE_STOP (R457). -/
def execQueueStop (src : Src) (rx : Bool) (q : Nat) (s : State) : Out := .next (s.queueWrite src rx q Datapath.queueStop)

/-- QUEUE_DISABLE (R457). -/
def execQueueDisable (src : Src) (rx : Bool) (q : Nat) (s : State) : Out := .next (s.queueWrite src rx q Datapath.queueDisable)

/-- QUEUE_FLUSH (R457); on a transmit queue the command has no row. -/
def execQueueFlush (src : Src) (rx : Bool) (q : Nat) (s : State) : Out := .next (s.queueWrite src rx q Datapath.queueFlush)

/-- QUEUE_KICK (R457). -/
def execQueueKick (src : Src) (rx : Bool) (q : Nat) (s : State) : Out := .next (s.queueWrite src rx q Datapath.queueKick)

/-- QUEUE_DRAINED of a queue (R459). -/
def execQueueDrained (rx : Bool) (q : Nat) (s : State) : Out := .next (s.onDp (fun d => d.queueDrained { rx := rx, q := q }))

/-- CONTEXT_WRITE: a write of context register r of queue or ring i (R461). -/
def execContextWrite (src : Src) (addr : Nat) (be : BitVec 4) (data : Word) (s : State) : Out :=
  .next (match Reg.ofAddr addr with
    | some (r, i, _) =>
      if isCtx r then s.regWrite src addr (fun s => s.onDp (fun d => d.writeTrgCtx r i be data)) else s
    | none => s)

end Sys2Proof.Machine
end

