-- ==== Sys2Proof/Machine/Flock.lean ====
section
/-! DEFINITION. The commands of the flock unit (spec/17): hello, dead and claim timers, CLAIM and RELEASE, and the
header check of an arriving frame. -/

namespace Sys2Proof.Machine

/-- HELLO_US passed since the last HELLO on a link: another is sent while the link is PROBING or UP (R527). -/
def Datapath.flkHelloTimer (d : Datapath) (l : Nat) : Datapath :=
  if d.flkState l = FL.down then d else d.flkHello l

/-- The dead timer of a link expires: its neighbour is lost (R527). -/
def Datapath.flkDeadTimer (d : Datapath) (l : Nat) : Datapath :=
  if d.flkState l = FL.up then d.flkLose l FL.probing else d

/-- A write of FLK_CTL (R531). -/
def Datapath.writeFlkCtl (d : Datapath) (be : BitVec 4) (data : Word) : Datapath :=
  match F.flkCtl_CMD.wo be data with
  | 1 => d.flkCmdClaim
  | 2 => d.flkCmdRelease
  | _ => d

/-- The word of FLK_EVT: LINK_CHG is 1 while FLK_LINK_CHG is not 0 (R533). -/
def Datapath.flkEvtWord (d : Datapath) : Word :=
  putBits (RegFile.word d.regs .flkEvt 0 0) 4 4 (b2n (d.rd F.flkLinkChg_CHG ≠ 0))

/-- HELLO_TIMER on link l (R527). -/
def execHelloTimer (l : Nat) (s : State) : Out := .next (s.onDp (fun d => d.flkHelloTimer l))

/-- DEAD_TIMER_EXPIRE on link l (R527). -/
def execDeadTimerExpire (l : Nat) (s : State) : Out := .next (s.onDp (fun d => d.flkDeadTimer l))

/-- CLAIM_TIMER (R531). -/
def execClaimTimer (s : State) : Out := .next (s.onDp (fun d => d.flkClaimTimer))

/-- CLAIM: CMD CLAIM written to FLK_CTL (R531). -/
def execClaim (src : Src) (s : State) : Out :=
  .next (s.regWrite src (Reg.flkCtl.addr 0 0) (fun s => s.onDp (fun d => d.flkCmdClaim)))

/-- RELEASE: CMD RELEASE written to FLK_CTL (R531). -/
def execRelease (src : Src) (s : State) : Out :=
  .next (s.regWrite src (Reg.flkCtl.addr 0 0) (fun s => s.onDp (fun d => d.flkCmdRelease)))

end Sys2Proof.Machine
end

