-- ==== Sys2Proof/Machine/Cvu.lean ====
section
/-! DEFINITION. The contexts of the check-value units (spec/18). Seals stand in Machine/FlockCore.lean, digests in
Machine/Troughs.lean. A context applies its accesses in order; the values change at once, and the core clocks of work that
a context owes show in BUSY (R546). -/

namespace Sys2Proof.Machine

/-- The initial value of a check (R535): 0 CRC-32C, 1 CRC-32, 2 CRC-16, 3 as 0. -/
def cvuInit (alg : Nat) : Nat := if alg = 2 then 0xFFFF else 0xFFFFFFFF

/-- One byte into the running value of a check (R536). -/
def cvuByte (alg s : Nat) (b : Byte) : Nat :=
  if alg = 2 then
    (List.range 8).foldl (fun s _ => if s.testBit 15 then ((s * 2) ^^^ 0x1021) % 2 ^ 16 else s * 2 % 2 ^ 16)
      (s % 2 ^ 16 ^^^ b.toNat * 256)
  else crcByte (if alg = 1 then 0xEDB88320 else 0x82F63B78) s b

/-- The final XOR of a check (R535). -/
def cvuFinal (alg : Nat) : Nat := if alg = 2 then 0 else 0xFFFFFFFF

/-- ALG of a context, 3 acting as 0 (R544). -/
def Datapath.cvuAlg (d : Datapath) (c : Nat) : Nat := let a := d.rd F.cvuCtxCfg_ALG c; if a = 3 then 0 else a

/-- The bytes that a feed delivers, in order (R545). -/
def feedBytes (swap : Bool) (be : BitVec 4) (data : Word) : List Byte :=
  let l := ((List.range 4).filter (fun i => be.getLsbD i)).map (fun i => BitVec.ofNat 8 (data.toNat / 2 ^ (8 * i)))
  if swap then l.reverse else l

/-- A context takes a write that costs it n core clocks (R546). -/
def Datapath.cvuTake (d : Datapath) (c n : Nat) : Datapath :=
  { d with cvu := { d.cvu with owed := Tab.put d.cvu.owed c (Tab.get d.cvu.owed c 0 + n) 0
                               begun := if d.cvu.begun.contains c then d.cvu.begun else c :: d.cvu.begun } }

/-- n core clocks pass at the contexts (R546). -/
def Datapath.cvuClocks (d : Datapath) (n : Nat) : Datapath :=
  { d with cvu := { d.cvu with owed := (List.range 16).foldl (fun t c => Tab.put t c (Tab.get t c 0 - n) 0) d.cvu.owed } }

/-- A write of CVU_CTX_CFG_c or CVU_CTX_COUNT_c (R546, R547). -/
def Datapath.cvuPlainWrite (d : Datapath) (r : Reg) (c : Nat) (be : BitVec 4) (data : Word) : Datapath :=
  (d.cvuTake c 1).writeReg r false be data c

/-- A write of CVU_CTX_CMD_c (R544). -/
def Datapath.cvuCmd (d : Datapath) (c : Nat) (be : BitVec 4) (data : Word) : Datapath :=
  if F.cvuCtxCmd_INIT.wo be data = 1 then ((d.cvuTake c 1).wr F.cvuCtxState_S (cvuInit (d.cvuAlg c)) c).wr F.cvuCtxCount_COUNT 0 c else d

/-- A write of CVU_CTX_FEED_c (R545). -/
def Datapath.cvuFeed (d : Datapath) (c : Nat) (be : BitVec 4) (data : Word) : Datapath :=
  let bs := feedBytes (d.flag F.cvuCtxCfg_SWAP c) be data
  let s := bs.foldl (cvuByte (d.cvuAlg c)) (d.rd F.cvuCtxState_S c)
  ((d.cvuTake c bs.length).wr F.cvuCtxState_S s c).wr F.cvuCtxCount_COUNT ((d.rd F.cvuCtxCount_COUNT c + bs.length) % 2 ^ 32) c

/-- The running value as a context shows it: for CRC-16 bits [31:16] read 0 (R544). -/
def Datapath.cvuState (d : Datapath) (c : Nat) : Nat :=
  let s := d.rd F.cvuCtxState_S c
  if d.cvuAlg c = 2 then s % 2 ^ 16 else s

/-- A write of CVU_CTX_STATE_c; for CRC-16 bits [31:16] ignore it (R544, R547). -/
def Datapath.cvuStateWrite (d : Datapath) (c : Nat) (be : BitVec 4) (data : Word) : Datapath :=
  (d.cvuTake c 1).writeReg .cvuCtxState false (if d.cvuAlg c = 2 then be &&& 3 else be) data c

/-- The words of CVU_CTX_CFG_c, CVU_CTX_STATE_c and CVU_CTX_RESULT_c (R544): BUSY is 1 while work waits (R546); RESULT shows its
reset value until the context has taken a write (log entry 74). -/
def Datapath.cvuCfgWord (d : Datapath) (c : Nat) : Word :=
  putBits (RegFile.word d.regs .cvuCtxCfg c 0) 31 31 (b2n (Tab.get d.cvu.owed c 0 ≠ 0))
def Datapath.cvuStateWord (d : Datapath) (c : Nat) : Word := BitVec.ofNat 32 (d.cvuState c)
def Datapath.cvuResultWord (d : Datapath) (c : Nat) : Word :=
  BitVec.ofNat 32 (if d.cvu.begun.contains c then d.cvuState c ^^^ cvuFinal (d.cvuAlg c) else 0)

/-- CONTEXT_INIT: INIT = 1 written to CVU_CTX_CMD_c (R544). -/
def execContextInit (src : Src) (c : Nat) (s : State) : Out :=
  .next (s.regWrite src (Reg.cvuCtxCmd.addr c 0) (fun s => s.onDp (fun d => d.cvuCmd c 1 1)))

/-- CONTEXT_FEED: a write of CVU_CTX_FEED_c (R545). -/
def execContextFeed (src : Src) (c : Nat) (be : BitVec 4) (data : Word) (s : State) : Out :=
  .next (s.regWrite src (Reg.cvuCtxFeed.addr c 0) (fun s => s.onDp (fun d => d.cvuFeed c be data)))

/-- CONTEXT_STATE_WRITE: a write of CVU_CTX_STATE_c (R547). -/
def execContextStateWrite (src : Src) (c : Nat) (be : BitVec 4) (data : Word) (s : State) : Out :=
  .next (s.regWrite src (Reg.cvuCtxState.addr c 0) (fun s => s.onDp (fun d => d.cvuStateWrite c be data)))

end Sys2Proof.Machine
end

