-- ==== Sys2Proof/Machine/Image.lean ====
section
/-! DEFINITION. The fold image as bytes (spec/04): header, sections, the checks of R143, cruise eligibility, and the
splice of R152. An image is the list of its LENGTH bytes. -/

namespace Sys2Proof.Machine

/-- An error of the loader: the code of R144 and the SECTION and OFFSET of R625. -/
structure FldErr where
  code : Nat
  sect : Nat := 0
  ofs : Nat := 0
  deriving DecidableEq, Repr

/-- Error codes of R144. -/
def FE.badMagic : Nat := 0x01
def FE.badFormat : Nat := 0x02
def FE.blockVersion : Nat := 0x03
def FE.badLength : Nat := 0x04
def FE.imageCrc : Nat := 0x05
def FE.sectionWalk : Nat := 0x06
def FE.sectionCrc : Nat := 0x07
def FE.unknownType : Nat := 0x08
def FE.order : Nat := 0x09
def FE.scope : Nat := 0x0A
def FE.content : Nat := 0x0B
def FE.digestMismatch : Nat := 0x0C
def FE.notChecked : Nat := 0x0D
def FE.wrongKind : Nat := 0x0E
def FE.busy : Nat := 0x0F
def FE.aborted : Nat := 0x10
def FE.domainOff : Nat := 0x11
def FE.linkTimeout : Nat := 0x12
def FE.stageRange : Nat := 0x13
def FE.forceRegion : Nat := 0x14
def FE.storeSpace : Nat := 0x15
def FE.inForce : Nat := 0x16
def FE.badCmd : Nat := 0x17

/-- A section of an image: its index, the image offset of its header, TYPE, the byte of RESTORE_SKIP, PEN, and
its payload (R123). -/
structure Sect where
  idx : Nat
  ofs : Nat
  typ : Nat
  flags : Nat
  pen : Nat
  payload : List Byte
  deriving DecidableEq, Repr

/-- RESTORE_SKIP (R123). -/
def Sect.skip (x : Sect) : Bool := x.flags.testBit 0

/-- The bytes of a section as they stand in an image. -/
def Sect.bytes (x : Sect) : List Byte :=
  leBytes 1 x.typ ++ leBytes 1 x.flags ++ leBytes 1 x.pen ++ [0] ++ leBytes 4 x.payload.length ++
    leBytes 4 (crc32c x.payload) ++ x.payload

/-- The first failing test of a list, in order. -/
def firstFail {α : Type} : List (Option α) → Option α
  | [] => none
  | some e :: _ => some e
  | none :: t => firstFail t

/-- A test of a field at an offset: none while it holds. -/
def need (ok : Bool) (ofs : Nat) : Option Nat := if ok then none else some ofs

/-- Whether n bytes from position i are all 0. -/
def zeros (r : List Byte) (i n : Nat) : Bool := (slice r i n).all (fun b => b = 0)

/-! ## Header (R121, R122) -/

/-- The header's own tests on the 64 bytes at an offset X of the store, up to PARTIAL (R143). R143 gives one place to all
header fields with their 0 fields; the order among them is the model's choice, log entry 41. -/
def headerErr (h : List Byte) (room : Nat) (version : Nat) (part : Bool) : Option FldErr :=
  let e (code ofs : Nat) (ok : Bool) : Option FldErr := if ok then none else some { code := code, sect := 0x3FF, ofs := ofs }
  let len := le h 0x10 4
  let n := le h 0x14 4
  firstFail [
    e FE.badMagic 0x00 (le h 0 4 = 0x51444649),
    e FE.badFormat 0x04 (le h 4 4 = 0x00010000),
    e FE.blockVersion 0x08 (le h 8 4 ≤ version),
    e FE.blockVersion 0x0C (version ≤ le h 12 4),
    e FE.badLength 0x10 (len % 4 = 0 && 76 ≤ len && len ≤ 1048576 && len ≤ room),
    e FE.badLength 0x14 (1 ≤ n && n ≤ 1023),
    e FE.badFormat 0x1C (le h 0x1C 4 < 2),
    e FE.badFormat 0x28 (zeros h 0x28 24),
    e FE.wrongKind 0x1C (bit (le h 0x1C 4) 0 = part)]

/-! ## Section walk (R123) -/

/-- Walks n sections of an image from an offset: the sections, or the first failure (R123, R143, R625). -/
def walk (img : List Byte) : Nat → Nat → Nat → Except FldErr (List Sect)
  | 0, idx, ofs =>
    if ofs = img.length then .ok [] else .error { code := FE.sectionWalk, sect := idx - 1, ofs := ofs }
  | n + 1, idx, ofs =>
    let total := img.length
    if total < ofs + 12 then
      .error { code := FE.sectionWalk, sect := idx, ofs := if total < ofs + 8 then ofs else ofs + 4 }
    else if le img (ofs + 1) 1 ≥ 2 then .error { code := FE.badFormat, sect := idx, ofs := ofs + 1 }
    else if le img (ofs + 3) 1 ≠ 0 then .error { code := FE.badFormat, sect := idx, ofs := ofs + 3 }
    else
      let len := le img (ofs + 4) 4
      if len % 4 ≠ 0 || total < ofs + 12 + len then
        .error { code := FE.sectionWalk, sect := idx, ofs := ofs + 4 }
      else
        match walk img n (idx + 1) (ofs + 12 + len) with
        | .error e => .error e
        | .ok l => .ok ({ idx := idx, ofs := ofs, typ := le img ofs 1, flags := le img (ofs + 1) 1,
                          pen := le img (ofs + 2) 1, payload := slice img (ofs + 12) len } :: l)

/-- The sections of an image that passed its check. -/
def sectionsOf (img : List Byte) : List Sect :=
  match walk img (le img 0x14 4) 0 64 with
  | .ok l => l
  | .error _ => []

/-- IMG_CRC of an image (R121). -/
def imgCrc (img : List Byte) : Nat := crc32c (img.take 0x18 ++ [0, 0, 0, 0] ++ img.drop 0x1C)

/-! ## Types and scope (R124, R125) -/

/-- Whether a type is global only (R125). -/
def globalType (t : Nat) : Bool := 1 ≤ t && t ≤ 6

/-- Whether PEN is allowed for a type (R125). -/
def scopeOk (t pen : Nat) : Bool :=
  if globalType t then pen = 0xFF
  else if t = 7 then pen < 32
  else if t = 12 then pen < 40 || pen = 0xFF
  else pen < 40

/-- The record size of a record-list type (R126). -/
def recordSize (t : Nat) : Nat :=
  match t with
  | 1 => 64 | 2 => 128 | 3 => 20 | 4 => 32 | 5 => 24 | 6 => 96 | 8 => 16 | 9 => 24 | 10 => 144 | 11 => 44 | _ => 0

/-- The lowest and one past the highest INDEX of a record-list type (R125, R426). -/
def indexRange (t pen : Nat) : Nat × Nat :=
  match t with
  | 3 => (0, 16) | 4 => (512, 518) | 5 => (0, 8) | 8 => (0, if pen < 32 then 16 else 1) | 9 => (0, 1024)
  | 10 => (0, 256) | 11 => (0, 8192) | _ => (0, 1)

/-- The records of a record-list section. -/
def recordsOf (x : Sect) : List (List Byte) :=
  let n := recordSize x.typ
  if n = 0 then [] else (List.range ((x.payload.length - 8) / n)).map (fun k => slice x.payload (8 + k * n) n)

/-- The records of a section by INDEX. -/
def recordTab (x : Sect) : Tab (List Byte) := (recordsOf x).map (fun r => (le r 0 2, r))

/-- The section of a type and pen, if the image holds it. -/
def findSect (l : List Sect) (t pen : Nat) : Option Sect := l.find? (fun x => x.typ = t && x.pen = pen)

/-- The records of the section of a type and pen, none where the image holds no such section. -/
def sectRecords (l : List Sect) (t pen : Nat) : Tab (List Byte) :=
  match findSect l t pen with
  | some x => recordTab x
  | none => []

/-! ## Carving and ports (R128 to R130) -/

/-- The LANE_CARVE byte of local slot i of a pen. -/
def carveOf (l : List Sect) (pen i : Nat) : Nat :=
  match findSect l 7 pen with
  | some x => le x.payload i 1
  | none => 0

/-- Width of a carve byte. -/
def carveWidth (b : Nat) : Nat := 2 ^ fieldOf b 6 5

/-- Whether local slot i is the first slot of a carved port. -/
def firstSlot (l : List Sect) (pen i : Nat) : Bool :=
  let b := carveOf l pen i
  b.testBit 7 && i % carveWidth b = 0

/-- Whether an image carves a line port. -/
def imageCarves (l : List Sect) (p : Nat) : Bool := p < 512 && firstSlot l (p / 16) (p % 16)

/-- The failing byte of a LANE_CARVE payload, if any (R128, R129, R170). -/
def carveErr (x : Sect) : Option Nat :=
  if x.payload.length ≠ 16 then some 4
  else
    firstFail ((List.range 16).map (fun i =>
      let b := le x.payload i 1
      let w := carveWidth b
      let a := i - i % w
      need (b % 4 = 0 &&
        (if b.testBit 7 then macSpeed w (fieldOf b 4 2) ≠ 0 && (List.range w).all (fun k => le x.payload (a + k) 1 = b)
         else b = 0)) (12 + i)))

/-- The MAC speed or capped rate of the port of a PORT_MODE record (R132). -/
def portRate (l : List Sect) (pen : Nat) (r : List Byte) : Nat :=
  if pen < 32 then
    let b := carveOf l pen (le r 0 2)
    macSpeed (carveWidth b) (fieldOf b 4 2)
  else (if le r 9 1 = 0 then 32 else le r 9 1) * 100

/-- Cruise eligibility of a full image: no pen's port rates sum to more than 2.8 Tbit/s (R132). -/
def cruiseOk (l : List Sect) : Bool :=
  (List.range 40).all (fun pen => ((sectRecords l 8 pen).map (fun r => portRate l pen r.2)).foldl (· + ·) 0 ≤ 2800)

/-! ## Record contents

Each function gives the offset in the record of the first field outside its owning chapter's range. -/

/-- POWER_PLAN (R616). -/
def powerPlanErr (r : List Byte) : Option Nat :=
  firstFail ([need (le r 2 1 < 8 && le r 2 1 % 4 < 2) 2, need (zeros r 5 1) 5, need (zeros r 0x0A 2) 0x0A] ++
    (List.range 20).map (fun n =>
      let v := le r (0x0C + 2 * n) 2
      need ((v = 0 && 2 ≤ n) || (400 ≤ v && v ≤ 1100)) (0x0C + 2 * n)) ++
    [need (zeros r 0x34 12) 0x34])

/-- The effective MAX_LEN of a PORT_MODE record (R343). -/
def recordLmax (pen : Nat) (r : List Byte) : Nat :=
  if 32 ≤ pen then 16384 else if le r 2 2 = 0 then 1526 else le r 2 2

/-- The largest effective MAX_LEN of a pen's ports in an image (R343). -/
def penLmax (l : List Sect) (pen : Nat) : Nat :=
  (sectRecords l 8 pen).foldl (fun m r => max m (recordLmax pen r.2)) (if 32 ≤ pen then 16384 else 0)

/-- BUFFER_PLAN (R342, R343). -/
def bufferPlanErr (l : List Sect) (r : List Byte) : Option Nat :=
  let sum := le r 4 4 + ((List.range 4).map (fun k => le r (8 + 8 * k) 4 + le r (12 + 8 * k) 4)).foldl (· + ·) 0 +
    ((List.range 40).map (fun p => le r (0x28 + 2 * p) 2)).foldl (· + ·) 0
  firstFail ([need (le r 2 1 < 4) 2, need (zeros r 3 1) 3, need (sum ≤ 524288) 4] ++
    (List.range 40).map (fun p =>
      need ((sectRecords l 8 p).isEmpty || ceilDiv (penLmax l p) 256 + 1 ≤ le r (0x28 + 2 * p) 2) (0x28 + 2 * p)) ++
    [need (zeros r 0x78 8) 0x78])

/-- The banks and buckets of a LARDER_GEOM record: first bank, banks, first bucket, buckets. -/
def geomSpan (r : List Byte) : Nat × Nat × Nat × Nat :=
  (le r 4 1, 2 ^ le r 5 1, le r 6 2, (1 + le r 9 1 % 2) * 2 ^ le r 8 1)

/-- Whether two ranges, each a start and a length, overlap. -/
def overlaps (a n b m : Nat) : Bool := a < b + m && b < a + n

/-- LARDER_GEOM (R266, R268), against the records before it. -/
def larderGeomErr (before : List (List Byte)) (r : List Byte) : Option Nat :=
  let kw := le r 2 1
  let rw' := le r 3 1
  let s := geomSpan r
  firstFail [need (kw % 4 = 0 && 4 ≤ kw && kw ≤ 44) 2, need ((rw' = 8 || rw' = 16) && 4 + kw + rw' ≤ 64) 3,
    need (1 ≤ le r 5 1 && le r 5 1 ≤ 8) 5, need (s.1 % s.2.1 = 0 && s.1 + s.2.1 ≤ 256) 4,
    need (le r 8 1 ≤ 10) 8, need (s.2.2.1 ≤ 1535 && s.2.2.1 + s.2.2.2 ≤ 1536) 6,
    need (le r 9 1 < 2) 9, need (zeros r 0x0A 2) 0x0A,
    need (before.all (fun q =>
      let t := geomSpan q
      !(overlaps s.1 s.2.1 t.1 t.2.1 && overlaps s.2.2.1 s.2.2.2 t.2.2.1 t.2.2.2))) 4,
    need (le r 0x0C 4 ≠ le r 0x10 4) 0x10]

/-- QUEUE_MAP (R426, R427), against the records before it. -/
def queueMapErr (before : List (List Byte)) (r : List Byte) : Option Nat :=
  let range (k lim : Nat) : Option Nat :=
    let b := le r (4 + 4 * k) 2
    let n := le r (6 + 4 * k) 2
    firstFail [need (n ≤ lim && b + n ≤ lim) (6 + 4 * k),
      need (before.all (fun q => !(overlaps b n (le q (4 + 4 * k) 2) (le q (6 + 4 * k) 2) && n ≠ 0 &&
        le q (6 + 4 * k) 2 ≠ 0))) (4 + 4 * k)]
  let d := le r 0x10 2
  firstFail [need (zeros r 2 2) 2, range 0 32768, range 1 32768, range 2 4096,
    need (d < 32768 || (le r 8 2 ≤ d % 32768 && d % 32768 < le r 8 2 + le r 0x0A 2)) 0x10,
    need (zeros r 0x12 14) 0x12]

/-- TIME_PLAN (R508). -/
def timePlanErr (r : List Byte) : Option Nat :=
  firstFail [need (le r 0x10 4 < 2) 0x10, need (zeros r 0x14 4) 0x14]

/-- FLOCK_ROLE (R511, R512). -/
def flockRoleErr (l : List Sect) (r : List Byte) : Option Nat :=
  let mode := le r 2 1
  let link (k : Nat) : Nat := le r (0x10 + 2 * k) 2
  if mode = 0 then (List.range 94).findSome? (fun k => need (zeros r (2 + k) 1) (2 + k))
  else
    firstFail ([need (mode < 3) 2, need (zeros r 3 1) 3, need (le r 4 2 < 4096) 4, need (le r 8 8 ≠ 0) 8] ++
      (List.range 32).map (fun k =>
        need (fieldOf (link k) 14 10 = 0 && (!(link k).testBit 15 ||
          (imageCarves l (link k % 1024) &&
           (List.range k).all (fun j => !(link j).testBit 15 || link j % 1024 ≠ link k % 1024)))) (0x10 + 2 * k)) ++
      [need (10 ≤ le r 0x50 2) 0x50, need (2 ≤ le r 0x52 1) 0x52,
       need (1 ≤ le r 0x53 1 && le r 0x53 1 ≤ 15) 0x53, need (le r 0x54 1 < 8) 0x54,
       need (1 ≤ le r 0x55 1 && le r 0x55 1 ≤ 63) 0x55, need (le r 0x56 1 < 8) 0x56, need (zeros r 0x57 9) 0x57])

/-- PORT_MODE (R130, R170, R379). -/
def portModeErr (l : List Sect) (pen : Nat) (r : List Byte) : Option Nat :=
  let m := le r 2 2
  let f := le r 8 1
  let b := carveOf l pen (le r 0 2)
  firstFail [need (32 ≤ pen || firstSlot l pen (le r 0 2)) 0,
    need (m = 0 || (1518 ≤ m && m ≤ 16384)) 2,
    need (if pen < 32 then fecAllowed (carveWidth b) (fieldOf b 4 2) (le r 4 1) else le r 4 1 = 0) 4,
    need (fieldOf f 6 4 = 0 && (pen < 32 || f < 128)) 8,
    need (if pen < 32 then le r 9 1 = 0 else le r 9 1 ≤ 32) 9, need (zeros r 0x0C 4) 0x0C]

/-- One extraction word of a profile (R246, R248). -/
def extractOk (w : Nat) : Bool :=
  let len := fieldOf w 11 8 + 1
  let src := fieldOf w 15 14
  fieldOf w 23 22 = 0 && !w.testBit 12 && src ≠ 3 && (src ≠ 0 || w % 256 + len ≤ 256) &&
    (src ≠ 1 || w % 256 + len ≤ 32) && fieldOf w 21 16 + len ≤ 64

/-- PARSE_PROFILE (R244, R248); `geoms` holds the LARDER_GEOM records. -/
def profileErr (geoms : Tab (List Byte)) (r : List Byte) : Option Nat :=
  let n := le r 3 1
  firstFail ([need (le r 2 1 < 2) 2, need (n ≤ 32) 3, need (le r 4 2 ≤ 511) 4, need (le r 6 2 ≤ 512) 6] ++
    (List.range 4).map (fun t =>
      let w := le r (8 + 2 * t) 2
      need (w % 128 = 0 && (!w.testBit 15 || (match Tab.find geoms (fieldOf w 14 11) with
        | some g => 4 * fieldOf w 10 7 + le g 2 1 ≤ 64
        | none => false))) (8 + 2 * t)) ++
    (List.range 32).map (fun x =>
      let w := le r (16 + 4 * x) 4
      need (if x < n then extractOk w else w = 0) (16 + 4 * x)))

/-- Words that a pattern record takes in its store (R255). -/
def patternWords (r : List Byte) : Nat := 1 + ceilDiv (le r 2 1) 4

/-- GRAZER_PATTERNS (R255, R256), after the records before it. -/
def patternErr (pen : Nat) (before : List (List Byte)) (r : List Byte) : Option Nat :=
  let n := le r 2 1
  firstFail [need (((before ++ [r]).map patternWords).foldl (· + ·) 0 ≤ (if pen < 32 then 8192 else 16384)) 0,
    need (4 ≤ n && n ≤ 32) 2, need (le r 3 1 < 2) 3, need (le r 4 1 < 64) 4, need (zeros r 5 1) 5,
    need (le r 6 2 ≤ le r 8 2) 6, need (le r 8 2 + n ≤ 512) 8, need (zeros r 0x0A 2) 0x0A,
    need (zeros r (0x0C + n) (32 - n)) 0x0C]

/-- The content of one record of a section, after the records before it. -/
def recordErr (l : List Sect) (geoms : Tab (List Byte)) (x : Sect) (before : List (List Byte)) (r : List Byte) : Option Nat :=
  match x.typ with
  | 1 => powerPlanErr r
  | 2 => bufferPlanErr l r
  | 3 => larderGeomErr before r
  | 4 => queueMapErr before r
  | 5 => timePlanErr r
  | 6 => flockRoleErr l r
  | 8 => portModeErr l x.pen r
  | 9 => need (le r 3 1 < 2) 3
  | 10 => profileErr geoms r
  | 11 => patternErr x.pen before r
  | _ => none

/-- Whether a register address is listed: a formula of the Register index yields it (R622, R572). -/
def listed (a : Nat) : Bool :=
  match Reg.ofAddr a with
  | some (.penTallyLo, _, j) => j % 128 < 96
  | some (.penTallyHi, _, j) => j % 128 < 96
  | some (.flkLcnt, i, _) => i % 8 < 7
  | some _ => true
  | none => false

/-- Whether a REG_PRESET record may name an address (R131). -/
def presetAddrOk (pen a : Nat) : Bool :=
  a % 4 = 0 && listed a &&
    (match unitOf a with
     | .shp => false
     | .pwr => false
     | .fld => false
     | .pen => pen = 0xFF || (a - 0x0100000) / 0x10000 = pen
     | _ => pen = 0xFF)

/-- The presets of a REG_PRESET section: address, mask, value. -/
def presetsOf (x : Sect) : List (Nat × Nat × Nat) :=
  (List.range ((x.payload.length - 4) / 12)).map (fun k =>
    (le x.payload (4 + 12 * k) 4, le x.payload (8 + 12 * k) 4, le x.payload (12 + 12 * k) 4))

/-- The records of a list with what precedes each. -/
def withBefore {α : Type} (l : List α) : List (List α × α) :=
  (List.range l.length).filterMap (fun k => (l[k]?).map (fun x => (l.take k, x)))

/-- The content of a section: the offset from its header's first byte of the failing field (R126 to R131). `l` holds
the sections of the image, for a partial image those in force where it leaves a type out. -/
def contentErr (l : List Sect) (geoms : Tab (List Byte)) (x : Sect) : Option Nat :=
  if x.typ = 7 then
    firstFail [carveErr x, firstFail ((List.range 16).map (fun i =>
      need (!firstSlot l x.pen i || (Tab.find (sectRecords l 8 x.pen) i).isSome) (12 + i)))]
  else if x.typ = 12 then
    let n := le x.payload 0 4
    if x.payload.length < 4 || x.payload.length ≠ 4 + 12 * n then some 4
    else firstFail ((List.range n).map (fun k =>
      need (presetAddrOk x.pen (le x.payload (4 + 12 * k) 4)) (16 + 12 * k)))
  else
    let n := le x.payload 0 4
    let sz := recordSize x.typ
    if x.typ = 5 && !x.skip then some 1
    else if x.payload.length < 8 then some 4
    else if le x.payload 4 4 ≠ sz then some 16
    else if x.payload.length ≠ 8 + n * sz then some 4
    else if (x.typ = 1 || x.typ = 2 || x.typ = 6) && n ≠ 1 then some 12
    else
      let rg := indexRange x.typ x.pen
      let rs := recordsOf x
      (withBefore rs).findSome? (fun p =>
        let i := le p.2 0 2
        let at' := 20 + p.1.length * sz
        if i < rg.1 || rg.2 ≤ i || p.1.any (fun q => i ≤ le q 0 2) then some at'
        else (recordErr l geoms x p.1 p.2).map (· + at'))

/-- The content of a LANE_CARVE section of a partial image against what the image in force keeps: each PORT_MODE record in
force must name the first slot of a port whose type allows its FEC, unless the partial image brings a PORT_MODE section
(R130, R170), and each enabled flock link in force a carved port (R512). R625 names no place for either; the model reports
the LANE_CARVE byte of that slot. Log entry 42. -/
def carveKeptErr (l own : List Sect) (x : Sect) : Option Nat :=
  let modes := if (findSect own 8 x.pen).isSome then [] else sectRecords l 8 x.pen
  let role := (sectRecords l 6 0xFF).map (·.2) |>.headD []
  let links := (List.range 32).filterMap (fun k =>
    let w := le role (0x10 + 2 * k) 2
    if le role 2 1 ≠ 0 && w.testBit 15 && w % 1024 / 16 = x.pen then some (w % 16) else none)
  firstFail (modes.map (fun r =>
      let b := carveOf l x.pen r.1
      need (firstSlot l x.pen r.1 && fecAllowed (carveWidth b) (fieldOf b 4 2) (le r.2 4 1)) (12 + r.1)) ++
    links.map (fun i => need (firstSlot l x.pen i) (12 + i)))

/-- The content of a section of a partial image against what the image in force keeps: a LANE_CARVE section, a port that a
LANE_CARVE section in force carves and that a PORT_MODE section leaves out (R130), and a port of PORT_MODE whose MAX_LEN the
BUFFER_PLAN in force gives too little landing space (R343). R625 names a place for none of them, since the image holds no
section for it; the model reports COUNT and MAX_LEN of the PORT_MODE section. Log entry 42. -/
def keptErr (l own : List Sect) (x : Sect) : Option Nat :=
  if x.typ = 7 then carveKeptErr l own x
  else if x.typ ≠ 8 then none
  else
    let rs := recordsOf x
    let land := (match findSect l 2 0xFF with
      | some b => (recordsOf b).head?.map (fun r => le r (0x28 + 2 * x.pen) 2)
      | none => none)
    firstFail [
      need ((findSect own 7 x.pen).isSome ||
        (List.range 16).all (fun i => !firstSlot l x.pen i || (Tab.find (recordTab x) i).isSome)) 12,
      (List.range rs.length).findSome? (fun k =>
        match land, rs[k]? with
        | some n, some r => need (ceilDiv (recordLmax x.pen r) 256 + 1 ≤ n) (22 + 16 * k)
        | _, _ => none)]

/-! ## The whole check (R143) -/

/-- The tests after the header's own, in the order of R143. `base` holds the sections in force, which a partial image
for pen P leaves in place where it holds no section of their type. -/
def bodyErr (img : List Byte) (part : Option Nat) (base : List Sect) : Option FldErr :=
  match walk img (le img 0x14 4) 0 64 with
  | .error e => some e
  | .ok l =>
    let at' (code : Nat) (x : Sect) (o : Nat) : FldErr := { code := code, sect := x.idx, ofs := x.ofs + o }
    let ctx := match part with
      | none => l
      | some p => l ++ base.filter (fun y => !(y.pen = p && l.any (fun x => x.typ = y.typ)))
    firstFail [
      l.findSome? (fun x => if le img (x.ofs + 8) 4 = crc32c x.payload then none else some (at' FE.sectionCrc x 8)),
      (if le img 0x18 4 = imgCrc img then none else some { code := FE.imageCrc, sect := 0x3FF, ofs := 0x18 }),
      (withBefore l).findSome? (fun p =>
        if p.2.typ < 1 || 12 < p.2.typ then some (at' FE.unknownType p.2 0)
        else if p.1.any (fun y => p.2.typ * 256 + p.2.pen ≤ y.typ * 256 + y.pen) then some (at' FE.order p.2 0)
        else none),
      l.findSome? (fun x =>
        if !scopeOk x.typ x.pen then some (at' FE.scope x 2)
        else match part with
          | some p => if x.pen ≠ p then some (at' FE.wrongKind x 2) else none
          | none => none),
      l.findSome? (fun x =>
        (match contentErr ctx (sectRecords ctx 3 0xFF) x with
         | some o => some o
         | none => if part.isSome then keptErr ctx l x else none).map (at' FE.content x))]

/-! ## Splice (R152) -/

/-- An image built from sections: the header of the image in force with LENGTH, SECT_COUNT and IMG_CRC recomputed. -/
def buildImage (hdr : List Byte) (l : List Sect) : List Byte :=
  let body := l.flatMap Sect.bytes
  let h := hdr.take 0x10 ++ leBytes 4 (64 + body.length) ++ leBytes 4 l.length ++ [0, 0, 0, 0] ++ (hdr.drop 0x1C).take 36
  let img := h ++ body
  img.take 0x18 ++ leBytes 4 (crc32c img) ++ img.drop 0x1C

/-- Inserts a section in the order of R124. -/
def insertSect (x : Sect) : List Sect → List Sect
  | [] => [x]
  | y :: t => if x.typ * 256 + x.pen < y.typ * 256 + y.pen then x :: y :: t else y :: insertSect x t

/-- The sections of the image in force with the pen's sections of the partial image's types replaced by the partial
image's (R152). -/
def spliceSects (full part : List Sect) (pen : Nat) : List Sect :=
  let keep := full.filter (fun y => !(y.pen = pen && part.any (fun x => x.typ = y.typ)))
  part.foldl (fun l x => insertSect x l) keep

end Sys2Proof.Machine
end

