-- ==== Sys2Proof/Machine/Hdma.lean ====
section
/-! DEFINITION. The channels, triggers, records and registers of the housekeeping DMA (spec/19). The engine that
moves bytes stands in Machine/HdmaEngine.lean, behind the register space it reaches. -/

namespace Sys2Proof.Machine

/-- Channel states (R568). -/
def HS.idle : Nat := 0
def HS.pending : Nat := 1
def HS.running : Nat := 2
def HS.waitWr : Nat := 3

/-- The state of a channel. -/
def Datapath.hdmState (d : Datapath) (c : Nat) : Nat := d.rd F.hdmChStat_STATE c

/-- Sets the state of a channel. -/
def Datapath.setHdm (d : Datapath) (c st : Nat) : Datapath := d.wr F.hdmChStat_STATE st c

/-- Whether the engine is stopped. -/
def Datapath.hdmStopped (d : Datapath) : Bool := d.flag F.hdmStat_STOPPED

/-- The rank of a trigger's kind among triggers of one clock: software, chained, timer (R553). -/
def trigRank (kind : Nat) : Nat := if kind = 0 then 0 else if kind = 2 then 1 else 2

/-- Whether a trigger comes in the clock of the trigger taken last, and the datapath that has answered it: a free choice as
long as that one's clock may last (log entry 84). -/
def Datapath.trigClock (d : Datapath) : Bool × Datapath :=
  if d.meets .dmaTrigger 0 then
    let d' := { d with hdm := { d.hdm with draws := d.hdm.draws + 1 } }
    if Config.sameClock 5 d.hdm.draws then (true, d') else (false, d'.unmeet .dmaTrigger 0)
  else (false, d)

/-- A channel takes a trigger of a kind in the clock n. -/
def Datapath.trigTake (d : Datapath) (c kind n : Nat) : Datapath :=
  { d with hdm := { d.hdm with trig := Tab.set d.hdm.trig c (kind, n) } }

/-- A trigger of a kind (0 software, 1 timer, 2 chained) reaches an enabled channel. Of several that reach an IDLE channel
in one clock, one is taken, of the first kind in the order software, chained, timer; the clock is recorded, so that
triggers of two channels in one clock are of one age (R553, R554). -/
def Datapath.hdmTrigger (d : Datapath) (c kind : Nat) : Datapath :=
  if !d.flag F.hdmChCtl_EN c then d
  else
    let x := d.trigClock
    let d := x.2
    if d.hdmState c = HS.idle then
      if x.1 then (d.setHdm c HS.pending).trigTake c kind (d.hdm.nextTrig - 1)
      else
        let d := (d.setHdm c HS.pending).trigTake c kind d.hdm.nextTrig
        { d with hdm := { d.hdm with nextTrig := d.hdm.nextTrig + 1 } }.meet .dmaTrigger 0
    else
      match Tab.find d.hdm.trig c with
      | some (k, n) =>
        if x.1 && n + 1 = d.hdm.nextTrig then (if trigRank kind < trigRank k then d.trigTake c kind n else d)
        else (d.wr F.hdmChStat_OVERRUN 1 c).wr F.hdmEvt_TRIG_MISS 1
      | none => (d.wr F.hdmChStat_OVERRUN 1 c).wr F.hdmEvt_TRIG_MISS 1

/-! ## Records (R564 to R566) -/

/-- A completion record (R564). -/
def hdmRecord (seq links status trig ch bytes : Nat) : List Byte :=
  leBytes 4 seq ++ leBytes 4 (links * 2 ^ 16 + status * 2 ^ 8 + trig * 2 ^ 4 + ch) ++ leBytes 4 (bytes % 2 ^ 24) ++ leBytes 4 0

/-- Records that wait enter the queue while it has room; a chained trigger that waits with one follows it (R557,
R566). -/
def Datapath.hdmAdmit : Nat → Datapath → Datapath
  | 0, d => d
  | n + 1, d =>
    match d.hdm.waiting with
    | [] => d
    | (r, ch) :: t =>
      if 256 ≤ d.hdm.queue.length then d
      else
        let d := { d with hdm := { d.hdm with queue := d.hdm.queue ++ [r], waiting := t } }
        Datapath.hdmAdmit n (match ch with
          | some c => d.hdmTrigger c 2
          | none => d)

/-- A record is formed; `chain` names the channel that its run triggers (R557, R564 to R566). -/
def Datapath.hdmForm (d : Datapath) (links status trig ch bytes : Nat) (chain : Option Nat) : Datapath :=
  let r := hdmRecord (d.hdm.seq % 2 ^ 32) links status trig ch bytes
  let full := 256 ≤ d.hdm.queue.length
  let d := { d with hdm := { d.hdm with seq := d.hdm.seq + 1, waiting := d.hdm.waiting ++ [(r, chain)] } }
  let d := if full then d.wr F.hdmEvt_CPL_FULL 1 else d
  let d := if status = 0 then d else d.wr F.hdmEvt_ERROR 1
  d.hdmAdmit (d.hdm.waiting.length)

/-- The oldest record is removed (R566). -/
def Datapath.hdmPop (d : Datapath) : Datapath :=
  let d := { d with hdm := { d.hdm with queue := d.hdm.queue.drop 1 } }
  d.hdmAdmit d.hdm.waiting.length

/-! ## The end of a run -/

/-- Requests of a run from an offset on that have not been presented are withdrawn: the engine issues nothing further
for it there (R559, R561). -/
def Datapath.hdmWithdraw (d : Datapath) (run : Nat) (from' : Nat := 0) : Datapath :=
  let mine := d.hdm.reqs.filter (fun e => e.2.run = run && from' ≤ e.2.pos)
  let hit (q : SReq) : Bool := mine.any (fun e => q.job = .hdma e.1)
  let gone := (List.range 6).flatMap (fun k => ((d.srp k).want.filter hit).map (fun q => q.job))
  let d := loop 6 (fun k d => (d.setSrp k { d.srp k with want := (d.srp k).want.filter (fun q => !hit q) }).settle k) d
  { d with hdm := { d.hdm with reqs := d.hdm.reqs.filter (fun e => !gone.contains (.hdma e.1)) } }

/-- A failed channel's capture (R559, R568). -/
def Datapath.hdmCapture (d : Datapath) (ch status addr : Nat) : Datapath :=
  if d.flag F.hdmErrInfo_NEW then d
  else if d.meets .dmaNew 0 then d.wr F.hdmErrInfo_NEW 1
  else
    let d := ((d.wr F.hdmErrInfo_NEW 1).wr F.hdmErrInfo_CH ch).wr F.hdmErrInfo_STATUS status
    (d.wr F.hdmErrAddrLo_ADDR (addr % 2 ^ 32)).wr F.hdmErrAddrHi_ADDR (addr / 2 ^ 32)

/-- The engine stops on an error (R559). -/
def Datapath.hdmStop (d : Datapath) (ch status addr : Nat) : Datapath := (d.wr F.hdmStat_STOPPED 1).hdmCapture ch status addr

/-- The running channel ends in a status with a number of bytes: its record is formed, an OK run may be quiet and
chains (R557, R564). -/
def Datapath.hdmEnd (d : Datapath) (r : HRun) (status bytes left : Nat) : Datapath :=
  let c := r.ch
  let late := if status ≠ 1 && !d.flag F.hdmChCtl_WAIT_WR c then some r.trig else none
  let reqs := d.hdm.reqs.map (fun e => (e.1, if e.2.run = r.id then { e.2 with late := late } else e.2))
  let d := { (d.setHdm c HS.idle).wr F.hdmChLeft_LEFT left c with hdm := { d.hdm with run := none, reqs := reqs } }
  let links := min r.links 65535
  if status = 0 then
    let chain := if d.flag F.hdmChCtl_CHAIN_EN c then some (d.rd F.hdmChCtl_CHAIN_TO c) else none
    if d.flag F.hdmChCtl_QUIET c then
      (match chain with
       | some t => d.hdmTrigger t 2
       | none => d)
    else d.hdmForm links 0 r.trig c bytes chain
  else d.hdmForm links status r.trig c bytes none

/-- EN written 0 (R558, R561). `free` is a value that the spec leaves open: LEFT and BYTES. -/
def Datapath.hdmDisable (d : Datapath) (c free : Nat) : Datapath :=
  if d.hdmState c = HS.pending then { d.setHdm c HS.idle with hdm := { d.hdm with trig := Tab.erase d.hdm.trig c } }
  else
    match d.hdm.run with
    | some r =>
      if r.ch ≠ c then d
      else
        let d := d.hdmWithdraw r.id
        let d := { d with hdm := { d.hdm with drain := if d.hdm.reqs.any (fun e => e.2.run = r.id) then some (c, r.id) else none } }
        d.hdmEnd r 1 free free
    | none => d

/-- A drained channel has no request left: the engine is free again (R561). -/
def Datapath.hdmDrained (d : Datapath) : Datapath :=
  match d.hdm.drain with
  | some (_, run) =>
    if d.hdm.reqs.any (fun e => e.2.run = run) then d else { d with hdm := { d.hdm with drain := none } }
  | none => d

/-! ## Registers (R567, R568) -/

/-- A write of HDM_CH_CTL_c: MODE stays while the channel is not IDLE; EN written 0 ends it; START triggers it (R553,
R558). -/
def State.writeHdmCtl (s : State) (c : Nat) (be : BitVec 4) (data : Word) : State :=
  let d := s.dp
  let mode := d.rd F.hdmChCtl_MODE c
  let idle := d.hdmState c = HS.idle
  let was := d.flag F.hdmChCtl_EN c
  let d := d.writeReg .hdmChCtl false be data c
  let d := if !idle && d.rd F.hdmChCtl_MODE c ≠ mode then (d.wr F.hdmChCtl_MODE mode c).wr F.hdmEvt_REFUSED 1 else d
  let ended := was && !d.flag F.hdmChCtl_EN c
  let d := if ended then d.hdmDisable c (Config.freeNat s.freeSeed % 2 ^ 24) else d
  let d := if F.hdmChCtl_START.wo be data = 1 then
      (if d.flag F.hdmChCtl_EN c then d.hdmTrigger c 0 else d.wr F.hdmEvt_REFUSED 1)
    else d
  { s with dp := d, freeSeed := if ended then s.freeSeed + 1 else s.freeSeed }

/-- A write of CFG, SRC, DST or COUNT of a channel: ignored with REFUSED while it is not IDLE (R558). -/
def Datapath.writeHdmChan (d : Datapath) (r : Reg) (c : Nat) (be : BitVec 4) (data : Word) : Datapath :=
  if d.hdmState c = HS.idle then d.writeReg r false be data c else d.wr F.hdmEvt_REFUSED 1

/-- A write of HDM_CTL (R560). -/
def Datapath.writeHdmRoot (d : Datapath) (be : BitVec 4) (data : Word) : Datapath :=
  if F.hdmCtl_RESUME.wo be data = 1 then d.wr F.hdmStat_STOPPED 0 else d

/-- A write of HDM_CPL_POP (R566). -/
def Datapath.writeHdmPop (d : Datapath) (be : BitVec 4) (data : Word) : Datapath :=
  if F.hdmCplPop_POP.wo be data = 1 then d.hdmPop else d

/-- The channel that runs or drains. -/
def Datapath.hdmActive (d : Datapath) : Option Nat :=
  match d.hdm.run with
  | some r => some r.ch
  | none => d.hdm.drain.map (fun x => x.1)

/-- The words of HDM_STAT, HDM_EVT and HDM_CPL_HEAD_w (R568). -/
def Datapath.hdmStatWord (d : Datapath) : Word :=
  BitVec.ofNat 32 (b2n d.hdmStopped * 2 ^ 31 + b2n d.hdmActive.isSome * 2 ^ 30 + (d.hdmActive.getD 0) * 2 ^ 24 +
    d.hdm.queue.length)
def Datapath.hdmEvtWord (d : Datapath) : Word :=
  putBits (putBits (RegFile.word d.regs .hdmEvt 0 0) 2 2 (b2n d.hdmStopped)) 0 0 (b2n (d.hdm.queue ≠ []))
def Datapath.hdmHeadWord (d : Datapath) (w : Nat) : Word :=
  BitVec.ofNat 32 (match d.hdm.queue with
    | r :: _ => le r (4 * w) 4
    | [] => 0)

/-- Bytes of the running channel's memory writes that have not transferred. -/
def Datapath.hdmUnsent (d : Datapath) (run : Nat) : Nat :=
  let mine (j : Job) : Bool := match j with
    | .hdma i => match Tab.find d.hdm.reqs i with
      | some q => q.run = run && q.write
      | none => false
    | _ => false
  (List.range 6).foldl (fun n k =>
    let p := d.srp k
    n + ((p.want.filter (fun q => mine q.job)).map (fun q => q.data.length)).foldl (· + ·) 0 +
      (match p.presented with
       | some (q, _) => if mine q.job then q.data.length else 0
       | none => 0) +
      ((p.wbeats.filter (fun b => mine b.job)).map (fun b => b.data.length)).foldl (· + ·) 0) 0

/-- The word of HDM_CH_LEFT_c: of the running channel, the bytes not yet written. -/
def Datapath.hdmLeftWord (d : Datapath) (c : Nat) : Word :=
  match d.hdm.run with
  | some r => if r.ch = c then BitVec.ofNat 32 (r.count - r.wpos + d.hdmUnsent r.id + 4 * b2n r.held) else RegFile.word d.regs .hdmChLeft c 0
  | none => RegFile.word d.regs .hdmChLeft c 0

/-! ## Commands -/

/-- HDMA_START: a write of HDM_CH_CTL_c with START = 1 (R553). -/
def execHdmaStart (src : Src) (c : Nat) (be : BitVec 4) (data : Word) (s : State) : Out :=
  .next (s.regWrite src (Reg.hdmChCtl.addr c 0) (fun s => s.writeHdmCtl c (be ||| 0x8) (data ||| 0x40000000)))

/-- Whether a power entry has been accepted and the block has not come back from it: it is quiesced, moves, or stands in a
state that holds the pens or the core clock back (R569, R597, R602). -/
def Seq.entered (q : Seq) : Bool :=
  (match q.kind with
   | .window => true
   | .quiesce => true
   | .entry => true
   | .cruise => true
   | .wake => true
   | _ => false) ||
  (match q.state with
   | .run => false
   | .trim => false
   | _ => true)

/-- HDMA_TIMER: PERIOD of channel c passed while TIMER_EN = 1; from the acceptance of a power entry timer triggers are
not taken (R553, R569). -/
def execHdmaTimer (c : Nat) (s : State) : Out :=
  .next (if s.dp.flag F.hdmChCtl_TIMER_EN c && !s.sh.seq.entered then
      s.onDp (fun d => d.hdmTrigger c 1)
    else s)

/-- HDMA_DISABLE: a write of HDM_CH_CTL_c with EN = 0 (R558, R561). -/
def execHdmaDisable (src : Src) (c : Nat) (be : BitVec 4) (data : Word) (s : State) : Out :=
  .next (s.regWrite src (Reg.hdmChCtl.addr c 0) (fun s =>
    s.writeHdmCtl c (be ||| 0x8) (data &&& 0x3FFFFFFF)))

/-- HDMA_RESUME: RESUME = 1 written to HDM_CTL (R560). -/
def execHdmaResume (src : Src) (s : State) : Out :=
  .next (s.regWrite src (Reg.hdmCtl.addr 0 0) (fun s => s.onDp (fun d => d.writeHdmRoot 1 1)))

/-- HDMA_POP: POP = 1 written to HDM_CPL_POP (R566). -/
def execHdmaPop (src : Src) (s : State) : Out :=
  .next (s.regWrite src (Reg.hdmCplPop.addr 0 0) (fun s => s.onDp (fun d => d.writeHdmPop 1 1)))

end Sys2Proof.Machine
end

