-- ==== Sys2Proof/Machine/Lanes.lean ====
section
/-! DEFINITION. Lane slots and the link state machine (spec/06): link events, loopback, low-power idle, test
patterns, registers. -/

namespace Sys2Proof.Machine

/-! ## Lanes of a port -/

/-- The lane slots of a line port. -/
def Datapath.lanesOf (d : Datapath) (p : Nat) : List Nat := (List.range (d.width p)).map (fun k => p + k)

/-- SIG of a port: signal detect of its lanes, taken as 1 in near-end loopback (R177, R184, R192). -/
def Datapath.sigOf (d : Datapath) (p : Nat) : Nat :=
  ofBits (d.width p) (fun k => d.loopMode p = 1 || Tab.get d.sigDet (p + k) false)

/-- Every lane bit of a port. -/
def Datapath.allLanes (d : Datapath) (p : Nat) : Nat := 2 ^ d.width p - 1

/-- Lane loss (R180, R191). -/
def Datapath.laneLoss (d : Datapath) (p : Nat) : Bool :=
  let pen := p / 16
  let i := p % 16
  d.sigOf p ≠ d.allLanes p && !d.flag F.penLinkCtl_SIG_DET_IGNORE pen i && !d.flag F.penLinkStat_RX_LPI pen i

/-- Lock loss (R180, R191). -/
def Datapath.lockLoss (d : Datapath) (p : Nat) : Bool :=
  let pen := p / 16
  let i := p % 16
  (d.rd F.penLinkStat_LOCK pen i ≠ d.allLanes p || d.flag F.penLinkStat_HI_ERR pen i) && !d.flag F.penLinkStat_RX_LPI pen i

/-- Sets tx_quiet of every lane of a port. -/
def Datapath.setTxQuiet (d : Datapath) (p : Nat) (v : Bool) : Datapath :=
  { d with txQuiet := (d.lanesOf p).foldl (fun t l => Tab.put t l v false) d.txQuiet }

/-- Sets rx_quiet of every lane of a port. -/
def Datapath.setRxQuiet (d : Datapath) (p : Nat) (v : Bool) : Datapath :=
  { d with rxQuiet := (d.lanesOf p).foldl (fun t l => Tab.put t l v false) d.rxQuiet }

/-- TX_PAT in effect: codes 9 to 15 act as 0 (R195). -/
def Datapath.txPat (d : Datapath) (slot : Nat) : Nat :=
  let c := d.rd F.penLaneTest_TX_PAT (slot / 16) (slot % 16)
  if 9 ≤ c then 0 else c

/-- The level of lsl_<s>_tx_quiet (R182, R190). -/
def Datapath.txQuietPin (d : Datapath) (slot : Nat) : Bool :=
  if d.slotUsed slot && d.linkState (d.portOfSlot slot) = LS.disabled then d.txPat slot = 0
  else Tab.get d.txQuiet slot false

/-- What lsl_<s>_tx_data of a lane slot carries (R182, R192, R194). In far-end loopback it returns what is received from UP_HOLD
on, where the lanes are aligned: log entry 93. -/
def Datapath.laneOut (d : Datapath) (slot : Nat) : LaneOut :=
  let p := d.portOfSlot slot
  let st := d.linkState p
  if !d.slotUsed slot then .off
  else if st = LS.disabled then (if d.txPat slot = 0 then .off else .pattern (d.txPat slot))
  else if st < LS.upHold then .remoteFault
  else if d.loopMode p = 2 then .returned
  else if st = LS.up then .frames
  else .idle

/-- The powers of x in the polynomial of a PRBS code, the degree first, without the 1 (R195). -/
def prbsTaps : Nat → List Nat
  | 1 => [7, 6] | 2 => [9, 5] | 3 => [13, 12, 2, 1] | 4 => [15, 14] | 5 => [23, 18] | 6 => [31, 28]
  | _ => []

/-- The next n bits of a shift register whose stages hold the bits sent last, the newest first: each bit sent is the sum of the
stages that the polynomial names. -/
def prbsRun (taps : List Nat) : Nat → List Bool → List Bool
  | 0, _ => []
  | n + 1, r =>
    let b := taps.foldl (fun v k => v != r.getD (k - 1) false) false
    b :: prbsRun taps n (b :: r.take (taps.headD 1 - 1))

/-- The first n bits that the generator of a lane slot sends for a pattern code. The start state is free but not 0, and O.150
inverts the sequences of degrees 15, 23 and 31: PRESUMED, log entry 93. -/
def Datapath.patternBits (d : Datapath) (slot code n : Nat) : List Bool :=
  let taps := prbsTaps code
  let deg := taps.headD 0
  let start := Config.patternSeed slot % (2 ^ deg - 1) + 1
  let user (k : Nat) : Bool := (d.rd F.penLaneUser_WORD (slot / 16) (k / 32 % 4)).testBit (k % 32)
  if code = 7 then (List.range n).map (fun k => k % 32 < 16)
  else if code = 8 then (List.range n).map user
  else (prbsRun taps n ((List.range deg).map start.testBit)).map (fun b => b != decide (4 ≤ code))

/-- The low-power idle kind of a port. -/
def Datapath.lpiOf (d : Datapath) (p : Nat) : LpiKind := lpiKind (d.width p) (d.rate p)

/-- The receive path of a port leaves low-power idle. -/
def Datapath.rxLpiClear (d : Datapath) (p : Nat) : Datapath :=
  (d.wr F.penLinkStat_RX_LPI 0 (p / 16) (p % 16)).setRxQuiet p false

/-- The transmit path of a port leaves low-power idle. -/
def Datapath.txLpiClear (d : Datapath) (p : Nat) : Datapath :=
  { (d.wr F.penLinkStat_TX_LPI 0 (p / 16) (p % 16)).setTxQuiet p false with waking := d.waking.filter (· ≠ p) }

/-! ## Transitions (R178, R180, R182, R183) -/

/-- A port leaves UP for a state: the frame in transmission is cut, its XOFF state clears, verification and its flock link
end (R182, R351, R413, R527). -/
def Datapath.leaveUp (d : Datapath) (p st : Nat) : Datapath :=
  let d := ((d.txCut p (if st = LS.remoteFault then .error else .left)).txLpiClear p).wr F.celFcStat_XOFF 0 p
  (d.verReset p).flkPortDown p

/-- A port enters UP (R413, R527). -/
def Datapath.enterUp (d : Datapath) (p : Nat) : Datapath := (d.verBegin p).flkPortUp p

/-- Whether a link state receives frames. -/
def rxState (st : Nat) : Bool := st = LS.up || st = LS.remoteFault

/-- A link moves to a state, with what leaving and entering states brings (R178, R180). -/
def Datapath.setLink (d : Datapath) (watch : Bool) (p st : Nat) : Datapath :=
  let old := d.linkState p
  if old = st then d
  else
    let pen := p / 16
    let i := p % 16
    let d := if old = LS.up then d.leaveUp p st else d
    let d := if rxState old && !rxState st then (d.rxCutAll watch p).pauseClear p else d
    let d := if LS.upHold ≤ old && st < LS.upHold then d.rxLpiClear p else d
    let d := if st = LS.disabled || st = LS.noSignal then (d.wr F.penLinkStat_LOCK 0 pen i).wr F.penLinkStat_HI_ERR 0 pen i else d
    let d := if rxState old || rxState st then d.wrBit F.penLinkChg_CHG i true pen else d
    let d := d.wr F.penLinkStat_STATE st pen i
    if st = LS.up then d.enterUp p else d

/-- A receive-side loss takes a link to a state; from UP and REMOTE_FAULT it is counted in LINK_DOWN (R180). -/
def Datapath.linkLost (d : Datapath) (watch : Bool) (p st : Nat) : Datapath :=
  (if rxState (d.linkState p) then d.tallyAdd p T.LINK_DOWN else d).setLink watch p st

/-! ## Events (R180, R181) -/

/-- Whether a link event of a line port can be taken: the port is carved and enabled, and no re-fold holds it down (R150). -/
def Datapath.hasLink (d : Datapath) (p : Nat) : Bool := d.carved p && d.enabled p && !d.linkHeld.contains p

/-- Lane loss (R180). -/
def Datapath.evLaneLoss (d : Datapath) (watch : Bool) (p : Nat) : Datapath :=
  let st := d.linkState p
  if d.hasLink p && LS.locking ≤ st && d.laneLoss p then d.linkLost watch p LS.noSignal else d

/-- Lock loss (R180). -/
def Datapath.evLockLoss (d : Datapath) (watch : Bool) (p : Nat) : Datapath :=
  let st := d.linkState p
  if d.hasLink p && LS.aligning ≤ st && !d.laneLoss p && d.lockLoss p then d.linkLost watch p LS.locking else d

/-- The lanes of a port that have lock change, or HI_ERR does: `lost` names the lanes without lock (R177, R180). -/
def Datapath.lockChange (d : Datapath) (watch : Bool) (p lost : Nat) (hiErr : Bool) : Datapath :=
  let pen := p / 16
  let i := p % 16
  if !d.hasLink p || d.linkState p < LS.locking then d
  else
    let lock := ofBits (d.width p) (fun k => !lost.testBit k)
    ((d.wr F.penLinkStat_LOCK lock pen i).wr F.penLinkStat_HI_ERR (b2n hiErr) pen i).evLockLoss watch p

/-- No lane loss in NO_SIGNAL: lock search starts (R180). -/
def Datapath.evSignal (d : Datapath) (watch : Bool) (p : Nat) : Datapath :=
  if d.hasLink p && d.linkState p = LS.noSignal && !d.laneLoss p then
    (d.wr F.penLinkStat_LOCK 0 (p / 16) (p % 16)).setLink watch p LS.locking
  else d

/-- Every lane locks in LOCKING (R180). -/
def Datapath.evLocked (d : Datapath) (watch : Bool) (p : Nat) : Datapath :=
  if d.hasLink p && d.linkState p = LS.locking && !d.laneLoss p then
    ((d.wr F.penLinkStat_LOCK (d.allLanes p) (p / 16) (p % 16)).wr F.penLinkStat_HI_ERR 0 (p / 16) (p % 16)).setLink watch p
      LS.aligning
  else d

/-- Whether no loss comes before another event of a link (R181). -/
def Datapath.linkSound (d : Datapath) (p st : Nat) : Bool :=
  d.hasLink p && d.linkState p = st && !d.laneLoss p && !d.lockLoss p

/-- The deskew result (R180, R185). -/
def Datapath.evDeskew (d : Datapath) (watch : Bool) (p : Nat) (ok : Bool) : Datapath :=
  if !d.linkSound p LS.aligning then d
  else if ok then d.setLink watch p LS.upHold
  else if d.width p = 1 then d
  else (d.tallyAdd p T.DESKEW_FAIL).setLink watch p LS.locking

/-- The hold timer reaches UP_HOLD (R180). -/
def Datapath.evHold (d : Datapath) (watch : Bool) (p : Nat) : Datapath :=
  if d.linkSound p LS.upHold then d.setLink watch p LS.up else d

/-- Remote fault is received or clears (R180). -/
def Datapath.evRemote (d : Datapath) (watch : Bool) (p : Nat) (fault : Bool) : Datapath :=
  if fault then (if d.linkSound p LS.up then d.setLink watch p LS.remoteFault else d)
  else if d.linkSound p LS.remoteFault then d.setLink watch p LS.up
  else d

/-- The state that a write of PEN_LINK_CTL_i takes a port's link to, `next` being the register file after it (R176, R180). -/
def Datapath.linkCtlTo (d next : Datapath) (p : Nat) : Nat :=
  if !next.flag F.penLinkCtl_ADMIN (p / 16) (p % 16) then LS.disabled
  else if d.linkState p = LS.disabled || next.loopMode p ≠ d.loopMode p then LS.noSignal
  else d.linkState p

/-- A write of PEN_LINK_CTL_i: ADMIN and LOOP act (R176, R180). What a change of state cuts and counts goes by the LOOP in force
before the write. -/
def Datapath.writeLinkCtl (d : Datapath) (watch : Bool) (p : Nat) (unl : Bool) (be : BitVec 4) (data : Word) : Datapath :=
  let old := d.linkState p
  let st := d.linkCtlTo (d.writeReg .penLinkCtl unl be data (p / 16) (p % 16)) p
  let d := (d.setLink watch p st).writeReg .penLinkCtl unl be data (p / 16) (p % 16)
  if old = LS.disabled && st ≠ LS.disabled then
    (d.lanesOf p).foldl (fun d l => d.wr F.penLaneTest_CHK_LOCK 0 (l / 16) (l % 16)) d
  else d

/-- The word of PEN_LINK_STAT_i: SIG and ALIGNED are computed (R177). -/
def Datapath.linkStatWord (d : Datapath) (p : Nat) : Word :=
  let st := d.linkState p
  putBits (putBits (RegFile.word d.regs .penLinkStat (p / 16) (p % 16)) 16 16 (b2n (LS.upHold ≤ st))) 7 0 (d.sigOf p)

/-! ## Low-power idle (R188 to R191) -/

/-- Whether a frame waits for a port's transmitter. -/
def Datapath.frameReady (d : Datapath) (lead p : Nat) : Bool :=
  d.ctrlPending p || (d.txPort p).tail.isSome || (d.inService p true).isSome || (d.inService p false).isSome ||
    d.candidates lead p true ≠ [] || d.candidates lead p false ≠ []

/-- IDLE_ENTRY passed without a frame (R188). -/
def Datapath.lpiEnter (d : Datapath) (lead p : Nat) : Datapath :=
  if d.hasLink p && d.pmLpiEn p && d.lpiOf p ≠ .none && !d.pmGated p && d.loopMode p = 0 && d.linkState p = LS.up &&
      !d.lpiBlocks p && !d.frameReady lead p then
    (d.wr F.penLinkStat_TX_LPI 1 (p / 16) (p % 16)).setTxQuiet p (d.lpiOf p = .deepSleep)
  else d

/-- A frame became ready in low-power idle: the wake begins (R188, R190). -/
def Datapath.lpiWake (d : Datapath) (lead p : Nat) : Datapath :=
  if d.flag F.penLinkStat_TX_LPI (p / 16) (p % 16) && d.frameReady lead p then
    let d := d.txLpiClear p
    { d with waking := d.waking ++ [p] }
  else d

/-- TW_TX passed since the wake began: frames start again (R188). -/
def Datapath.lpiWakeDone (d : Datapath) (p : Nat) : Datapath := { d with waking := d.waking.filter (· ≠ p) }

/-- The transmitter refreshes in deep sleep, or falls quiet again (R190). -/
def Datapath.lpiRefresh (d : Datapath) (p : Nat) (quiet : Bool) : Datapath :=
  if d.flag F.penLinkStat_TX_LPI (p / 16) (p % 16) && d.lpiOf p = .deepSleep then d.setTxQuiet p quiet else d

/-- A sleep or idle code is received, as from UP_HOLD on it can be (R191). -/
def Datapath.rxLpiEnter (d : Datapath) (p : Nat) : Datapath :=
  if d.hasLink p && d.lpiOf p ≠ .none && LS.upHold ≤ d.linkState p then
    (d.wr F.penLinkStat_RX_LPI 1 (p / 16) (p % 16)).setRxQuiet p (d.lpiOf p = .deepSleep)
  else d

/-- 4 ms passed without refresh or wake: RX_LPI clears and the link events apply at once (R191). -/
def Datapath.rxLpiTimeout (d : Datapath) (watch : Bool) (p : Nat) : Datapath :=
  if !d.flag F.penLinkStat_RX_LPI (p / 16) (p % 16) then d
  else
    let d := d.rxLpiClear p
    (d.evLaneLoss watch p).evLockLoss watch p

/-- A refresh is received, or ends (R191). -/
def Datapath.rxLpiRefresh (d : Datapath) (p : Nat) (quiet : Bool) : Datapath :=
  if d.flag F.penLinkStat_RX_LPI (p / 16) (p % 16) && d.lpiOf p = .deepSleep then d.setRxQuiet p quiet else d

/-! ## Test patterns (R194 to R196) -/

/-- Whether the pattern checker of a lane runs: its port has ADMIN = 0 and RX_PAT names a pattern. -/
def Datapath.checkerRuns (d : Datapath) (slot : Nat) : Bool :=
  let c := d.rd F.penLaneTest_RX_PAT (slot / 16) (slot % 16)
  d.slotUsed slot && 1 ≤ c && c ≤ 8 && !d.flag F.penLinkCtl_ADMIN (slot / 16) (d.portOfSlot slot % 16)

/-- 256 consecutive bits match: the checker locks, and counts the bit errors seen since (R196). -/
def Datapath.checkLock (d : Datapath) (slot errs : Nat) : Datapath :=
  if d.checkerRuns slot then
    (d.wr F.penLaneTest_CHK_LOCK 1 (slot / 16) (slot % 16)).count F.penLaneErrs_ERRS errs (slot / 16) (slot % 16)
  else d

/-- 16 consecutive words with 16 or more bit errors each, `errs` in all: they are counted, and the checker unlocks
(R196). -/
def Datapath.checkUnlock (d : Datapath) (slot errs : Nat) : Datapath :=
  if d.checkerRuns slot && d.flag F.penLaneTest_CHK_LOCK (slot / 16) (slot % 16) && 256 ≤ errs then
    (d.count F.penLaneErrs_ERRS errs (slot / 16) (slot % 16)).wr F.penLaneTest_CHK_LOCK 0 (slot / 16) (slot % 16)
  else d

/-- A write of PEN_LANE_TEST_j: a new RX_PAT seeds the checker again. -/
def Datapath.writeLaneTest (d : Datapath) (slot : Nat) (be : BitVec 4) (data : Word) : Datapath :=
  let old := d.rd F.penLaneTest_RX_PAT (slot / 16) (slot % 16)
  let d := d.writeReg .penLaneTest false be data (slot / 16) (slot % 16)
  if d.rd F.penLaneTest_RX_PAT (slot / 16) (slot % 16) = old then d
  else d.wr F.penLaneTest_CHK_LOCK 0 (slot / 16) (slot % 16)

/-! ## Commands -/

/-- Whether the block is in WATCH, where sentinel pens examine frames (R233). -/
def State.watching (s : State) : Bool := s.sh.seq.state = .watch

/-- SIGNAL_DETECT_CHANGE of a lane slot (R184). -/
def execSignalDetectChange (slot : Nat) (level : Bool) (s : State) : Out :=
  .next (s.onDp (fun d => { d with sigDet := Tab.put d.sigDet slot level false }))

/-- A write of PEN_LINK_CTL of line port p, where it exists. -/
def State.linkCtlWrite (s : State) (src : Src) (p : Nat) (be : BitVec 4) (data : Word) : State :=
  let a := Reg.penLinkCtl.addr (p / 16) (p % 16)
  s.regWrite src a (fun s => s.onDp (fun d => if d.carved p then d.writeLinkCtl s.watching p (s.mayWriteE src a) be data else d))

/-- LINK_ADMIN_DOWN: ADMIN of port p written 0 (R180). -/
def execLinkAdminDown (src : Src) (p : Nat) (be : BitVec 4) (data : Word) (s : State) : Out :=
  .next (s.linkCtlWrite src p (be ||| 1) (data &&& 0xFFFFFFFE))

/-- LINK_ADMIN_UP: ADMIN of port p written 1 (R180). -/
def execLinkAdminUp (src : Src) (p : Nat) (be : BitVec 4) (data : Word) (s : State) : Out :=
  .next (s.linkCtlWrite src p (be ||| 1) (data ||| 1))

/-- LINK_LOOP_CHANGE: LOOP of port p written, with ADMIN = 1 (R180). -/
def execLinkLoopChange (src : Src) (p mode : Nat) (be : BitVec 4) (data : Word) (s : State) : Out :=
  .next (s.linkCtlWrite src p (be ||| 1) ((data &&& 0xFFFFFFCE) ||| BitVec.ofNat 32 (mode % 4 * 16 + 1)))

/-- LANE_LOSS on line port p (R180). -/
def execLaneLoss (p : Nat) (s : State) : Out := .next (s.onDp (fun d => d.evLaneLoss s.watching p))

/-- SIGNAL_PRESENT on line port p (R180). -/
def execSignalPresent (p : Nat) (s : State) : Out := .next (s.onDp (fun d => d.evSignal s.watching p))

/-- LANES_LOCKED on line port p (R180). -/
def execLanesLocked (p : Nat) (s : State) : Out := .next (s.onDp (fun d => d.evLocked s.watching p))

/-- LOCK_LOSS on line port p: lanes `lost` have no lock, HI_ERR takes a value (R180). -/
def execLockLoss (p lost : Nat) (hiErr : Bool) (s : State) : Out := .next (s.onDp (fun d => d.lockChange s.watching p lost hiErr))

/-- DESKEW_SUCCESS on line port p (R185). -/
def execDeskewSuccess (p : Nat) (s : State) : Out := .next (s.onDp (fun d => d.evDeskew s.watching p true))

/-- DESKEW_FAIL on line port p (R185). -/
def execDeskewFail (p : Nat) (s : State) : Out := .next (s.onDp (fun d => d.evDeskew s.watching p false))

/-- UP_HOLD_EXPIRE on line port p (R180). -/
def execUpHoldExpire (p : Nat) (s : State) : Out := .next (s.onDp (fun d => d.evHold s.watching p))

/-- REMOTE_FAULT_RECEIVED on line port p (R180). -/
def execRemoteFaultReceived (p : Nat) (s : State) : Out := .next (s.onDp (fun d => d.evRemote s.watching p true))

/-- REMOTE_FAULT_CLEARED on line port p (R180). -/
def execRemoteFaultCleared (p : Nat) (s : State) : Out := .next (s.onDp (fun d => d.evRemote s.watching p false))

/-- LPI_ENTER on line port p (R188). -/
def execLpiEnter (p : Nat) (s : State) : Out := .next (s.onDp (fun d => d.lpiEnter s.lead p))

/-- LPI_WAKE on line port p (R188). -/
def execLpiWake (p : Nat) (s : State) : Out := .next (s.onDp (fun d => d.lpiWake s.lead p))

/-- LPI_WAKE_DONE on line port p (R188). -/
def execLpiWakeDone (p : Nat) (s : State) : Out := .next (s.onDp (fun d => d.lpiWakeDone p))

/-- RX_LPI_ENTER on line port p (R191). -/
def execRxLpiEnter (p : Nat) (s : State) : Out := .next (s.onDp (fun d => d.rxLpiEnter p))

/-- RX_LPI_EXIT on line port p (R191). -/
def execRxLpiExit (p : Nat) (s : State) : Out := .next (s.onDp (fun d => d.rxLpiClear p))

/-- RX_LPI_TIMEOUT on line port p (R191). -/
def execRxLpiTimeout (p : Nat) (s : State) : Out := .next (s.onDp (fun d => d.rxLpiTimeout s.watching p))

/-- PATTERN_CHECKER_LOCK of a lane slot; `errs` bit errors are seen once locked (R196). -/
def execPatternCheckerLock (slot errs : Nat) (s : State) : Out := .next (s.onDp (fun d => d.checkLock slot errs))

/-- PATTERN_CHECKER_UNLOCK of a lane slot after `errs` bit errors (R196). -/
def execPatternCheckerUnlock (slot errs : Nat) (s : State) : Out := .next (s.onDp (fun d => d.checkUnlock slot errs))

/-- LPI_REFRESH on line port p (R190). -/
def execLpiRefresh (p : Nat) (quiet : Bool) (s : State) : Out := .next (s.onDp (fun d => d.lpiRefresh p quiet))

/-- RX_LPI_REFRESH on line port p (R191). -/
def execRxLpiRefresh (p : Nat) (quiet : Bool) (s : State) : Out := .next (s.onDp (fun d => d.rxLpiRefresh p quiet))

end Sys2Proof.Machine
end

