-- ==== Sys2Proof/Machine/RxRows.lean ====
section
/-! DEFINITION. The commands of the receive MAC (spec/07). A command of a frame in reception carries the bytes that
have arrived since the command before it. -/

namespace Sys2Proof.Machine

/-- A write of PEN_RX_CTL_i: WD_EN bits act as they are written (R223). -/
def Datapath.writeRxCtl (d : Datapath) (p : Nat) (unl : Bool) (be : BitVec 4) (data : Word) : Datapath :=
  let d := d.writeReg .penRxCtl unl be data (penOf p) (slotOf p)
  if be.getLsbD 1 then d.wdWritten p else d

/-- The words of PEN_RX_PAUSE_STAT_i and PEN_RX_STAGE_STAT (R217, R222): BYTES_HWM is never below the present total. -/
def Datapath.pauseStatWord (d : Datapath) (p : Nat) : Word :=
  BitVec.ofNat 32 (ofBits 8 (fun c => (d.pauseOf p c).st = .storm) * 256 + ofBits 8 (fun c => (d.pauseOf p c).st = .paused))
def Datapath.stageStatWord (d : Datapath) (pen : Nat) : Word :=
  let now := d.stagedBytes pen / 32
  let w := putBits (RegFile.word d.regs .penRxStageStat pen 0) 31 20 (max (d.rd F.penRxStageStat_BYTES_HWM pen) now)
  putBits (putBits w 19 8 now) 7 0 (d.stagedOf pen).length

/-- What arrives on lsl_rx_data reaches a port's receive path, but in near-end loopback (R192). -/
def Datapath.fromLanes (d : Datapath) (p : Nat) (g : Datapath → Datapath) : Datapath := if d.loopMode p = 1 then d else g d

/-! ## Commands -/

/-- RX_FRAME_START on line port p: the byte at the start delimiter and, after SMD-C, the fragment count byte (R215). -/
def execRxFrameStart (p smd frag : Nat) (s : State) : Out :=
  .next (s.onDp (fun d => if d.carved p then d.fromLanes p (fun d => d.rxStart s.watching p smd frag (d.rxTime p)) else d))

/-- RX_ADDRESS_FILTER on line port p: bytes up to byte 5 have arrived (R213). -/
def execRxAddressFilter (p : Nat) (bs : List Byte) (s : State) : Out := .next (s.onDp (fun d => d.fromLanes p (fun d => d.rxBytes s.watching p bs)))

/-- RX_FRAME_READY on line port p: bytes up to byte 255, or to the frame's end, have arrived (R214). -/
def execRxFrameReady (p : Nat) (bs : List Byte) (s : State) : Out := .next (s.onDp (fun d => d.fromLanes p (fun d => d.rxBytes s.watching p bs)))

/-- RX_FRAME_TRUNCATE on line port p: byte effective MAX_LEN + 1 has arrived (R206). -/
def execRxFrameTruncate (p : Nat) (bs : List Byte) (s : State) : Out := .next (s.onDp (fun d => d.fromLanes p (fun d => d.rxBytes s.watching p bs)))

/-- FLOCK_HEADER_CHECK on line port p: bytes up to byte 17 have arrived (R518). -/
def execFlockHeaderCheck (p : Nat) (bs : List Byte) (s : State) : Out := .next (s.onDp (fun d => d.fromLanes p (fun d => d.rxBytes s.watching p bs)))

/-- RX_FRAME_END on line port p, with the frame's last bytes (R205). -/
def execRxFrameEnd (p : Nat) (bs : List Byte) (s : State) : Out := .next (s.onDp (fun d => d.fromLanes p (fun d => d.rxEnd s.watching p bs)))

/-- RX_FRAME_CUT on line port p: an error character arrives after the bytes (R209). -/
def execRxFrameCut (p : Nat) (bs : List Byte) (s : State) : Out := .next (s.onDp (fun d => d.fromLanes p (fun d => d.rxCut s.watching p bs)))

/-- PAUSE_TIMER_EXPIRE of class c of port p (R221). -/
def execPauseTimerExpire (p c : Nat) (s : State) : Out := .next (s.onDp (fun d => d.pauseTimer p c))

/-- PAUSE_WATCHDOG_EXPIRE of class c of port p (R223). -/
def execPauseWatchdogExpire (p c : Nat) (s : State) : Out := .next (s.onDp (fun d => d.pauseWatchdog p c))

/-- STORM_RESTORE_EXPIRE of class c of port p (R223). A pausing frame of the same cycle keeps the class in STORM (R224). -/
def execStormRestoreExpire (p c : Nat) (s : State) : Out :=
  .next (if s.dp.meets .pauseFrame (8 * p + c) && Config.sameClock 0 s.freeSeed then { s with freeSeed := s.freeSeed + 1 }
         else s.onDp (fun d => d.stormRestore p c))

/-- WATCHDOG_ENABLE_WRITE: a write of PEN_RX_CTL of port p that reaches WD_EN (R223). -/
def execWatchdogEnableWrite (src : Src) (p : Nat) (be : BitVec 4) (data : Word) (s : State) : Out :=
  let a := Reg.penRxCtl.addr (penOf p) (slotOf p)
  .next (s.regWrite src a (fun s =>
    s.onDp (fun d => if d.carved p then d.writeRxCtl p (s.mayWriteE src a) (be ||| 2) data else d)))

/-- RX_FRAGMENT_END on line port p, with the fragment's last bytes (R228). -/
def execRxFragmentEnd (p : Nat) (bs : List Byte) (s : State) : Out := .next (s.onDp (fun d => d.fromLanes p (fun d => d.rxFragmentEnd s.watching p bs)))

/-- VERIFY_FRAME_RECEIVED on line port p, with the frame's last bytes (R414). -/
def execVerifyFrameReceived (p : Nat) (bs : List Byte) (s : State) : Out := .next (s.onDp (fun d => d.fromLanes p (fun d => d.mmEnd p 0x07 bs)))

/-- RESPOND_FRAME_RECEIVED on line port p, with the frame's last bytes (R413). -/
def execRespondFrameReceived (p : Nat) (bs : List Byte) (s : State) : Out := .next (s.onDp (fun d => d.fromLanes p (fun d => d.mmEnd p 0x19 bs)))

end Sys2Proof.Machine
end

