-- ==== Sys2Proof/Machine/FoldCore.lean ====
section
/-! DEFINITION. The fold loader's registers and the start of its operations (spec/04): FLD_CMD, errors, PULL, PEEK,
CHECK, APPLY, REFOLD, ABORT. The value of a mirrored register is one field: the copy in PD19 follows it (R133). -/

namespace Sys2Proof.Machine

/-! ## Store and images -/

/-- LENGTH that the header at an offset of the store gives, at most what the store holds from there. -/
def Loader.lengthAt (l : Loader) (ofs : Nat) : Nat := min (leNat (l.store.reads (ofs + 0x10) 4)) (1048576 - ofs)

/-- The image at an offset of the store. -/
def Loader.image (l : Loader) (ofs : Nat) : List Byte := l.store.reads ofs (l.lengthAt ofs)

/-- The sections of the image at an offset of the store. -/
def Loader.sects (l : Loader) (ofs : Nat) : List Sect := sectionsOf (l.image ofs)

/-- The value of SHP_VERSION. -/
def blockVersion : Nat := (Reg.shpVersion.resetWord 0 0).toNat

/-- The check of an image at an offset of the store, as a full image or as a partial image for a pen (R143, R150). Header bytes beyond
the end of the store are free bytes: DESIGN CHOICE, log entry 110. -/
def Loader.check (l : Loader) (ofs : Nat) (part : Option Nat) : Option FldErr :=
  match headerErr (l.store.reads ofs 64) (1048576 - ofs) blockVersion part.isSome with
  | some e => some e
  | none => bodyErr (l.image ofs) part (match part with
    | some _ => l.sects 0
    | none => [])

/-! ## Registers -/

/-- Applies f to the loader. -/
def Shepherd.onFld (h : Shepherd) (f : Loader → Loader) : Shepherd := { h with fld := f h.fld }

/-- The eight words of a digest go to FLD_DIGEST. -/
def Shepherd.setDigest (h : Shepherd) (ws : List Nat) : Shepherd :=
  loop 8 (fun i h => h.wr F.fldDigest_H (ws.getD i 0) i) h

/-- Whether FLD_DIGEST equals FLD_EXPECT. -/
def Shepherd.digestOk (h : Shepherd) : Bool :=
  (List.range 8).all (fun i => h.rd F.fldDigest_H i = h.rd F.fldExpect_H i)

/-- FLD_OFS.WOFS as a byte offset. -/
def Shepherd.fldByte (h : Shepherd) : Nat := 4 * h.rd F.fldOfs_WOFS

/-- n rounded up to a multiple of 64. -/
def up64 (n : Nat) : Nat := (n + 63) / 64 * 64

/-! ## The loader's requests on the link -/

/-- Removes the loader's waiting request from the link. -/
def Link.dropLoader (l : Link) : Link := { l with fifo := l.fifo.filter (fun r => !r.loader) }

/-- The sections that an operation streams to FLD_APPLY, in image order (R146, R148, R150, R608). -/
def Loader.stream (l : Loader) : List Sect :=
  match l.state with
  | .apply => (l.sects 0).filter (fun x => x.typ ≠ 1)
  | .refold => l.sects l.ofs
  | .restore => (l.sects 0).filter (fun x =>
      x.typ ≠ 1 && !x.skip && (x.pen = 0xFF || !l.kept.contains (penDomain x.pen)))
  | _ => []

/-- Words of a list of sections' payloads. -/
def streamWords (l : List Sect) : Nat := (l.map (fun x => x.payload.length / 4)).foldl (· + ·) 0

/-- The loader's next request, if the operation has words left (R140, R141, R146). -/
def Loader.request (l : Loader) : Option LinkReq :=
  if l.len ≤ l.pos then none
  else
    let w (a : Nat) (d : Nat) : LinkReq :=
      { master := l.port, loader := true, write := true, addr := a, be := 0xF, data := BitVec.ofNat 32 d }
    match l.state with
    | .pull => some { master := l.port, loader := true, write := false, addr := Reg.fldStage.addr l.pos 0, be := 0xF,
                      data := 0 }
    | .peek => some (w (Reg.fldStage.addr l.pos 0) (leNat (l.store.reads (l.ofs + 4 * l.pos) 4)))
    | .apply => some (w (Reg.fldApply.addr 0 0) (le (l.stream.flatMap (fun x => x.payload)) (4 * l.pos) 4))
    | .refold => some (w (Reg.fldApply.addr 0 0) (le (l.stream.flatMap (fun x => x.payload)) (4 * l.pos) 4))
    | .restore => some (w (Reg.fldApply.addr 0 0) (le (l.stream.flatMap (fun x => x.payload)) (4 * l.pos) 4))
    | _ => none

/-- The loader's next request goes to the link. -/
def Shepherd.fldSend (h : Shepherd) : Shepherd :=
  match h.fld.request with
  | some r => { h with link := { h.link with fifo := h.link.fifo ++ [r] } }
  | none => h

/-! ## End of an operation (R137, R144, R145, R625) -/

/-- The loader goes idle. -/
def Shepherd.fldIdle (h : Shepherd) : Shepherd :=
  { h with fld := { h.fld with state := .idle, busyRefused := false }, link := h.link.dropLoader }

/-- An error is recorded in FLD_STAT.ERR and FLD_ERR_INFO. -/
def Shepherd.fldErr (h : Shepherd) (e : FldErr) : Shepherd :=
  ((h.wr F.fldStat_ERR e.code).wr F.fldErrInfo_SECTION e.sect).wr F.fldErrInfo_OFFSET e.ofs

/-- The running operation ends without error. -/
def Shepherd.fldDone (h : Shepherd) : Shepherd :=
  let evt := if h.fld.state = .restore then F.fldEvt_RESTORED else F.fldEvt_DONE
  ((h.wr F.fldStat_ERR (if h.fld.busyRefused then FE.busy else 0)).wr evt 1).fldIdle

/-- An operation ends in error, or fails as it starts. A re-fold that fails in HOLD or REFOLD leaves its pen held
(R150, R151); a wake restore clears IN_FORCE (R148), and CRUISE_OK, FLD_FORCE_ID and FLD_FORCE_LEN keep their values: DESIGN CHOICE,
log entry 109. -/
def Shepherd.fldFail (h : Shepherd) (e : FldErr) : Shepherd :=
  let restoring := h.fld.state = .restore
  let held := h.fld.state = .hold || h.fld.state = .refold
  let h := h.fldErr e
  let h := if restoring then (h.wr F.fldEvt_RESTORE_ERR 1).wr F.fldStat_IN_FORCE 0 else h.wr F.fldEvt_ERROR 1
  (h.onFld (fun l => if held then { l with held := (l.pen :: l.held).eraseDups } else l)).fldIdle

/-- An operation ends in error; an abandoned re-fold clears its discard reason (R358), and no longer holds its ports down: the
model's choice, log entry 48. -/
def State.fldFail (s : State) (e : FldErr) : State :=
  { s with sh := s.sh.fldFail e, dp := { s.dp with cel := { s.dp.cel with refold := [] }, linkHeld := [] } }

/-! ## Start of operations -/

/-- An operation starts. The lending port goes first in its slot (R142). -/
def Shepherd.fldBegin (h : Shepherd) (m : RPort) (st : FldState) (ofs len pen : Nat) : Shepherd :=
  let h := { h with link := h.link.setSlot m { h.link.slot m with loaderLast := true } }
  h.onFld (fun l => { l with state := st, port := m, ofs := ofs, len := len, pen := pen, pos := 0, busyRefused := false })

/-- The range test of R140 and R141. -/
def Shepherd.stageRangeOk (h : Shepherd) : Bool :=
  let n := h.rd F.fldLen_LEN
  n % 4 = 0 && 4 ≤ n && n ≤ 32768 && h.fldByte + n ≤ 1048576

/-- PULL (R140). A PULL that fails both tests reports STAGE_RANGE: the model's choice, log entry 43. -/
def State.fldPull (s : State) (m : RPort) : State :=
  let n := s.sh.rd F.fldLen_LEN
  if !s.sh.stageRangeOk then s.fldFail { code := FE.stageRange }
  else if s.sh.flag F.fldStat_IN_FORCE && s.sh.fldByte < s.sh.rd F.fldForceLen_LEN then s.fldFail { code := FE.forceRegion }
  else s.onSh (fun h => (h.fldBegin m .pull h.fldByte (n / 4) 0).fldSend)

/-- PEEK (R141). -/
def State.fldPeek (s : State) (m : RPort) : State :=
  if !s.sh.stageRangeOk then s.fldFail { code := FE.stageRange }
  else s.onSh (fun h => (h.fldBegin m .peek h.fldByte (h.rd F.fldLen_LEN / 4) 0).fldSend)

/-- The POWER_PLAN fields go to their registers (R616). -/
def Shepherd.loadPowerPlan (h : Shepherd) (r : List Byte) : Shepherd :=
  let rt := le r 3 1
  let h := ((((h.wr F.pwrRetain_QCTX (rt % 2)).wr F.pwrRetain_CELLAR (rt / 2)).wr F.pwrRetain_LARDER (rt / 4)).wr
    F.pwrRetain_FLOWCNT (rt / 8))
  let h := ((h.wr F.pwrSentinel_DOM (le r 4 1)).wr F.pwrTrimIdle_NS (le r 6 2)).wr F.pwrSettle_US (le r 8 2)
  loop 20 (fun n h => h.wr F.pwrVolt_MV (le r (0x0C + 2 * n) 2) n) h

/-- The POWER_PLAN record of a list of sections. -/
def powerPlanOf (l : List Sect) : Option (List Byte) := Tab.find (sectRecords l 1 0xFF) 0

/-- APPLY (R146): POWER_PLAN is applied inside the shepherd, the other sections stream to the apply engine. -/
def State.fldApply (s : State) (m : RPort) : State :=
  let h := s.sh
  if !h.flag F.fldStat_STORED_OK then s.fldFail { code := FE.notChecked }
  else if h.flag F.fldStat_IN_FORCE then s.fldFail { code := FE.inForce }
  else if h.flag F.fldCtl_DIGEST_LOCK && !h.digestOk then s.fldFail { code := FE.digestMismatch }
  else
    let h := match powerPlanOf (h.fld.sects 0) with
      | some r => h.loadPowerPlan r
      | none => h
    let h := h.fldBegin m .apply 0 0 0
    { s with sh := (h.onFld (fun l => { l with len := streamWords l.stream })).fldSend }

/-- The spliced image of a re-fold (R152). -/
def Loader.spliced (l : Loader) (ofs pen : Nat) : List Byte :=
  buildImage (l.store.reads 0 64) (spliceSects (l.sects 0) (l.sects ofs) pen)

/-- REFOLD for a pen (R150, R152). The code of the error with no image in force is a free value: no rule names it. The order
of the tests, and that they take no time, so that the loader is IDLE until HOLD, are the model's choice: log entry 43. -/
def State.fldRefold (s : State) (m : RPort) (pen : Nat) : State :=
  let h := s.sh
  let x := h.fldByte
  if !h.flag F.fldStat_IN_FORCE then
    { s.fldFail { code := Config.freeNat s.freeSeed % 256 } with freeSeed := s.freeSeed + 1 }
  else if !h.domOn (penDomain pen) then s.fldFail { code := FE.domainOff }
  else
    match h.fld.check x (some pen) with
    | some e => s.fldFail e
    | none =>
      let s := s.onSh (fun h => h.setDigest (sha256 (h.fld.image x)))
      if s.sh.flag F.fldCtl_DIGEST_LOCK && !s.sh.digestOk then s.fldFail { code := FE.digestMismatch }
      else if x < up64 (s.sh.rd F.fldForceLen_LEN) ||
          1048576 < x + up64 (s.sh.fld.lengthAt x) + (s.sh.fld.spliced x pen).length then
        s.fldFail { code := FE.storeSpace }
      else s.onSh (fun h => h.fldBegin m .hold x 0 pen)

/-- ABORT (R145). -/
def State.fldAbort (s : State) : State :=
  match s.sh.fld.state with
  | .idle => s
  | .splice => s
  | .restore => s
  | _ => s.fldFail { code := FE.aborted }

/-- A write of FLD_CMD by a port (R135, R145). -/
def State.fldCmd (s : State) (m : RPort) (be : BitVec 4) (data : Word) : State :=
  if !be.getLsbD 0 then s
  else
    let op := F.fldCmd_OP.wo be data
    if op = 0xF then s.fldAbort
    else if s.sh.fld.state ≠ .idle then s.onSh (fun h => h.onFld (fun l => { l with busyRefused := true }))
    else
      match op with
      | 1 => s.fldPull m
      | 2 => s.onSh (fun h => h.fldBegin m .check 0 0 0)
      | 3 => s.fldApply m
      | 4 => s.fldRefold m (F.fldCmd_PEN.wo be data)
      | 5 => s.fldPeek m
      | _ => s.fldFail { code := FE.badCmd }

/-- Writes the enabled bytes of a word of FLD_STAGE. -/
def Datapath.writeStage (d : Datapath) (w : Nat) (be : BitVec 4) (data : Word) : Datapath :=
  { d with stage := loop 4 (fun k m =>
      if be.getLsbD k then m.write (4 * w + k) (BitVec.ofNat 8 (data.toNat / 2 ^ (8 * k))) else m) d.stage }

/-- A write of an FLD register. FLD_CMD takes commands from the register ports alone (R550). -/
def State.writeFld (s : State) (src : Src) (r : Reg) (i : Nat) (be : BitVec 4) (data : Word) : State :=
  match r with
  | .fldCmd => (match src with
    | .port m => s.fldCmd m be data
    | _ => s)
  | .fldStage => s.onDp (fun d => d.writeStage i be data)
  | r => s.onSh (fun h => h.writeReg r false be data i)

/-- STATE of FLD_STAT (R137). -/
def FldState.code : FldState → Nat
  | .idle => 0 | .pull => 1 | .check => 2 | .apply => 3 | .hold => 4 | .refold => 5 | .splice => 6 | .peek => 7
  | .restore => 8

/-- The word that a read of an FLD register returns (R136 to R139). -/
def State.fldWord (s : State) (r : Reg) (i : Nat) : Word :=
  let w := r.readWord (RegFile.word s.sh.regs r i 0)
  match r with
  | .fldStat => putBits w 3 0 s.sh.fld.state.code
  | .fldEvt => putBits w 4 4 (b2n (s.sh.fld.state ≠ .idle))
  | .fldStage => BitVec.ofNat 32 (leNat (s.dp.stage.reads (4 * i) 4))
  | _ => w

/-- A write of FLD_CMD with an OP and a PEN. -/
def State.fldCommand (m : RPort) (op pen : Nat) (s : State) : State :=
  s.regWrite (.port m) (Reg.fldCmd.addr 0 0) (fun s => s.fldCmd m 0xF (BitVec.ofNat 32 (pen % 64 * 2 ^ 16 + op)))

/-! ## Commands -/

/-- PULL: FLD_CMD PULL by port m (R140). -/
def execPull (m : RPort) (s : State) : Out := .next (s.fldCommand m 1 0)

/-- PEEK: FLD_CMD PEEK by port m (R141). -/
def execPeek (m : RPort) (s : State) : Out := .next (s.fldCommand m 5 0)

/-- CHECK: FLD_CMD CHECK by port m (R143). -/
def execCheck (m : RPort) (s : State) : Out := .next (s.fldCommand m 2 0)

/-- APPLY: FLD_CMD APPLY by port m (R146). -/
def execApply (m : RPort) (s : State) : Out := .next (s.fldCommand m 3 0)

/-- REFOLD: FLD_CMD REFOLD of a pen by port m (R150). -/
def execRefold (m : RPort) (pen : Nat) (s : State) : Out := .next (s.fldCommand m 4 pen)

/-- ABORT: FLD_CMD ABORT by port m (R145). -/
def execAbort (m : RPort) (s : State) : Out := .next (s.fldCommand m 0xF 0)

/-- CHECK_END: the check pass of the image at offset 0 ends (R143). -/
def execCheckEnd (s : State) : Out :=
  .next (if s.sh.fld.state ≠ .check then s
    else match s.sh.fld.check 0 none with
      | some e => (s.onSh (fun h => h.wr F.fldStat_STORED_OK 0)).fldFail e
      | none => s.onSh (fun h => ((h.wr F.fldStat_STORED_OK 1).setDigest (sha256 (h.fld.image 0))).fldDone))

end Sys2Proof.Machine
end

