-- ==== Sys2Proof/Machine/Tallies.lean ====
section
/-! DEFINITION. Tally registers and commands (spec/20): the shadows of the readers, writes, snapshots. -/

namespace Sys2Proof.Machine

/-- The port and tally that index m of a pen names, if both exist (R572). -/
def Datapath.tallyAt (d : Datapath) (pen m : Nat) : Option Nat :=
  if d.portIndex pen (m / 128) && m % 128 < 96 then some (128 * portAt pen (m / 128) + m % 128) else none

/-- The shadow of a reader for a pen (R574). -/
def Datapath.tShadow (d : Datapath) (rdr pen : Nat) : Nat × Bool := Tab.get d.tallyShadow (40 * rdr + pen) (0, false)

/-- Loads the shadow of a reader for a pen. -/
def Datapath.setTShadow (d : Datapath) (rdr pen : Nat) (x : Nat × Bool) : Datapath :=
  { d with tallyShadow := Tab.put d.tallyShadow (40 * rdr + pen) x (0, false) }

/-- A read of PEN_TALLY_LO_m (R574). -/
def Datapath.readTallyLo (d : Datapath) (rdr pen m : Nat) : Datapath × Word :=
  match d.tallyAt pen m with
  | none => (d, 0)
  | some k =>
    let v := Tab.get d.tally k 0
    (d.setTShadow rdr pen (v / 2 ^ 32, Tab.get d.tallyWrap k false), BitVec.ofNat 32 v)

/-- A read of PEN_TALLY_HI_m (R574). -/
def Datapath.readTallyHi (d : Datapath) (rdr pen m : Nat) : Word :=
  match d.tallyAt pen m with
  | none => 0
  | some _ => let x := d.tShadow rdr pen; BitVec.ofNat 32 (x.1 + b2n x.2 <<< 31)

/-- A write of PEN_TALLY_HI_m (R575). -/
def Datapath.writeTallyHi (d : Datapath) (rdr pen m : Nat) (be : BitVec 4) (data : Word) : Datapath :=
  match d.tallyAt pen m with
  | none => d
  | some _ =>
    let x := d.tShadow rdr pen
    d.setTShadow rdr pen ((mergeBytes be data (BitVec.ofNat 32 x.1)).toNat % 2 ^ 24, x.2)

/-- A write or a CLEAR displaces what came of tally m in its own clock: the bit of PEN_TALLY_EVT that the last increment set
is set no longer, where the two share a clock, which is a free choice (R576, R577; log entry 84). -/
def Datapath.displace (d : Datapath) (m : Nat) : Datapath :=
  [0, 1].foldl (fun (d : Datapath) kind =>
    if d.meets .tallyEvt (2 * m + kind) then
      let d' := { d with cel := { d.cel with draws := d.cel.draws + 1 } }.unmeet .tallyEvt (2 * m + kind)
      if Config.sameClock 6 d.cel.draws && !d'.evtNoted (m / 128) kind then
        d'.wrBit (evtField kind) (slotOf (m / 128)) false (penOf (m / 128))
      else d'
    else d) d

/-- A write of PEN_TALLY_LO_m (R575). -/
def Datapath.writeTallyLo (d : Datapath) (rdr pen m : Nat) (be : BitVec 4) (data : Word) : Datapath :=
  match d.tallyAt pen m with
  | none => d
  | some k =>
    let v := Tab.get d.tally k 0
    let lo := (mergeBytes be data (BitVec.ofNat 32 v)).toNat
    { d.displace k with
        tally := Tab.put d.tally k ((d.tShadow rdr pen).1 * 2 ^ 32 + lo) 0
        tallyWrap := Tab.put d.tallyWrap k false false }

/-- A read of PEN_TSNAP_LO_n or PEN_TSNAP_HI_n (R573). -/
def Datapath.readTsnap (d : Datapath) (pen n : Nat) (hi : Bool) : Word :=
  let x := if n < 96 then Tab.get d.snap (96 * pen + n) (0, false) else (0, false)
  BitVec.ofNat 32 (if hi then x.1 / 2 ^ 32 + b2n x.2 <<< 31 else x.1)

/-- The snapshot bank of a pen takes the tallies of a port (R579). -/
def Datapath.tallySnap (d : Datapath) (pen p : Nat) : Datapath :=
  loop 96 (fun n d =>
    let x := (Tab.get d.tally (128 * p + n) 0, Tab.get d.tallyWrap (128 * p + n) false)
    { d with snap := Tab.put d.snap (96 * pen + n) x (0, false) }) d

/-- Every tally of a port is set to 0 and its wrap flag cleared (R579). -/
def Datapath.tallyClear (d : Datapath) (p : Nat) : Datapath :=
  { d with tally := Tab.drop d.tally (fun k => k / 128 = p), tallyWrap := Tab.drop d.tallyWrap (fun k => k / 128 = p) }

/-- A write of PEN_TALLY_CTL (R579). -/
def Datapath.writeTallyCtl (d : Datapath) (pen : Nat) (be : BitVec 4) (data : Word) : Datapath :=
  let i := F.penTallyCtl_PORT.wo be data
  if !d.portIndex pen i then d
  else
    let snap := F.penTallyCtl_SNAP.wo be data = 1
    let d := if snap then d.tallySnap pen (portAt pen i) else d
    if F.penTallyCtl_CLEAR.wo be data = 1 then
      (if snap then d else loop 96 (fun n d => d.displace (128 * portAt pen i + n)) d).tallyClear (portAt pen i)
    else d

/-! ## Commands -/

/-- TALLY_LO_READ: a read of PEN_TALLY_LO_m of a pen (R574). -/
def execTallyLoRead (src : Src) (pen m : Nat) (s : State) : Out :=
  .next (s.regRead src (Reg.penTallyLo.addr pen m) (fun s =>
    let r := s.dp.readTallyLo (readerOf src) pen m
    ({ s with dp := r.1 }, r.2)))

/-- TALLY_HI_WRITE: a write of PEN_TALLY_HI_m of a pen (R575). -/
def execTallyHiWrite (src : Src) (pen m : Nat) (be : BitVec 4) (data : Word) (s : State) : Out :=
  .next (s.regWrite src (Reg.penTallyHi.addr pen m) (fun s =>
    s.onDp (fun d => d.writeTallyHi (readerOf src) pen m be data)))

/-- TALLY_LO_WRITE: a write of PEN_TALLY_LO_m of a pen (R575). -/
def execTallyLoWrite (src : Src) (pen m : Nat) (be : BitVec 4) (data : Word) (s : State) : Out :=
  .next (s.regWrite src (Reg.penTallyLo.addr pen m) (fun s =>
    s.onDp (fun d => d.writeTallyLo (readerOf src) pen m be data)))

/-- TALLY_SNAP: a write of PEN_TALLY_CTL with SNAP = 1 and the CLEAR bit given (R579). -/
def execTallySnap (src : Src) (pen i : Nat) (clear : Bool) (s : State) : Out :=
  .next (s.regWrite src (Reg.penTallyCtl.addr pen 0) (fun s =>
    s.onDp (fun d => d.writeTallyCtl pen 0xF (BitVec.ofNat 32 (1 <<< 31 + b2n clear <<< 30 + i % 16)))))

/-- TALLY_CLEAR: a write of PEN_TALLY_CTL with CLEAR = 1 and SNAP = 0 (R579). -/
def execTallyClear (src : Src) (pen i : Nat) (s : State) : Out :=
  .next (s.regWrite src (Reg.penTallyCtl.addr pen 0) (fun s =>
    s.onDp (fun d => d.writeTallyCtl pen 0xF (BitVec.ofNat 32 (1 <<< 30 + i % 16)))))

end Sys2Proof.Machine
end

