-- ==== Sys2Proof/Machine/RegSpace.lean ====
section
/-! DEFINITION. The register space behind the shepherd link: which positions exist, what a write of a register does,
what a read returns and clears (spec/23, and the register tables of the chapters). The command rows that name one
register run the same functions. -/

namespace Sys2Proof.Machine

/-- Whether a register position exists: a position that does not reads 0 and takes no write (R174, R198, R238, R394,
R478, R496, R572). -/
def Datapath.hasReg (d : Datapath) (r : Reg) (i j : Nat) : Bool :=
  let port (k : Nat) : Bool := i < 32 && d.carved (16 * i + k)
  match r with
  | .penLinkCtl => port j
  | .penLinkStat => port j
  | .penLpiCtl => port j
  | .penRxCtl => port j
  | .penRxFiltCtl => port j
  | .penRxPauseStat => port j
  | .penRxAddrLo => port (j / 8)
  | .penRxAddrHi => port (j / 8)
  | .penTxCtl => port j
  | .penTxFc => port j
  | .penTxSaLo => port j
  | .penTxSaHi => port j
  | .penMmCtl => port j
  | .penMmStat => port j
  | .penLaneTest => i < 32 && d.slotUsed (16 * i + j)
  | .penLaneErrs => i < 32 && d.slotUsed (16 * i + j)
  | .penLaneUser => i < 32
  | .penLinkChg => i < 32
  | .penRxStormChg => i < 32
  | .penRxTpid => i < 32
  | .penRxWd => i < 32
  | .penRxStageStat => i < 32
  | .penWakeData => i < 32
  | .penWakeMask => i < 32
  | .penWakeCtl => i < 32
  | .penWakeHit => i < 32
  | .penWakeCap => i < 32
  | .penMmChg => i < 32
  | .penParsePort => d.portIndex i j
  | .penTallyLo => d.portIndex i (j / 128) && j % 128 < 96
  | .penTallyHi => d.portIndex i (j / 128) && j % 128 < 96
  | .flkLcnt => i % 8 < 7
  | .timPortCfg => i < 518
  | .timPortAdj => i < 518
  | .stpQuota => i % 4 ≠ 0
  | .stpReqCfg => i % 8 < 6
  | .stpReqStat => i % 8 < 6
  | .stpReqCuts => i % 8 < 6
  | _ => true

/-! ## Writes -/

/-- A write of a datapath register whose effect is on the datapath alone: by access codes unless the register has
an effect of its own. `unl` tells whether E fields take it (R13, R15). -/
def Datapath.regWrite (d : Datapath) (rdr : Nat) (watch unl : Bool) (r : Reg) (i j : Nat) (be : BitVec 4) (data : Word) :
    Datapath :=
  match r with
  | .timCtl => d.writeTimCtl i unl be data
  | .timLogPop => d.writeLogPop be data
  | .timPoutCfg => d.writePoutCfg i be data
  | .cvuCtxCfg => d.cvuPlainWrite .cvuCtxCfg i be data
  | .cvuCtxCount => d.cvuPlainWrite .cvuCtxCount i be data
  | .cvuCtxCmd => d.cvuCmd i be data
  | .cvuCtxFeed => d.cvuFeed i be data
  | .cvuCtxState => d.cvuStateWrite i be data
  | .hdmChCfg => d.writeHdmChan r i be data
  | .hdmChSrcLo => d.writeHdmChan r i be data
  | .hdmChSrcHi => d.writeHdmChan r i be data
  | .hdmChDstLo => d.writeHdmChan r i be data
  | .hdmChDstHi => d.writeHdmChan r i be data
  | .hdmChCount => d.writeHdmChan r i be data
  | .hdmCtl => d.writeHdmRoot be data
  | .hdmCplPop => d.writeHdmPop be data
  | .pmnCtl => d.writePmnCtl be data
  | .pmnCfg => d.writePmnCfg i be data
  | .pmnCntLo => d.writePmnLo rdr i be data
  | .pmnCntHi => d.writePmnHi rdr be data
  | .pmnCycleLo => d.writePmnLo rdr 8 be data
  | .pmnCycleHi => d.writePmnHi rdr be data
  | .flkCtl => d.writeFlkCtl be data
  | .penLinkCtl => d.writeLinkCtl watch (16 * i + j) unl be data
  | .penLaneTest => d.writeLaneTest (16 * i + j) be data
  | .penRxCtl => d.writeRxCtl (16 * i + j) unl be data
  | .penMmCtl => d.writeMmCtl (16 * i + j) be data
  | .penTallyLo => d.writeTallyLo rdr i j be data
  | .penTallyHi => d.writeTallyHi rdr i j be data
  | .penTallyCtl => d.writeTallyCtl i be data
  | .larAttic0 => d.writeAtticWord r 0 be data
  | .larAttic => d.writeAtticWord r i be data
  | .larEpochReq => d.writeEpochReq be data
  | .actCmd => d.writeActCmd be data
  | .actSampCfg => d.writeSampCfg i unl be data
  | .celRedSeed => d.writeRedSeed be data
  | .celFlushCmd => d.flushCmd (F.celFlushCmd_PORT.wo be data) (F.celFlushCmd_TC.wo be data)
  | .celPortCfg => d.writeCelPort i be data
  | .celQCfg => d.writeQCfg i be data
  | .timCorrWd => d.writeCorrWd i be data
  | .drvGateCtl => d.writeGateCtl i be data
  | .drvGclLo => d.writeGcl r i be data
  | .drvGclHi => d.writeGcl r i be data
  | .drvClassCfg => d.writeClassCfg i be data
  | .trgTxqCtl => d.writeTrgCtx r i be data
  | .trgRxqCtl => d.writeTrgCtx r i be data
  | .trgCqCtl => d.writeTrgCtx r i be data
  | .stpCfg => d.writeStp r unl i be data
  | .stpQuota => d.writeStp r unl i be data
  | .stpPortCfg => d.writeStp r unl i be data
  | .stpReqCfg => d.writeStp r unl i be data
  | _ => if isCtx r then d.writeTrgCtx r i be data else d.writeReg r unl be data i j

/-- The W1C field that keeps a capture of the datapath, by its register, and what an event in the clock of its clear
meets. -/
def captureFlag : Reg → Option (Meeting × RegField)
  | .penParseStat => some (.parseNew, F.penParseStat_NEW)
  | .stpErrCtl => some (.storeNew, F.stpErrCtl_NEW)
  | .timPinNs => some (.pinNew, F.timPinNs_NEW)
  | .hdmErrInfo => some (.dmaNew, F.hdmErrInfo_NEW)
  | .penWakeHit => some (.wakeHit, F.penWakeHit_HIT)
  | _ => none

/-- After a write that has cleared such a field, an event that comes before the next tick falls in the clock of the clear or
not: a free choice, log entry 84. -/
def State.noteClear (s : State) (was : Datapath) (r : Reg) (i : Nat) : State :=
  match captureFlag r with
  | some (k, f) =>
    if was.rd f i ≠ 0 && s.dp.rd f i = 0 then
      { (if Config.sameClock 0 s.freeSeed then s.onDp (fun d => d.meet k i) else s) with freeSeed := s.freeSeed + 1 }
    else s
  | none => s

/-- A write of a register of the datapath or of FLD by a source. The answer says whether it was accepted: a LAR_CMD or
attic push write may be held (R283, R287). -/
def State.writeReg (s : State) (src : Src) (r : Reg) (i j : Nat) (be : BitVec 4) (data : Word) : State × Bool :=
  if !s.dp.hasReg r i j then (s, true)
  else
    match unitOf (r.addr i j), r with
    | .shp, _ => (s, true)
    | .pwr, _ => (s, true)
    | .fld, r => (s.writeFld src r i be data, true)
    | _, .larCmd => let x := s.dp.writeLarCmd src be data; ({ s with dp := x.1 }, x.2)
    | _, .larLive => (s.writeLive be data, true)
    | _, .larCseed => (s.writeCseed i be data, true)
    | _, .hdmChCtl => (s.writeHdmCtl i be data, true)
    | _, .timAonTol =>
      let s := s.plainWrite src r i j be data
      (s.onSh (fun h => { h with aonTol := s.dp.rd F.timAonTol_PPB }), true)
    | _, r =>
      if r = .larAttic && i = 15 then let x := s.dp.writeAtticPush src be data; ({ s with dp := x.1 }, x.2)
      else
        ((s.onDp (fun d => d.regWrite (readerOf src) s.watching (s.mayWriteE src (r.addr i j)) r i j be data)).noteClear s.dp r i,
         true)

/-- A write at an address: nothing at an unlisted one (R12). -/
def State.performWrite (s : State) (src : Src) (addr : Nat) (be : BitVec 4) (data : Word) : State × Bool :=
  match Reg.ofAddr addr with
  | some (r, i, j) => s.writeReg src r i j be data
  | none => (s, true)

/-! ## Reads -/

/-- Word WORD of the record that PEN_TBL_SEL names (R254). -/
def Datapath.tblWord (d : Datapath) (pen : Nat) : Word :=
  let k := d.rd F.penTblSel_KIND pen
  let n := d.rd F.penTblSel_INDEX pen
  let w := d.rd F.penTblSel_WORD pen
  let r := match k with
    | 0 => if n < 1024 then Tab.get d.sortTab (1024 * pen + n) [] else []
    | 1 => if n < 256 then Tab.get d.profile (256 * pen + n) [] else []
    | 2 => Tab.get d.pattern (8192 * pen + n) []
    | _ => []
  BitVec.ofNat 32 (le r (4 * w) 4)

/-- The word that a read of a datapath register returns where it shows other state than the register file's, else
what the register file holds. -/
def Datapath.regWord (d : Datapath) (rdr : Nat) (r : Reg) (i j : Nat) : Word :=
  let n (v : Nat) : Word := BitVec.ofNat 32 v
  match r with
  | .timEvt => d.timEvtWord
  | .timLogStat => n (d.timLog i).length
  | .timTxlogHead => d.logHead 0 i
  | .timRxlogHead => d.logHead 1 i
  | .timNowSl => d.readTimSec rdr i false
  | .timNowSh => d.readTimSec rdr i true
  | .cvuCtxCfg => d.cvuCfgWord i
  | .cvuCtxState => d.cvuStateWord i
  | .cvuCtxResult => d.cvuResultWord i
  | .hdmStat => d.hdmStatWord
  | .hdmEvt => d.hdmEvtWord
  | .hdmCplHead => d.hdmHeadWord i
  | .hdmChLeft => d.hdmLeftWord i
  | .pmnStat => d.pmnStatWord
  | .pmnCntHi => d.readPmnHi rdr
  | .pmnCycleHi => d.readPmnHi rdr
  | .flkEvt => d.flkEvtWord
  | .penLinkStat => d.linkStatWord (16 * i + j)
  | .penRxPauseStat => d.pauseStatWord (16 * i + j)
  | .penRxStageStat => d.stageStatWord i
  | .penMmStat => d.mmStatWord (16 * i + j)
  | .penGrazeStat => putBits (RegFile.word d.regs .penGrazeStat i 0) 6 0 (d.openWindows i)
  | .penTallyHi => d.readTallyHi rdr i j
  | .penTsnapLo => d.readTsnap i j false
  | .penTsnapHi => d.readTsnap i j true
  | .penTblData => d.tblWord i
  | .larStat => d.larStatWord
  | .larEvt => d.larEvtWord
  | .larEpoch => d.epochWord
  | .larGeom => d.geomWord i 0
  | .larSpan => d.geomWord i 1
  | .larSeeda => d.geomWord i 2
  | .larSeedb => d.geomWord i 3
  | .larCseed => n (Tab.get d.lar.cseed i 0)
  | .celStat => n d.freeCells
  | .celFlushStat => d.flushStatWord
  | .celMinStat => n d.minSum
  | .celRecStat => n (524288 - d.recordsUsed)
  | .celPoolLimit => n (d.poolSize i % 2 ^ 20)
  | .celPoolUse => n (d.poolUse i)
  | .celPoolHr => n (d.headroom i % 2 ^ 20)
  | .celPoolHrUse => n (d.hrUse i)
  | .celLandLimit => n (d.landLimit i)
  | .celLandUse => n (d.claimTotal i * 2 ^ 16 + d.landUsed i)
  | .celFcStat => d.fcStatWord i
  | .celIgUse => n (d.igUse (i / 8) (i % 8))
  | .celQUse => d.qUseWord i
  | .drvPortTok => d.tokPortWord i
  | .drvClassTok => d.tokClassWord i
  | .drvClassDef => d.deficitWord i
  | .drvGateStat => d.gateStatWord i
  | .trgRxqIdx => d.rxIdxWord i
  | .trgRxqUse => d.rxUseWord i
  | .trgCqStat => d.cqStatWord i
  | .trgPenStat => d.trgPenWord i
  | .stpEvt => d.stpEvtWord
  | .stpPortStat => d.stpPortWord i
  | .stpReqStat => d.stpReqWord i
  | r => RegFile.word d.regs r i j

/-- A high-water mark starts again at what stands now as a read clears it (R217, R264). -/
def Datapath.markAgain (d : Datapath) (r : Reg) (i : Nat) : Datapath :=
  match r with
  | .penRxStageStat => d.stageMark i
  | .penGrazeStat => d.wr F.penGrazeStat_WIN_HWM (d.openWindows i) i
  | _ => d

/-- A read of a datapath register: the word, and the effects of the read: shadows loaded (R486, R574, R591), RC fields
cleared (R7, R9). -/
def Datapath.regRead (d : Datapath) (rdr : Nat) (r : Reg) (i j : Nat) : Datapath × Word :=
  match r with
  | .timNowNs => d.readTimNow rdr i
  | .penTallyLo => d.readTallyLo rdr i j
  | .pmnCntLo => d.readPmnLo rdr i
  | .pmnCycleLo => d.readPmnLo rdr 8
  | r =>
    let w := r.readWord (d.regWord rdr r i j)
    (if r.hasRc then { d with regs := RegFile.setWord d.regs r i j (r.afterRead (RegFile.word d.regs r i j)) }.markAgain r i
     else d, w)

/-- A read of a register of the datapath or of FLD by a source. -/
def State.readReg (s : State) (src : Src) (r : Reg) (i j : Nat) : State × Word :=
  if !s.dp.hasReg r i j then (s, 0)
  else
    match unitOf (r.addr i j) with
    | .shp => (s, 0)
    | .pwr => (s, 0)
    | .fld => (s, s.fldWord r i)
    | _ => let x := s.dp.regRead (readerOf src) r i j; ({ s with dp := x.1 }, x.2)

/-- A read at an address: 0 at an unlisted one (R12). -/
def State.performRead (s : State) (src : Src) (addr : Nat) : State × Word :=
  match Reg.ofAddr addr with
  | some (r, i, j) => s.readReg src r i j
  | none => (s, 0)

end Sys2Proof.Machine
end

