-- ==== Sys2Proof/Machine/HdmaEngine.lean ====
section
/-! DEFINITION. The engine of the housekeeping DMA: the checks of a transfer, the moving of its bytes between memory and
registers, failures, the end of links and runs (spec/19). What can move moves at once: when a channel is selected,
when data arrives, when a unit takes a held write. -/

namespace Sys2Proof.Machine

/-! ## Checks (R550, R552) -/

/-- Whether one side of a transfer passes R552. -/
def hdmSideOk (reg : Bool) (a count blk : Nat) : Bool :=
  if reg then hdmRangeOk a (if blk = 0 then count else 4 * blk) else a % 4 = 0 && a + count ≤ 2 ^ 64

/-- Whether the port of a channel is one of 0 to 5 whose client pen is enabled (R552). -/
def Datapath.hdmPortOk (d : Datapath) (c : Nat) : Bool :=
  d.rd F.hdmChCfg_PORT c < 6 && d.enabled (512 + d.rd F.hdmChCfg_PORT c)

/-- The checks of R552 on a transfer of channel c. -/
def Datapath.hdmCheck (d : Datapath) (c src dst count : Nat) (srcReg dstReg : Bool) : Bool :=
  count ≠ 0 && count % 4 = 0 && hdmSideOk srcReg src count (d.rd F.hdmChCfg_REG_BLK c) &&
  hdmSideOk dstReg dst count (d.rd F.hdmChCfg_REG_BLK c) && ((srcReg && dstReg) || d.hdmPortOk c)

/-- The register address of byte i of a register side (R551). -/
def hdmRegAddr (a i blk : Nat) : Nat := if blk = 0 then a + 4 * (i / 4) else a + 4 * ((i / 4) % blk)

/-! ## Memory requests (R555) -/

/-- Replaces the running channel. -/
def Datapath.setRun (d : Datapath) (r : HRun) : Datapath := { d with hdm := { d.hdm with run := some r } }

/-- Forms a memory request of the running channel: n bytes at address a, at offset pos of the run. -/
def Datapath.hdmRequest (d : Datapath) (r : HRun) (write : Bool) (pos a n : Nat) (data : List Byte) (desc : Bool) : Datapath :=
  let id := d.hdm.nextReq
  let k := d.rd F.hdmChCfg_PORT r.ch
  let q : HReq := { run := r.id, ch := r.ch, write := write, pos := pos, skip := a % 256, n := n, addr := a, desc := desc }
  let d := { d with hdm := { d.hdm with reqs := Tab.set d.hdm.reqs id q, nextReq := id + 1 } }
  d.srpWant k { r := 5, write := write, addr := a / 256 * 256, len := ceilDiv (a % 256 + n) 256,
                tenant := d.rd F.hdmChCfg_TENANT r.ch, kind := 3, owner := r.ch, job := .hdma id,
                lo := if write then a % 256 else 0, data := data }

/-- Beats of read data for which the running channel's buffer holds room: outstanding, waiting to be written, or in memory
writes that have not transferred (R467, R555). -/
def Datapath.hdmBeats (d : Datapath) (r : HRun) : Nat :=
  ((d.hdm.reqs.filter (fun e => e.2.run = r.id && !e.2.write)).map (fun e => ceilDiv (e.2.skip + e.2.n) 256)).foldl (· + ·) 0 +
    ceilDiv ((r.parts.map (fun p => p.2.length)).foldl (· + ·) (r.buf.length + d.hdmUnsent r.id)) 256

/-- Bytes from a memory address to the end of its 4 KiB page. -/
def pageLeft (a : Nat) : Nat := 4096 - a % 4096

/-- The descriptor read of a legacy chain: one single-beat read (R563). -/
def Datapath.hdmReadDesc (d : Datapath) (r : HRun) : Datapath :=
  (d.hdmRequest r false r.total r.next 32 [] true).setRun { r with desc := true }

/-! ## Failures (R559) -/

/-- The running channel fails at an offset; the first failure in source order decides. -/
def Datapath.hdmFail (d : Datapath) (r : HRun) (status pos addr : Nat) : Datapath :=
  let first := match r.fail with
    | some f => pos < f.pos
    | none => true
  if !first then d
  else
    let at' := r.total + r.wpos
    (d.hdmWithdraw r.id pos).setRun { r with
      fail := some { status := status, pos := pos, addr := addr }
      desc := false
      buf := r.buf.take (pos - at')
      parts := r.parts.filter (fun p => r.total + p.1 < pos) }

/-- A failed channel whose earlier reads have been written ends: the record, the stop and the capture. -/
def Datapath.hdmFailEnd (d : Datapath) (r : HRun) (f : HFail) : Datapath :=
  (d.hdmStop r.ch f.status f.addr).hdmEnd r f.status f.pos (r.count - (f.pos - r.total))

/-! ## Moving (R551, R555) -/

/-- A register access of the engine: its failure, if it is answered ERROR or OFF (R47, R89). -/
def State.hdmRegErr (s : State) (a : Nat) : Option Nat :=
  if a % 4 ≠ 0 then some 7 else if s.sh.awake a then none else some 6

/-- A register read of the engine: its failure, if it is answered OFF or ERROR, the latter also because the register reports
an uncorrectable storage error (R47; log entry 105). -/
def State.hdmReadErr (s : State) (a : Nat) : Option Nat :=
  match s.hdmRegErr a with
  | some e => some e
  | none => if Config.storageError a s.freeSeed then some 7 else none

/-- A register access of the engine that fails: it is counted as an access all the same (R559, R584). -/
def State.hdmRegFail (s : State) (r : HRun) (e pos a : Nat) : State :=
  s.onDp (fun d => (d.pmnEvent 0x17 0).hdmFail r e pos a)

/-- Whether a unit still holds a register write of the engine. -/
def Datapath.hdmHeld (d : Datapath) : Bool :=
  d.lar.pushWait.any (fun w => w.1 = Src.hdma) || d.lar.cmdWait.any (fun w => w.1 = Src.hdma)

/-- The engine reads the next word of a register source. -/
def State.hdmReadWord (s : State) (r : HRun) : State :=
  let a := hdmRegAddr r.src r.rpos (s.dp.rd F.hdmChCfg_REG_BLK r.ch)
  let s' := { s with freeSeed := s.freeSeed + 1 }
  match s.hdmReadErr a with
  | some e => s'.hdmRegFail r e (r.total + r.rpos) a
  | none =>
    let x := (s'.onDp (fun d => d.pmnEvent 0x17 0)).performRead .hdma a
    x.1.onDp (fun d => d.setRun { r with rpos := r.rpos + 4, buf := r.buf ++ leBytes 4 x.2.toNat })

/-- The engine writes the next word of a register destination; a write that its unit holds holds the engine. -/
def State.hdmWriteWord (s : State) (r : HRun) : State :=
  let a := hdmRegAddr r.dst r.wpos (s.dp.rd F.hdmChCfg_REG_BLK r.ch)
  match s.hdmRegErr a with
  | some e => s.hdmRegFail r e (r.total + r.wpos) a
  | none =>
    let x := (s.onDp (fun d => d.pmnEvent 0x17 0)).performWrite .hdma a 0xF (BitVec.ofNat 32 (le r.buf 0 4))
    x.1.onDp (fun d => d.setRun { r with wpos := r.wpos + 4, buf := r.buf.drop 4, held := !x.2 })

/-- The data at hand is written to a memory destination, a request per 4 KiB page. -/
def Datapath.hdmWriteMem (d : Datapath) (r : HRun) : Datapath :=
  let ps := pieces (r.dst + r.wpos) r.buf.length
  (ps.foldl (fun d p =>
    let ofs := p.1 - (r.dst + r.wpos)
    d.hdmRequest r true (r.total + r.wpos + ofs) p.1 p.2 (slice r.buf ofs p.2) false) d).setRun
    { r with wpos := r.wpos + r.buf.length, buf := [] }

/-- The next read of a memory source. -/
def Datapath.hdmReadMem (d : Datapath) (r : HRun) : Datapath :=
  let a := r.src + r.rpos
  let n := min (pageLeft a) (r.count - r.rpos)
  (d.hdmRequest r false (r.total + r.rpos) a n [] false).setRun { r with rpos := r.rpos + n }

/-- How many bytes a register source gathers before they are written. -/
def HRun.gather (r : HRun) : Nat := if r.dstReg then 4 else min (pageLeft (r.dst + r.wpos)) (r.count - r.wpos)

/-- One action of the engine on its running channel, if there is one to take. -/
def State.hdmMove (s : State) : Option State :=
  match s.dp.hdm.run with
  | none => none
  | some r =>
    if r.held then
      (if s.dp.hdmHeld then none else some (s.onDp (fun d => d.setRun { r with held := false })))
    else if r.desc then none
    else if s.dp.hdmHeld then none
    else
      let more := r.rpos < r.count && r.fail.isNone
      let beats := ceilDiv ((r.src + r.rpos) % 256 + min (pageLeft (r.src + r.rpos)) (r.count - r.rpos)) 256
      if more && r.srcReg && r.buf.length < r.gather then some (s.hdmReadWord r)
      else if r.buf ≠ [] then (if r.dstReg then some (s.hdmWriteWord r) else some (s.onDp (fun d => d.hdmWriteMem r)))
      else if more && !r.srcReg && s.dp.hdmBeats r + beats ≤ 64 then some (s.onDp (fun d => d.hdmReadMem r))
      else
        match r.fail with
        | some f =>
          if s.dp.hdm.reqs.any (fun e => e.2.run = r.id && !e.2.write && e.2.pos < f.pos) then none
          else some (s.onDp (fun d => d.hdmFailEnd r f))
        | none => none

/-- The engine moves on as far as it can. -/
def State.hdmPumpN : Nat → State → State
  | 0, s => s
  | n + 1, s =>
    match s.hdmMove with
    | some t => State.hdmPumpN n t
    | none => s

/-- The engine moves what can move now: no more actions than three a word. -/
def State.hdmPump (s : State) : State :=
  match s.dp.hdm.run with
  | some r => s.hdmPumpN (3 * (r.count - r.wpos) + 8)
  | none => s

/-! ## Links and runs (R556, R557, R563) -/

/-- A link or a block transfer is complete: its record, its chaining, the next descriptor. No byte of a link is left while
its descriptor is read (R568). -/
def Datapath.hdmLinkEnd (d : Datapath) (r : HRun) : Datapath :=
  if !r.legacy then d.hdmEnd r 0 r.count 0
  else
    let r := { r with total := r.total + r.count, links := r.links + 1 }
    let d := d.setRun r
    let d := if r.mark then d.hdmForm (min r.links 65535) 0 r.trig r.ch r.count none else d
    if r.last then d.hdmEnd r 0 r.total 0 else (d.setHdm r.ch HS.running).hdmReadDesc { r with count := 0, rpos := 0, wpos := 0 }

/-- A descriptor has been read: the link is checked, and its transfer begins (R562, R563). -/
def Datapath.hdmLink (d : Datapath) (r : HRun) (b : List Byte) : Datapath :=
  let w := le b 0x18 4
  let r := { r with
    desc := false, src := le b 0 8, dst := le b 8 8, next := le b 0x10 8, count := fieldOf w 23 0
    srcReg := bit w 24, dstReg := bit w 25, last := bit w 26, mark := bit w 27
    rpos := 0, wpos := 0, buf := [], parts := [] }
  if d.hdmCheck r.ch r.src r.dst r.count r.srcReg r.dstReg && (r.last || r.next % 32 = 0) then d.setRun r
  else d.hdmEnd r 3 r.total r.count

/-- Data that arrived joins what lies in front of it. -/
def HRun.join (r : HRun) : HRun :=
  r.parts.foldl (fun r _ =>
    match r.parts.find? (fun p => p.1 = r.wpos + r.buf.length) with
    | some p => { r with buf := r.buf ++ p.2, parts := r.parts.filter (fun q => q.1 ≠ p.1) }
    | none => r) r

/-- The engine selects the PENDING channel whose trigger is oldest (R554, R558). -/
def State.hdmSelect (s : State) : State :=
  let d := s.dp
  if d.hdm.run.isSome || d.hdm.drain.isSome || d.hdmStopped || 256 ≤ d.hdm.queue.length then s
  else
    let oldest := (List.range 16).foldl (fun (best : Option (Nat × Nat × Nat)) c =>
      match Tab.find d.hdm.trig c with
      | none => best
      | some t =>
        match best with
        | none => some (c, t)
        | some b => if t.2 < b.2.2 then some (c, t) else best) none
    match oldest with
    | none => s
    | some (c, trig, _) =>
      let legacy := d.rd F.hdmChCtl_MODE c = 1
      let src := d.rd F.hdmChSrcHi_ADDR c * 2 ^ 32 + d.rd F.hdmChSrcLo_ADDR c
      let dst := d.rd F.hdmChDstHi_ADDR c * 2 ^ 32 + d.rd F.hdmChDstLo_ADDR c
      let count := d.rd F.hdmChCount_COUNT c
      let srcReg := d.flag F.hdmChCfg_SRC_SPACE c
      let dstReg := d.flag F.hdmChCfg_DST_SPACE c
      let d := { d with hdm := { d.hdm with trig := Tab.erase d.hdm.trig c } }
      let ok := if legacy then src % 32 = 0 && d.hdmPortOk c else d.hdmCheck c src dst count srcReg dstReg
      if !ok then { s with dp := (d.setHdm c HS.idle).hdmForm 0 2 trig c 0 none }
      else
        let d := { d.setHdm c HS.running with hdm := { d.hdm with nextRun := d.hdm.nextRun + 1 } }
        let r : HRun := { id := d.hdm.nextRun, ch := c, trig := trig, legacy := legacy }
        let d :=
          if legacy then d.hdmReadDesc { r with next := src }
          else d.setRun { r with src := src, dst := dst, count := count, srcReg := srcReg, dstReg := dstReg }
        State.hdmPump { s with dp := d }

/-- A read of the engine has returned: bytes and error code (R559, R561). -/
def State.hdmReadDone (s : State) (id : Nat) (x : SRead) : State :=
  match Tab.find s.dp.hdm.reqs id with
  | none => s
  | some q =>
    let d := { s.dp with hdm := { s.dp.hdm with reqs := Tab.erase s.dp.hdm.reqs id } }
    match d.hdm.run with
    | some r =>
      if r.id ≠ q.run then { s with dp := d.hdmDrained }
      else
        let d :=
          if q.desc then (if x.err = 0 then d.hdmLink r (slice x.bytes q.skip 32)
                          else d.hdmFail r 9 q.pos q.addr)
          else if x.err ≠ 0 then d.hdmFail r 4 q.pos q.addr
          else
            match r.fail with
            | some f => if q.pos < f.pos then d.setRun ({ r with parts := r.parts ++ [(q.pos - r.total, slice x.bytes q.skip q.n)] }).join else d
            | none => d.setRun ({ r with parts := r.parts ++ [(q.pos - r.total, slice x.bytes q.skip q.n)] }).join
        State.hdmPump { s with dp := d }
    | none => { s with dp := d.hdmDrained }

/-- Whether memory writes of a run are unanswered. -/
def Datapath.hdmWritesOpen (d : Datapath) (run : Nat) : Bool := d.hdm.reqs.any (fun e => e.2.run = run && e.2.write)

/-- A write of the engine has been answered with an error code (R556, R558, R559). -/
def State.hdmWriteDone (s : State) (id err : Nat) : State :=
  match Tab.find s.dp.hdm.reqs id with
  | none => s
  | some q =>
    let d := { s.dp with hdm := { s.dp.hdm with reqs := Tab.erase s.dp.hdm.reqs id } }
    let late (d : Datapath) : Datapath :=
      match q.late with
      | some trig => if err ≠ 0 then (d.hdmStop q.ch 10 q.addr).hdmForm 0 10 trig q.ch 0 none else d
      | none => d.hdmDrained
    match d.hdm.run with
    | some r =>
      if r.id ≠ q.run then { s with dp := late d }
      else if err ≠ 0 then State.hdmPump { s with dp := d.hdmFail r 5 q.pos q.addr }
      else if d.hdmState r.ch = HS.waitWr && !d.hdmWritesOpen r.id then
        State.hdmPump { s with dp := d.hdmLinkEnd r }
      else { s with dp := d }
    | none => { s with dp := late d }

/-- Whether a request of the engine has not transferred, on a port that may still issue it: on a port stopped under R70 it
never will, and it meets the response limit as it stands (R560; log entry 107). -/
def Datapath.hdmUnissued (d : Datapath) (id : Nat) : Bool :=
  (List.range 6).any (fun k =>
    !(d.srp k).stopped &&
    ((d.srp k).want.any (fun q => q.job = .hdma id) ||
     (match (d.srp k).presented with
      | some (q, _) => q.job = .hdma id
      | none => false)))

/-- The engine awaits a request no longer; one that waits at a stopped port leaves the requests of the port. -/
def Datapath.hdmForget (d : Datapath) (id : Nat) : Datapath :=
  let d := loop 6 (fun k d =>
    if (d.srp k).want.any (fun q => q.job = .hdma id) then
      (d.setSrp k { d.srp k with want := (d.srp k).want.filter (fun q => q.job ≠ .hdma id) }).settle k
    else d) d
  { d with hdm := { d.hdm with reqs := Tab.erase d.hdm.reqs id } }

/-- Response limit: a transferred request of the engine at an offset is no longer awaited, nor one at a stopped port (R556,
R560, R561). -/
def State.hdmTimeout (s : State) (write : Bool) (pos : Nat) : State :=
  let d := s.dp
  match d.hdm.reqs.find? (fun e => e.2.write = write && e.2.pos = pos && !d.hdmUnissued e.1) with
  | none => s
  | some (id, q) =>
    let d := d.hdmForget id
    match d.hdm.run with
    | some r =>
      if r.id = q.run then State.hdmPump { s with dp := d.hdmFail r 8 q.pos q.addr }
      else { s with dp := d.hdmDrained }
    | none => { s with dp := d.hdmDrained }

/-! ## Commands -/

/-- HDMA_SELECT: the engine selects a channel and moves what it can (R554, R555). -/
def execHdmaSelect (s : State) : Out := .next s.hdmSelect

/-- HDMA_COMPLETE: the last byte of the running channel's transfer has been written (R556, R558). -/
def execHdmaComplete (s : State) : Out :=
  .next (match s.dp.hdm.run with
    | none => s
    | some r =>
      if s.dp.hdmState r.ch = HS.running && r.fail.isNone && !r.desc && !r.held && r.wpos = r.count && s.dp.hdmUnsent r.id = 0 then
        (if s.dp.flag F.hdmChCtl_WAIT_WR r.ch && s.dp.hdmWritesOpen r.id then s.onDp (fun d => d.setHdm r.ch HS.waitWr)
         else State.hdmPump (s.onDp (fun d => d.hdmLinkEnd r)))
      else s)

/-- HDMA_RSP_TIMEOUT: HDM_RSP_TO passed since the transfer of a read or write request at an offset of its run (R556). -/
def execHdmaRspTimeout (write : Bool) (pos : Nat) (s : State) : Out := .next (s.hdmTimeout write pos)

/-- SRP_WRITE_BEAT_TRANSFER on port k (R63): the housekeeping DMA reads on where the beat has made room (R467). -/
def execSrpWriteBeatTransfer (k : Nat) (s : State) : Out := .next (s.onDp (fun d => d.srpBeat k)).hdmPump

/-- LAR_COMMAND_ACCEPT: a held LAR_CMD write is taken (R283); the housekeeping DMA goes on behind its own. -/
def execLarCommandAccept (s : State) : Out := .next s.larHeldAccept.hdmPump

/-- ATTIC_WRITE: the attic FIFO's head is written (R287); the housekeeping DMA goes on behind a push it held. -/
def execAtticWrite (s : State) : Out := .next s.atticStep.hdmPump

end Sys2Proof.Machine
end

