-- ==== Sys2Proof/Machine/FoldApply.lean ====
section
/-! DEFINITION. What responses of the store-room ports bring (R66 to R70, R477), and the apply engine of the fold loader:
the effect of one section of an image, the words of an operation, the re-fold (spec/04). -/

namespace Sys2Proof.Machine

/-! ## Store-room responses -/

/-- READ_BEAT: a read data beat on store-room port k with a tag, its data, its response code and rd_last (R66). An error
whose owner has been DISABLED since acts on the store-room registers alone (R476). While rst_blk_n is low the beat is
discarded (R42). -/
def State.readBeat (s : State) (k tag : Nat) (data : List Byte) (resp : Nat) (last : Bool) : State :=
  if !s.sh.blkN then s.onDp (fun d => d.srpReadDiscard k tag last)
  else
  match s.dp.srpReadBeat k tag data resp last with
  | (d, none) => { s with dp := d }
  | (d, some x) =>
    let s := { s with dp := d }
    if x.req.orphan && x.err ≠ 0 then s
    else
    match x.req.job with
    | .poll rx q =>
      s.onDp (fun d => d.pollReturn k { rx := rx, q := q } x.req.untaken (if x.err = 0 then some x.bytes else none))
    | .txData n ofs skip len => s.onDp (fun d => if x.err = 0 then d.txData n ofs (slice x.bytes skip len) else d.txFail n)
    | .ci ring ofs =>
      if x.req.orphan then s else s.onDp (fun d => d.ciResult ring (if x.err = 0 then some (le x.bytes ofs 4) else none))
    | .hdma id => s.hdmReadDone id x
    | _ => s

/-- A write response on store-room port k (R67). While rst_blk_n is low it is discarded (R42). -/
def State.writeResponse (s : State) (k resp : Nat) : State :=
  if !s.sh.blkN then s.onDp (fun d => d.srpWriteDiscard k)
  else
  match s.dp.srpWriteResp k resp with
  | (d, none) => { s with dp := d }
  | (d, some q) =>
    let s := { s with dp := d }
    if q.orphan && respCode resp ≠ 0 then s
    else
    match q.job with
    | .cpl r => s.onDp (fun d => if respCode resp = 0 then d else d.cplError r)
    | .rxData n => s.onDp (fun d => if respCode resp = 0 then d else d.rxWriteError q.owner n)
    | .hdma id => s.hdmWriteDone id (respCode resp)
    | _ => s

/-! ## Changed ports (R150, R175, R580) -/

/-- The per-port and per-lane registers of a pen's range, with the number of words of one port (R174, R198, R238). -/
def portRegs : List (Reg × Nat) :=
  [(.penLinkCtl, 1), (.penLinkStat, 1), (.penLpiCtl, 1), (.penLaneTest, 1), (.penLaneErrs, 1), (.penRxCtl, 1),
   (.penRxFiltCtl, 1), (.penRxPauseStat, 1), (.penRxAddrLo, 8), (.penRxAddrHi, 8), (.penParsePort, 1), (.penTxCtl, 1),
   (.penTxFc, 1), (.penTxSaLo, 1), (.penTxSaHi, 1), (.penMmCtl, 1), (.penMmStat, 1)]

/-- The registers and the logic of a port or lane slot take their reset values, and its tallies 0 (R175, R580). -/
def Datapath.resetPort (d : Datapath) (pen i : Nat) : Datapath :=
  let p := portAt pen i
  let addrs := portRegs.flatMap (fun r => (List.range r.2).map (fun k => r.1.addr pen (r.2 * i + k)))
  { d with
    regs := Tab.drop d.regs (fun a => addrs.contains a)
    rx := Tab.erase d.rx p, tx := Tab.erase d.tx p
    txQuiet := Tab.erase d.txQuiet p, rxQuiet := Tab.erase d.rxQuiet p
    waking := d.waking.filter (· ≠ p) }.tallyClear p

/-- The LANE_CARVE byte of local slot i in a section's payload. -/
def Sect.carveAt (x : Sect) (i : Nat) : Nat := (byteAt x.payload i).toNat

/-- The local slots of a pen's ports whose LANE_CARVE byte or PORT_MODE record a section changes: with a port's record, all
the slots of its lanes (R150, R175). -/
def Datapath.changedBy (d : Datapath) (x : Sect) : List Nat :=
  let w (b i : Nat) : List Nat := if b.testBit 7 then [i - i % 2 ^ fieldOf b 6 5] else []
  if x.typ = 7 then
    ((List.range 16).flatMap (fun i =>
      let old := d.carveByte (16 * x.pen + i)
      let new := x.carveAt i
      if old = new then [] else i :: (w old i ++ w new i))).eraseDups
  else if x.typ = 8 then
    ((List.range (if x.pen < 32 then 16 else 1)).filter (fun i =>
      Tab.find d.portMode (portAt x.pen i) ≠ Tab.find (recordTab x) i)).flatMap (fun i =>
        let b := if x.pen < 32 then d.carveByte (16 * x.pen + i) else 0
        (List.range (if b.testBit 7 then carveWidth b else 1)).map (i + ·))
  else []

/-! ## Sections (R127, R146, R148) -/

/-- The entries of a table keyed by m * pen + index are replaced by a section's records. -/
def replaceRecords (t : Tab (List Byte)) (m : Nat) (x : Sect) : Tab (List Byte) :=
  (recordTab x).foldl (fun t e => Tab.set t (m * x.pen + e.1) e.2) (Tab.drop t (fun k => k / m = x.pen))

/-- A preset write: the bits of MASK take VALUE's, the others keep the value read (R131). A preset of a domain that
stayed on is skipped by a wake restore (R608); one of a domain that is off does nothing. -/
def State.applyPreset (s : State) (restore : Bool) (p : Nat × Nat × Nat) : State :=
  let a := p.1
  if !s.sh.domOn (domainOf a) || (restore && s.sh.fld.kept.contains (domainOf a)) then s
  else
    match Reg.ofAddr a with
    | none => s
    | some (r, i, j) =>
      let cur := (r.readWord (s.dp.regWord (readerOf .apply) r i j)).toNat
      let m := p.2.1
      (s.performWrite .apply a 0xF (BitVec.ofNat 32 ((cur &&& (0xFFFFFFFF ^^^ m)) ||| (p.2.2 &&& m)))).1

/-- The bits of LAR_LIVE of tables without an attic read 0 and name copy 0, in both values and in every waiting flip
(R267, R289). -/
def State.maskLive (s : State) : State :=
  let m := s.dp.liveMask
  { s with
    dp := { s.dp.wr F.larLive_COPY (s.dp.rd F.larLive_COPY &&& m) with
            lar := { s.dp.lar with live := s.dp.lar.live &&& m, flips := s.dp.lar.flips.map (·.map (· &&& m)) } }
    sh := { s.sh with live := s.sh.live &&& m } }

/-- LARDER_GEOM is applied. APPLY also loads the seeds of both copies of every table and leaves every entry invalid; a
restore touches neither (R291, R299). -/
def State.applyGeom (s : State) (restore : Bool) (x : Sect) : State :=
  let s := (s.onDp (fun d => { d with larderGeom := recordTab x })).maskLive
  if restore then s
  else
    let seeds : Tab Nat := loop 64 (fun n t =>
      Tab.put t n ((s.dp.geomWord (n / 4) (2 + n % 2)).toNat) 0) []
    { s with dp := { s.dp with lar := { s.dp.lar with cseed := seeds, buckets := [] } }, sh := { s.sh with cseed := seeds } }

/-- The effect of one section (R127, R146). `restore` tells a wake restore, which gives no port a new structure: registers and
tallies of domains that stayed on stay (R148, R175, R580). -/
def State.applySect (s : State) (restore : Bool) (x : Sect) : State :=
  if x.pen ≠ 0xFF && !s.sh.domOn (penDomain x.pen) then s
  else
    match x.typ with
    | 2 => s.onDp (fun d => { d with bufferPlan := (recordsOf x).headD [] })
    | 3 => s.applyGeom restore x
    | 4 => s.onDp (fun d => { d with queueMap := recordTab x })
    | 5 => s.onDp (fun d => d.applyTimePlans (recordTab x))
    | 6 =>
      s.onDp (fun d =>
        let d := { d with flockRole := (recordsOf x).headD [] }
        if restore && s.sh.fld.kept.contains 19 then d else d.flkRoleStart !restore)
    | 7 =>
      s.onDp (fun d =>
        let ch := if restore then [] else d.changedBy x
        ch.foldl (fun d i => d.resetPort x.pen i)
          { d with carve := (List.range 16).foldl (fun t i => Tab.put t (16 * x.pen + i) (x.carveAt i) 0) d.carve })
    | 8 =>
      s.onDp (fun d =>
        let ch := if restore then [] else d.changedBy x
        let pm := if x.pen < 32 then replaceRecords d.portMode 16 x
                  else (recordTab x).foldl (fun t e => Tab.set t (portAt x.pen e.1) e.2) (Tab.erase d.portMode (portAt x.pen 0))
        ch.foldl (fun d i => d.resetPort x.pen i) { d with portMode := pm })
    | 9 => s.onDp (fun d => { d with sortTab := replaceRecords d.sortTab 1024 x })
    | 10 => s.onDp (fun d => { d with profile := replaceRecords d.profile 256 x })
    | 11 => s.onDp (fun d => { d with pattern := replaceRecords d.pattern 8192 x })
    | 12 => (presetsOf x).foldl (fun s p => s.applyPreset restore p) s
    | _ => s

/-- An image has been applied: the seeds of every table that its LARDER_GEOM does not define are 0, in the larder and in the
shepherd's values (R291). -/
def State.seedsDefined (s : State) (sects : List Sect) : State :=
  let undef (n : Nat) : Bool := (Tab.find (sectRecords sects 3 0xFF) (n / 4)).isNone
  { s with dp := { s.dp with lar := { s.dp.lar with cseed := Tab.drop s.dp.lar.cseed undef } }
           sh := { s.sh with cseed := Tab.drop s.sh.cseed undef } }

/-- After sections have been applied, store-room ports and gated ports follow the structure (R72, R168). -/
def Datapath.structureSettled (d : Datapath) : Datapath := (loop 6 (fun k d => d.settle k) d).gatesFollow

/-- The sections that the running operation streams, each with the words of the stream up to its end. -/
def sectEnds (l : List Sect) : List (Nat × Sect) :=
  ((List.range l.length).filterMap (fun k => (l[k]?).map (fun x => (streamWords (l.take (k + 1)), x))))

/-- Words up to n of the running stream have reached the apply engine: the sections that end among them, after those
applied before, take effect (R146). -/
def State.streamTo (s : State) (n : Nat) : State :=
  let from' := s.sh.fld.pos
  let ends := (sectEnds s.sh.fld.stream).filter (fun e => from' < e.1 && e.1 ≤ n)
  let s := ends.foldl (fun s e => s.applySect (s.sh.fld.state = .restore) e.2) s
  s.onSh (fun h => h.onFld (fun l => { l with pos := n }))

/-! ## Words of an operation (R140 to R142, R146) -/

/-- A word of a PULL reaches the store; below 64 + the stored LENGTH it clears STORED_OK (R140). -/
def Shepherd.pullWord (h : Shepherd) (w : Word) : Shepherd :=
  let a := h.fld.ofs + 4 * h.fld.pos
  let stored := leNat (h.fld.store.reads 0x10 4)
  let h := if a < 64 + stored then h.wr F.fldStat_STORED_OK 0 else h
  h.onFld (fun l => { l with store := l.store.writes a (leBytes 4 w.toNat), pos := l.pos + 1 })

/-- A word of a PEEK reaches FLD_STAGE (R141). -/
def State.peekWord (s : State) : State :=
  let l := s.sh.fld
  { s with
    dp := s.dp.writeStage l.pos 0xF (BitVec.ofNat 32 (leNat (l.store.reads (l.ofs + 4 * l.pos) 4)))
    sh := s.sh.onFld (fun l => { l with pos := l.pos + 1 }) }

/-- One word of the running operation has crossed the link; `rdata` is what a read returned. -/
def State.fldWordDone (s : State) (rdata : Word) : State :=
  let l := s.sh.fld
  if l.len ≤ l.pos then s
  else
    match l.state with
    | .pull => s.onSh (fun h => h.pullWord rdata)
    | .peek => s.onSh (fun h => h.onFld (fun l => { l with pos := l.pos + 1 }))
    | .apply => s.streamTo (l.pos + 1)
    | .refold => s.streamTo (l.pos + 1)
    | .restore => s.streamTo (l.pos + 1)
    | _ => s

/-- The words of a PULL that are left. -/
def State.pullRest : Nat → State → State
  | 0, s => s
  | n + 1, s => State.pullRest n (s.onSh (fun h => h.pullWord (BitVec.ofNat 32 (leNat (s.dp.stage.reads (4 * h.fld.pos) 4)))))

/-- The words of a PEEK that are left. -/
def State.peekRest : Nat → State → State
  | 0, s => s
  | n + 1, s => State.peekRest n s.peekWord

/-- The running operation's words that are left take effect. -/
def State.fldRest (s : State) : State :=
  let l := s.sh.fld
  match l.state with
  | .pull => s.pullRest (l.len - l.pos)
  | .peek => s.peekRest (l.len - l.pos)
  | .apply => s.streamTo l.len
  | .refold => s.streamTo l.len
  | .restore => s.streamTo l.len
  | _ => s

/-! ## Re-fold (R150 to R152) -/

/-- The ports of the re-folded pen that change. -/
def State.refoldPorts (s : State) : List Nat :=
  let l := s.sh.fld
  ((l.sects l.ofs).flatMap (fun x => (s.dp.changedBy x).map (portAt l.pen))).eraseDups

/-- HOLD ends: changed ports are taken down and held so, their queues discard, and the sections stream (R150, R151, R358). A
port that ADMIN keeps in DISABLED stays there. -/
def State.refoldBegin (s : State) : State :=
  let ps := s.refoldPorts
  let down (d : Datapath) (p : Nat) : Datapath :=
    if d.carved p && d.linkState p ≠ LS.disabled then d.setLink s.watching p LS.noSignal else d
  let s := s.onDp (fun d =>
    let d := ps.foldl down d
    { d with cel := { d.cel with refold := ps }, linkHeld := ps.filter (· < 512) })
  s.onSh (fun h =>
    (h.onFld (fun l => let l := { l with state := .refold, pos := 0 }
                       { l with len := streamWords l.stream })).fldSend)

/-- The re-folded pen resumes parsing, its changed ports start link-down, and the splice begins (R150). -/
def State.refoldEnd (s : State) : State :=
  let s := s.fldRest.onDp (fun d => { d.structureSettled with linkHeld := [] })
  s.onSh (fun h => { h.onFld (fun l => { l with state := .splice, held := l.held.filter (· ≠ l.pen) }) with
                     link := h.link.dropLoader })

/-- The spliced image becomes the image in force (R152): the store, FLD_DIGEST, FLD_FORCE_LEN and CRUISE_OK follow. What
lies between the new and the old length, and the scratch region, is undefined. STORED_OK stays as it stands: DESIGN CHOICE, log
entry 111. -/
def State.splice (s : State) : State :=
  let l := s.sh.fld
  let img := l.spliced l.ofs l.pen
  let old := s.sh.rd F.fldForceLen_LEN
  let scratch := l.ofs + up64 (l.lengthAt l.ofs)
  let n := s.freeSeed
  let st := (l.store.lose img.length (max old img.length) n).lose scratch (scratch + img.length) (n + 1)
  let h := s.sh.onFld (fun l => { l with store := st.writes 0 img })
  let h := ((h.setDigest (sha256 img)).wr F.fldForceLen_LEN img.length).wr F.fldStat_CRUISE_OK (b2n (cruiseOk (sectionsOf img)))
  { s with sh := h.fldDone, freeSeed := n + 2, dp := { s.dp with cel := { s.dp.cel with refold := [] } } }

/-! ## Commands -/

/-- READ_BEAT on store-room port k: tag, the beat's bytes, response code, rd_last (R66). -/
def execReadBeat (k tag : Nat) (data : List Byte) (resp : Nat) (last : Bool) (s : State) : Out :=
  .next (s.readBeat k tag data resp last)

/-- WRITE_RESPONSE on store-room port k (R67). -/
def execWriteResponse (k resp : Nat) (s : State) : Out := .next (s.writeResponse k resp)

/-- PULL_END: the last word of a PULL is written (R140). -/
def execPullEnd (s : State) : Out :=
  .next (if s.sh.fld.state = .pull then s.fldRest.onSh Shepherd.fldDone else s)

/-- PEEK_END: the last word of a PEEK is written (R141). -/
def execPeekEnd (s : State) : Out :=
  .next (if s.sh.fld.state = .peek then s.fldRest.onSh Shepherd.fldDone else s)

/-- REFOLD_HOLD_EMPTY: the held pen's parse and verdict pipeline and its grazer windows are empty (R150, R253). -/
def execRefoldHoldEmpty (s : State) : Out :=
  .next (if s.sh.fld.state = .hold && (s.dp.passesOf s.sh.fld.pen).isEmpty then s.refoldBegin else s)

/-- REFOLD_APPLY_END: the last section of the partial image is applied (R150). -/
def execRefoldApplyEnd (s : State) : Out := .next (if s.sh.fld.state = .refold then s.refoldEnd else s)

end Sys2Proof.Machine
end

