-- ==== Sys2Proof/Machine/Domains.lean ====
section
/-! DEFINITION. What the datapath loses and takes when a power domain goes off and on, the rebuild of a retained cellar,
the conditions of QUIESCE, the time save and the wake advance (spec/22, spec/05, and the power rules of the units'
chapters). -/

namespace Sys2Proof.Machine

/-! ## Loss of a domain (R595, R596, R599) -/

/-- The pens of a domain. -/
def pensOf (dom : Nat) : List Nat := (List.range 40).filter (fun p => penDomain p = dom)

/-- The line slots, and client and loop ports, of a domain's pens. -/
def inDom (dom p : Nat) : Bool := penDomain (penOf p) = dom

/-- Whether an address lies in the queue-context store (R30, R595). -/
def inCtxStore (a : Nat) : Bool := 0x1000000 ≤ a && a < 0x1480000

/-- The registers of a domain take their reset values; `keep` retains PD9's queue-context store, and FLK_ADDR stays but
for a cold start (R462, R534). -/
def Datapath.dropRegs (d : Datapath) (dom : Nat) (keep full : Bool) : Datapath :=
  { d with regs := Tab.drop d.regs (fun a =>
      domainOf a = dom && !(keep && dom = 9 && inCtxStore a) && !(!full && a = Reg.flkAddr.addr 0 0)) }

/-- The pens of a domain lose their structure, their ports' logic, and the frames and passes that have not been
stored. -/
def Datapath.dropPens (d : Datapath) (dom : Nat) : Datapath :=
  let pen (p : Nat) : Bool := penDomain p = dom
  { d with
    carve := Tab.drop d.carve (fun s => inDom dom s)
    portMode := Tab.drop d.portMode (fun p => inDom dom p)
    sortTab := Tab.drop d.sortTab (fun k => pen (k / 1024))
    profile := Tab.drop d.profile (fun k => pen (k / 256))
    pattern := Tab.drop d.pattern (fun k => pen (k / 8192))
    txQuiet := Tab.drop d.txQuiet (fun p => inDom dom p)
    rxQuiet := Tab.drop d.rxQuiet (fun p => inDom dom p)
    waking := d.waking.filter (fun p => !inDom dom p)
    gated := d.gated.filter (fun p => !pen p)
    rx := Tab.drop d.rx (fun p => inDom dom p)
    tx := Tab.drop d.tx (fun p => inDom dom p)
    frames := d.frames.filter (fun e => e.2.admitted || !pen e.2.inPen)
    ready := Tab.drop d.ready pen
    passes := Tab.drop d.passes pen }

/-- The tallies of a set of pens, and every reader's shadow of them, are 0 (R580). -/
def Datapath.dropTallies (d : Datapath) (pens : List Nat) : Datapath :=
  { d with
    tally := Tab.drop d.tally (fun k => pens.contains (penOf (k / 128)))
    tallyWrap := Tab.drop d.tallyWrap (fun k => pens.contains (penOf (k / 128)))
    snap := Tab.drop d.snap (fun k => pens.contains (k / 96))
    tallyShadow := Tab.drop d.tallyShadow (fun k => pens.contains (k % 40)) }

/-- The cellar returns empty: its frames end without being counted (R600), every queue becomes empty, and with it a positive
DEF goes to 0 (R371) and a SW discard reason clears (R358). -/
def Datapath.dropCellar (d : Datapath) : Datapath :=
  Datapath.swDone { d with
    frames := d.frames.filter (fun e => !e.2.admitted)
    copies := []
    cel := { d.cel with cells := [], openCell := [], second := [], lofts := [], sinkOrder := [], wait := [] }
    drv := { d.drv with deficit := d.drv.deficit.filter (fun e => e.2 < 0) } }

/-- A store-room port after the reset of its logic: its trackers are kept, and what they await is discarded (R42, R161), and
so is a protocol violation's stop, which lasts to the next block reset (R70). DESIGN CHOICE, log entry 106: a presented request and the
write beats still owed behind a transferred one are dropped, while the write's response stays awaited. -/
def StpPort.trackersOnly (p : StpPort) : StpPort :=
  { stopped := p.stopped
    reads := p.reads.map (fun e => (e.1, { e.2 with req := { e.2.req with job := .hdma 0 } }))
    writes := p.writes.map (fun q => { q with job := .hdma 0 }) }

/-- The store-room ports as PD9 powers on: trackers cleared (R42), a protocol violation's stop kept (R70). -/
def Datapath.stpCleared (d : Datapath) : Datapath :=
  { d with stp := d.stp.filterMap (fun e => if e.2.stopped then some (e.1, { stopped := true }) else none) }

/-- A block reset ends the stops of protocol violations (R70). -/
def Datapath.stpReleased (d : Datapath) : Datapath := { d with stp := d.stp.map (fun e => (e.1, { e.2 with stopped := false })) }

/-- A domain's logic takes its reset state, and its memories their initial content (R159, R596). `keep` retains the
domain's retention memory (R599), `full` tells a cold start, `trk` keeps the store-room trackers. -/
def Datapath.resetDomain (d : Datapath) (dom : Nat) (keep full trk : Bool) (seed : Nat) : Datapath :=
  let d := d.dropRegs dom keep full
  if dom ≤ 8 then
    let d := d.flkPortsDown (inDom dom)
    { (d.dropPens dom).dropTallies (pensOf dom) with wakeReq := d.wakeReq.filter (fun n => !(pensOf dom).contains n) }
  else if dom = 9 then
    { d.dropPens 9 with
      queueMap := []
      trg := { ({} : Troughs) with nextRec := d.trg.nextRec }
      stp := if trk then d.stp.map (fun e => (e.1, e.2.trackersOnly)) else d.stpCleared.stp }
  else if dom = 10 then d.dropPens 10
  else if dom ≤ 14 then (if keep then d else d.dropCellar)
  else if dom = 15 then { d with bufferPlan := [], cel := { ({} : Cellar) with cells := d.cel.cells } }
  else if dom = 16 then (if keep then d else { d with lar := { d.lar with buckets := [] } })
  else if dom = 17 then
    { d with
      lar := { ({} : Larder) with buckets := d.lar.buckets }
      larderGeom := [], lines := [], meters := [], meterLast := 0
      flow := if keep then d.flow else []
      drv := {} }
  else if dom = 18 then { d with timePlan := [], tim := {} }
  else
    { d.dropTallies [32, 33, 34, 35, 36, 37, 38, 39] with
      stage := ({} : URam).lose 0 32768 seed
      flockRole := [], flk := {}, pmn := {}, cvu := {}
      hdm := { ({} : Hdma) with nextRun := d.hdm.nextRun, nextReq := d.hdm.nextReq } }

/-- A domain of the state is reset; a free value fills the staging buffer of PD19 (R153). -/
def State.resetDomain (s : State) (dom : Nat) (keep full trk : Bool) : State :=
  { s with dp := s.dp.resetDomain dom keep full trk s.freeSeed, freeSeed := s.freeSeed + 1 }

/-- Every domain takes its reset state (R162, R163). -/
def State.resetAll (s : State) : State := raiseOrder.foldl (fun s d => s.resetDomain d false true true) s

/-! ## The cellar rebuild (R600) -/

/-- The copies of the cellar by queue, each queue in its order: their frames, each once. -/
def Datapath.queueOrder (d : Datapath) : List Nat :=
  let t : Tab (List Nat) := d.copies.foldl (fun t c => Tab.upd t c.2.q [] (fun l => l ++ [c.2.fid])) []
  (t.flatMap (fun e => e.2)).eraseDups

/-- A retained cellar's frames keep their places and take epoch 0; their cells are charged again in queue order, and
cells that hold no sector return to the free list (R346, R600). -/
def Datapath.cellarRebuild (d : Datapath) : Datapath :=
  let locs : Tab (List Nat) := d.frames.map (fun e => (e.1, e.2.locs))
  let bare (x : Frame) : Frame :=
    if x.admitted then ({ x with locs := [], epoch := 0, loft := none } : Frame).withSrcs [] else x
  let order := d.queueOrder
  let d := { d with
    frames := d.frames.map (fun e => (e.1, bare e.2))
    cel := { d.cel with cells := (d.cel.cells.filter (fun e => e.2.live ≠ 0)).map (fun e => (e.1, { e.2 with open' := false })) } }
  order.foldl (fun d f =>
    match d.frame f with
    | some x => d.placed f x (Tab.get locs f [])
    | none => d) d

/-- A retained cellar's cells are charged once more after the wake restore has given back the buffer plan and the queues' settings,
which the memory phase did not have: each queue's MIN is taken as restored, and R346 charges in queue order. DEDUCED, log
entry 102. -/
def Datapath.cellarRecharge (d : Datapath) : Datapath :=
  (((d.copies.map (fun c => c.2.q)).eraseDups).foldl Datapath.takeMin d).cellarRebuild

/-! ## Events of a unit (R57, R61) -/

/-- The domain that holds a unit of R57. -/
def unitDomain (u : Nat) : Nat :=
  if u < 40 then penDomain u
  else match u with
    | 40 => 17 | 41 => 17 | 42 => 15 | 43 => 17 | 44 => 9 | 45 => 9 | 46 => 18 | _ => 19

/-- The cause vector of a unit (R57, R179, R226, R252, R411, and the EVT registers of the units). -/
def Datapath.causeOf (d : Datapath) (u : Nat) : Nat :=
  let evt (r : Reg) : Nat := (r.readWord (d.regWord 0 r 0 0)).toNat % 2 ^ 16
  let nz (r : Reg) : Bool := r.readWord (RegFile.word d.regs r u 0) ≠ 0
  if u < 40 then
    b2n (u < 32 && nz .penLinkChg) + 2 * b2n (u < 32 && nz .penRxStormChg) + 4 * b2n (d.flag F.penWakeHit_HIT u) +
      8 * b2n (d.flag F.penParseStat_NEW u) + 16 * b2n (u < 32 && nz .penMmChg) + 32 * b2n (nz .penTallyEvt)
  else
    match u with
    | 40 => evt .larEvt | 41 => evt .actEvt | 42 => evt .celEvt | 43 => evt .drvEvt | 44 => evt .trgEvt
    | 45 => evt .stpEvt | 46 => evt .timEvt | 47 => evt .cvuEvt | 48 => evt .hdmEvt
    | 49 => b2n (d.flag F.pmnEvt_HALF) + 2 * b2n (d.flag F.pmnEvt_WRAP)
    | 50 => evt .flkEvt
    | _ => 0

/-- The shepherd's copies of the vectors of a domain that goes off are 0 (R61). -/
def Shepherd.dropCauses (h : Shepherd) (dom : Nat) : Shepherd :=
  { h with cause := Tab.drop h.cause (fun u => unitDomain u = dom) }

/-- One event word for every unit (R61). -/
def State.allEvents (s : State) : State :=
  s.onSh (fun h => { h with cause := loop 51 (fun u t => Tab.put t u (s.dp.causeOf u) 0) h.cause })

/-! ## Time across sleep (R491, R492, R166) -/

/-- The time save of every base (R491). -/
def Datapath.timeSaves (d : Datapath) : List TimeSave :=
  (List.range 8).map (fun b =>
    let x := d.tb b
    { sec := x.sec, ns := x.ns, frac := x.frac, rate := d.rd F.timRate_RATE b, thresh := d.rd F.timThresh_THRESH b
      wd := d.rd F.timCorrWd_WD b, aonNs := d.rd F.timAonNs_AON_NS b, aonMeas := d.rd F.timCtl_AON_MEAS b
      holdover := d.holdover b, virgin := d.flag F.timStat_VIRGIN b })

/-- A base restarts from its save after n edges of clk_aon (R492). -/
def Datapath.wakeAdvance (d : Datapath) (n tol b : Nat) (v : TimeSave) : Datapath :=
  let x : TimeBase := { sec := v.sec, ns := v.ns, frac := v.frac }
  let adv := (n * v.aonNs * 2 ^ 8) % 2 ^ 96
  let d := d.setTb b (x.withFine (x.fine + adv))
  let d := ((((d.wr F.timRate_RATE v.rate b).wr F.timThresh_THRESH v.thresh b).wr F.timCorrWd_WD v.wd b).wr
    F.timAonNs_AON_NS v.aonNs b).wr F.timCtl_AON_MEAS v.aonMeas b
  let d := ((d.wr F.timStat_HOLDOVER 1 b).wr F.timStat_VIRGIN (b2n v.virgin) b).wr F.timHoldErr_ERR
    (min (ceilDiv (n * 20 * tol) 1000000000 + 5) 0xFFFFFFFF) b
  if v.holdover then d else d.wr F.timEvt_HOLD_CHG 1

/-- The bases restart as pdx_18_iso falls: advanced from the saves where there are any, else at 0 (R166, R492). The
oscillator tolerance is the shepherd's (R494, R510). -/
def State.timeRestart (s : State) : State :=
  let d := s.dp.wr F.timAonTol_PPB s.sh.aonTol
  let d := ((List.range 8).zip s.sh.saves).foldl (fun d e => d.wakeAdvance s.sh.sleepN s.sh.aonTol e.1 e.2) d
  { s with dp := d.gatesFollow, sh := { s.sh with saves := [], sleepRun := false } }

/-! ## Conditions of QUIESCE (R603) -/

/-- Larder work under way (R299). -/
def Datapath.larWork (d : Datapath) : Bool := d.larBusy || d.lar.flips.any Option.isSome || d.lar.fifo ≠ []

/-- Loft frames, sinks or discarding queues (R365). -/
def Datapath.loftWork (d : Datapath) : Bool :=
  d.cel.lofts.any (fun e => e.2.frames ≠ [] || e.2.sinking) || d.cel.sw ≠ [] || (List.range 512).any d.downReason || d.cel.refold ≠ [] ||
  d.rx.any (fun e => (List.range 8).any (fun c => (d.pauseOf e.1 c).drop))

/-- Queues or rings in RUNNING or STOPPING, or completions held (R462). -/
def Datapath.troughWork (d : Datapath) : Bool :=
  d.liveQueues.any (fun x => d.qSt x = QS.running || d.qSt x = QS.stopping) ||
  d.regs.any (fun e => (Reg.trgCqCtl.geom.index e.1).isSome &&
    (F.trgCqCtl_STATE.of e.2 = QS.running || F.trgCqCtl_STATE.of e.2 = QS.stopping)) || d.trg.rings.any (fun e => e.2.held ≠ [])

/-- A flock frame in transmission (R534). -/
def Datapath.flockWork (d : Datapath) : Bool :=
  d.copies.any (fun e => (e.2.flock || e.2.kind = 2) && (e.2.granted || e.2.started)) ||
  d.tx.any (fun e => match e.2.tail with
    | some w => w.flock.isSome
    | none => false)

/-- A copy in transmission or granted, or a frame between parse start and storage. -/
def Datapath.frameWork (d : Datapath) : Bool :=
  d.copies.any (fun e => e.2.granted || e.2.started) || d.tx.any (fun e => e.2.tail.isSome || e.2.away) ||
  d.passes.any (fun e => e.2 ≠ []) || d.frames.any (fun e => e.2.admitted && !e.2.allWritten)

/-- The conditions of R603 as bits 0 to 8. -/
def State.conditions (s : State) : Nat :=
  let d := s.dp
  let l := s.sh.link
  ofBits 9 (fun j => match j with
    | 0 => s.sh.fld.state ≠ .idle
    | 1 => d.larWork
    | 2 => d.loftWork
    | 3 => d.troughWork
    | 4 => d.stp.any (fun e => e.2.busy)
    | 5 => d.flockWork
    | 6 => (List.range 16).any (fun c => d.hdmState c ≠ HS.idle) || d.hdm.drain.isSome
    | 7 => l.slotA.sent.isSome || l.slotB.sent.isSome
    | _ => d.frameWork)

/-- The conditions that apply to a set of domains that go off or stop (R603). -/
def condMask (doms : List Nat) : Nat :=
  let any (l : List Nat) : Bool := l.any (fun d => doms.contains d)
  ofBits 9 (fun j => match j with
    | 1 => any [16, 17]
    | 2 => any [11, 12, 13, 14, 15]
    | 3 => any [9]
    | 4 => any [9]
    | 5 => any [19]
    | 6 => any [19]
    | _ => true)

end Sys2Proof.Machine
end

