-- ==== Sys2Proof/Machine/PowerCore.lean ====
section
/-! DEFINITION. The power sequencer: the steps of a cold start, an entry, a change of the cruise point and a wake, and
how it runs them (spec/05, spec/22). -/

namespace Sys2Proof.Machine

/-! ## Pins and events -/

/-- Applies f to the sequencer. -/
def Shepherd.onSeq (h : Shepherd) (f : Seq → Seq) : Shepherd := { h with seq := f h.seq }

/-- Applies f to the signals of a domain. -/
def Shepherd.modDom (h : Shepherd) (d : Nat) (f : DomPins → DomPins) : Shepherd := h.setDom d (f (h.dom d))

/-- Whether clk_req_shf is kept at 1: for an open reset, a domain that is on, or a release not yet recorded (R86). -/
def Shepherd.holdsShf (h : Shepherd) : Bool :=
  h.portA.pulses ≠ 0 || h.portB.pulses ≠ 0 || h.portA.rstN || h.portB.rstN || raiseOrder.any (fun d => (h.dom d).pwrReq || (h.dom d).ready)

/-- A clock request rises, only while its acknowledge is 0 (R36). -/
def Shepherd.raiseClk (h : Shepherd) (x : Nat) : Shepherd :=
  if (h.clk x).ack then h else h.setClk x { h.clk x with req := true }

/-- A clock request falls, but for clk_req_shf while R86 holds it. -/
def Shepherd.lowerClk (h : Shepherd) (x : Nat) : Shepherd :=
  if x = 2 && h.holdsShf then h else h.setClk x { h.clk x with req := false }

/-- clk_req_shf follows R86 while no sequence runs. -/
def Shepherd.shfFollow (h : Shepherd) : Shepherd :=
  if h.holdsShf then (if (h.clk 2).req then h else h.raiseClk 2)
  else if h.seq.kind = .none && h.blkN then h.lowerClk 2 else h

/-- Whether the block is in a sleep state. -/
def PState.asleep : PState → Bool
  | .run => false
  | .trim => false
  | _ => true

/-- The code of a power state (R618). -/
def PState.code : PState → Nat
  | .run => 0 | .trim => 1 | .doze => 2 | .watch => 3 | .hibernate => 4 | .off => 5

/-- The state that a TARGET code names; 6 and 7 name none (R618). -/
def PState.ofCode : Nat → Option PState
  | 0 => some .run | 1 => some .trim | 2 => some .doze | 3 => some .watch | 4 => some .hibernate | 5 => some .off
  | _ => none

/-- A cause of PWR_EVT is set. -/
def State.pwrEvent (s : State) (f : RegField) : State := s.onSh (fun h => h.wr f 1)

/-! ## Steps (R156, R605, R607, R612) -/

/-- The writes of the rails that a column of PWR_VOLT addresses, in rail order (R605, R607, R626). -/
def Shepherd.railSteps (h : Shepherd) (col : Nat) : List SeqStep :=
  (List.range 4).filterMap (fun r => let mv := h.rd F.pwrVolt_MV (5 * r + col); if mv = 0 then none else some (.avs r mv))

/-- Rail writes and the settle time after them; nothing where no rail is addressed. -/
def settled (l : List SeqStep) : List SeqStep := if l.isEmpty then [] else l ++ [.settle]

/-- Whether PWR_SENTINEL names a domain (R618). -/
def Shepherd.sentinel (h : Shepherd) (d : Nat) : Bool := 1 ≤ d && d ≤ 8 && (h.rd F.pwrSentinel_DOM).testBit (d - 1)

/-- The domains that a state holds off, PD1 first (R597). -/
def Shepherd.offFor (h : Shepherd) (t : PState) : List Nat :=
  match t with
  | .watch => ((List.range 17).map (· + 1)).filter (fun d => !h.sentinel d)
  | .hibernate => (List.range 19).map (· + 1)
  | .off => (List.range 19).map (· + 1)
  | _ => []

/-- Whether PWR_RETAIN selects a memory of a domain (R82, R599). -/
def Shepherd.retains (h : Shepherd) (d : Nat) : Bool :=
  match d with
  | 9 => h.flag F.pwrRetain_QCTX
  | 11 => h.flag F.pwrRetain_CELLAR
  | 12 => h.flag F.pwrRetain_CELLAR
  | 13 => h.flag F.pwrRetain_CELLAR
  | 14 => h.flag F.pwrRetain_CELLAR
  | 16 => h.flag F.pwrRetain_LARDER
  | 17 => h.flag F.pwrRetain_FLOWCNT
  | _ => false

/-- A stop of clk_core, the change of clk_sel_core and the restart; nothing where it stands as wanted (R39). -/
def Shepherd.selSteps (h : Shepherd) (v : Bool) : List SeqStep :=
  if h.selCore = v then [] else [.clkDown [0], .clkSel v, .clkUp [0]]

/-- DOWN of an entry (R605): domains, clocks, rails of the column of R626. -/
def Shepherd.downSteps (h : Shepherd) (t : PState) : List SeqStep :=
  let offs := (h.offFor t).map (fun d => SeqStep.down d (t ≠ .off && h.retains d))
  let clocks : List SeqStep := match t with
    | .doze => [.clkDown [0, 1, 3]]
    | .watch => if h.selCore then [.clkDown [1]] else [.clkDown [0, 1], .clkSel true, .clkUp [0]]
    | _ => [.clkDown [0, 1, 2, 3]]
  let rails := match t with
    | .doze => h.railSteps 2
    | .watch => h.railSteps 3
    | .hibernate => h.railSteps 4
    | _ => []
  .phase 3 :: (offs ++ clocks ++ rails)

/-- Whether the image in force admits the cruise point that is asked for (R31). -/
def Shepherd.cruiseAllowed (h : Shepherd) : Bool := !h.seq.latchedCruise || h.flag F.fldStat_CRUISE_OK

/-- The change of the cruise point (R612); a start move has written its rails before (R616). -/
def Shepherd.cruiseSteps (h : Shepherd) : List SeqStep :=
  let toCruise := h.seq.latchedCruise
  let rails := if h.seq.plan then [] else h.railSteps (if toCruise then 1 else 0)
  .phase 3 :: (if toCruise then h.selSteps true ++ rails else settled rails ++ h.selSteps false)

/-- The phases of a wake from DOZE, WATCH or HIBERNATE (R607, R610, R626). -/
def Shepherd.wakeSteps (h : Shepherd) : List SeqStep :=
  let v := h.seq.wakeCruise
  let rails := if h.seq.state = .doze && (h.railSteps 2).isEmpty then [] else settled (h.railSteps (if v then 1 else 0))
  let doms := raiseOrder.filter (fun d => (h.dom d).iso && !h.seq.faulted.contains d)
  (if rails.isEmpty then [] else .phase 4 :: rails) ++
  [.phase 5] ++ (if h.selCore = v then [] else [.clkDown [0], .clkSel v]) ++ [.clkUp [0, 1, 2, 3]] ++
  (if doms.isEmpty then []
   else [.phase 6] ++ doms.map .up ++ [.phase 7, .memory doms false, .phase 8, .logic (!h.dpRstN)] ++ doms.map .iso ++
     [.phase 9, .restore])

/-- What a failed cold start lowers (R158), or a failed wake (R609); the wait before the next attempt, unless the third
has failed. -/
def Shepherd.failSteps (h : Shepherd) : List SeqStep :=
  let doms := raiseOrder.reverse.filter (fun d => (h.dom d).pwrReq && (h.dom d).iso)
  let clocks : List SeqStep :=
    if h.seq.kind ≠ .wake then [.clkDown [0, 1, 2, 3]]
    else match h.seq.state with
      | .doze => [.clkDown [0, 1, 3]]
      | .watch => if h.selCore then [.clkDown [1], .clkUp [0]] else [.clkDown [0, 1], .clkSel true, .clkUp [0]]
      | _ => [.clkDown [0, 1, 2, 3]]
  doms.map .lower ++ clocks ++ (if h.seq.attempt + 1 < 3 then [.retry] else [])

/-! ## Domains off and on -/

/-- Whether a request to a register of a domain is outstanding on the link (R90). DEDUCED, log entry 17: an access that was accepted as
awake and still waits for the link does not keep its domain on. -/
def Link.busyWith (l : Link) (d : Nat) : Bool :=
  let aims (x : LinkSlot) : Bool := match x.sent with
    | some r => domainOf r.addr = d
    | none => false
  aims l.slotA || aims l.slotB

/-- A domain goes off in an entry: isolation, retention, request (R605), with the time save and the start of the sleep
tally at pdx_18_iso (R491, R619), and shl_dp_rst_n before PD19. -/
def State.domainDown (s : State) (d : Nat) (ret : Bool) : State :=
  let s := if d = 18 then s.onSh (fun h => { h with saves := s.dp.timeSaves, sleepN := 0, sleepRun := true }) else s
  let s := if d = 19 then s.onSh (fun h => { h with dpRstN := false }) else s
  (s.onSh (fun h => (h.modDom d (fun p => { p with iso := true, ret := ret, pwrReq := false })).dropCauses d)).resetDomain d ret
    false false

/-- A faulted domain is isolated, its request and retention go down (R610). A fault of PD18 discards the time saves (R495). -/
def Shepherd.isolateLost (h : Shepherd) (d : Nat) : Shepherd :=
  let h := (h.modDom d (fun p => { p with iso := true, ret := false, pwrReq := false })).dropCauses d
  if d = 18 then { h with saves := [] } else h

/-- What the shepherd makes of a domain fault (R610): the domain's bit and the cause, isolation up, request and retention down.
The isolation waits while a request to the domain is outstanding on the link (R90). -/
def Shepherd.loseDomain (h : Shepherd) (d : Nat) : Shepherd :=
  let h := (h.wr F.pwrPdFault_FAULT (setBit (h.rd F.pwrPdFault_FAULT) (d - 1) true)).wr F.pwrEvt_DOMAIN_FAULT 1
  let h := h.onSeq (fun q => { q with faulted := (d :: q.faulted).eraseDups })
  if h.link.busyWith d then h.onSeq (fun q => { q with lost := d :: q.lost }) else h.isolateLost d

/-- A domain fault (R610): what the shepherd makes of it, and the domain's memories lost. One of PD9 loses the store-room
trackers (R42). -/
def State.domainLost (s : State) (d : Nat) : State :=
  let s := (s.onSh (fun h => h.loseDomain d)).resetDomain d false false false
  if d = 18 && s.sh.domOn 17 then s.onDp Datapath.gatesFollow else s

/-- The faulted domains that no outstanding request names any more are isolated (R90). -/
def Shepherd.lostDone (h : Shepherd) : Shepherd :=
  let go := h.seq.lost.filter (fun d => !h.link.busyWith d)
  (go.foldl Shepherd.isolateLost h).onSeq (fun q => { q with lost := q.lost.filter (fun d => !go.contains d) })

/-- The mirrored registers whose values the shepherd keeps are rewritten at the datapath: LAR_LIVE and the seeds (R292). -/
def State.mirror (s : State) : State :=
  s.onDp (fun d => { d.wr F.larLive_COPY s.sh.live with lar := { d.lar with live := s.sh.live, flips := [], cseed := s.sh.cseed } })

/-- The memory phase ends (R159, R160, R600, R607). A cold start initialises everything and takes LAR_LIVE and the seeds
back to 0 (R292), but leaves FLK_ADDR (R534); a wake rebuilds a retained cellar and lowers ret. -/
def State.memoryDone (s : State) (doms : List Nat) (cold : Bool) : State :=
  let s :=
    if cold then
      (doms.foldl (fun s d => s.resetDomain d false false true) s).onSh (fun h => { h with live := 0, cseed := [] })
    else if (s.sh.dom 11).ret then s.onDp Datapath.cellarRebuild else s
  s.onSh (fun h => doms.foldl (fun h d => h.modDom d (fun p => { p with ret := false })) h)

/-- The isolation of a domain falls; the time bases restart at that of PD18 (R166, R492, R619). -/
def State.isoFall (s : State) (d : Nat) : State :=
  let s := s.onSh (fun h => h.modDom d (fun p => { p with iso := false }))
  if d = 18 then s.timeRestart else s

/-- A wake restore begins, for the domains that did not stay on (R148, R608). DESIGN CHOICE, log entry 109: an operation of FLD_CMD that
runs is replaced by it, without an event. -/
def Shepherd.restoreBegin (h : Shepherd) : Shepherd :=
  let h := h.fldBegin .a .restore 0 0 0
  (h.onFld (fun l => { l with len := streamWords l.stream })).fldSend

/-! ## Running steps -/

/-- Whether work of a domain keeps it from being switched off (R299, R365, R462, R480, R534, R569): the conditions of R603
that name the domain, which a master may have raised again since QUIESCE ended. -/
def State.holdsOn (s : State) (d : Nat) : Bool := (s.conditions &&& condMask [d] &&& 0x7E) ≠ 0

/-- Whether clk_sel_core may not go to 1 as the move to the cruise point, or the wake, was to take it: the image in force has come
to admit no cruise point (R31). -/
def Shepherd.cruiseBarred (h : Shepherd) (v : Bool) : Bool :=
  v && !h.selCore && !h.flag F.fldStat_CRUISE_OK && !h.seq.failed && (h.seq.kind = .cruise || h.seq.kind = .wake)

/-- What is left of a move whose change of clk_sel_core is turned away: clk_core restarts at 2.0 GHz, after the rails of that point
where those of the cruise point have been written, and a wake goes on (R31, R626). -/
def Shepherd.turnedSteps (h : Shepherd) (rest : List SeqStep) : List SeqStep :=
  let rails := if h.seq.kind = .wake || h.seq.plan then settled (h.railSteps 0) else []
  rails ++ (if h.seq.kind = .wake then rest else [.clkUp [0]])

/-- The move to the cruise point is turned away and flagged as clk_core stands, so that the block stays at 2.0 GHz (R31, R612). -/
def State.cruiseBar (s : State) : State :=
  (s.onSh (fun h => h.onSeq (fun q =>
    { q with
      todo := q.todo.take 1 ++ h.turnedSteps (q.todo.drop 1), latchedCruise := q.latchedCruise && q.kind = .wake
      wakeCruise := false, turned := q.kind = .cruise && !q.plan }))).pwrEvent F.pwrEvt_CRUISE_REFUSED

/-- The head step waits. -/
def State.seqWait (s : State) : State × Bool := (s.onSh (fun h => h.onSeq (fun q => { q with started := true })), false)

/-- Begins or takes up the step at the head; tells whether it has ended. -/
def State.seqTry (s : State) (x : SeqStep) : State × Bool :=
  let h := s.sh
  match x with
  | .phase n => (s.onSh (fun h => h.onSeq (fun q => { q with phase := n })), true)
  | .avs rail mv =>
    if h.seq.started || h.avsRun.isSome then (s, false)
    else (s.onSh (fun h => { h with avsRun := some ({ op := 3, rail := rail, data := mv }, true) })).seqWait
  | .settle => s.seqWait
  | .clkSel v =>
    if h.selCore = v then (s, true)
    else if h.cruiseBarred v then (s.cruiseBar, true)
    else if (h.clk 0).req || (h.clk 0).ack then s.seqWait
    else (s.onSh (fun h => { h with selCore := v }), true)
  | .clkUp xs =>
    let s := s.onSh (fun h => xs.foldl (fun h x => if (h.clk x).req then h else h.raiseClk x) h)
    if xs.all (fun x => (s.sh.clk x).req && (s.sh.clk x).ack) then (s, true) else s.seqWait
  | .clkDown xs =>
    let s := s.onSh (fun h => xs.foldl Shepherd.lowerClk h)
    if xs.all (fun x => (s.sh.clk x).req || !(s.sh.clk x).ack) then (s, true) else s.seqWait
  | .up d =>
    if h.seq.faulted.contains d then (s, true)
    else
      let s := s.onSh (fun h => h.modDom d (fun p => { p with pwrReq := true }))
      if (h.dom d).ready then (s, true) else s.seqWait
  | .down d ret =>
    if h.seq.faulted.contains d then ((if d = 19 then s.onSh (fun h => { h with dpRstN := false }) else s), true)
    else if h.seq.started then (s, !(h.dom d).ready)
    else if h.link.busyWith d || s.holdsOn d then (s, false)
    else
      let s := s.domainDown d ret
      if (h.dom d).ready then s.seqWait else (s, true)
  | .lower d =>
    let s := s.onSh (fun h => h.modDom d (fun p => { p with pwrReq := false }))
    if (h.dom d).ready then s.seqWait else (s, true)
  | .memory _ _ => s.seqWait
  | .logic release =>
    if !release then (s.mirror, true)
    else if h.seq.started then (s, false)
    else ((s.onSh (fun h => { h with dpRstN := true })).mirror.allEvents).seqWait
  | .iso d => if (h.dom d).iso && !h.seq.faulted.contains d then s.seqWait else (s, true)
  | .restore =>
    if h.seq.started then (s, false)
    else if h.flag F.fldStat_IN_FORCE then (s.onSh Shepherd.restoreBegin).seqWait
    else (s, true)
  | .retry => s.seqWait

/-- The head step is over. -/
def State.seqPop (s : State) : State := s.onSh (fun h => h.onSeq (fun q => { q with todo := q.todo.drop 1, started := false }))

/-- The sequencer is IDLE in a state. ATTEMPT counts the attempts of a running wake or cold start. -/
def Shepherd.seqIdle (h : Shepherd) (st : PState) : Shepherd :=
  h.onSeq (fun q =>
    { q with
      kind := .none, todo := [], started := false, state := st, phase := 0, attempt := 0, failed := false
      plan := false, turned := false })

/-- The state is taken; pens are no longer gated (R615). -/
def State.taken (s : State) (st : PState) : State :=
  { s with sh := s.sh.seqIdle st, dp := { s.dp with gated := [] } }

/-- QUIESCE begins (R602). -/
def Shepherd.quiesceBegin (h : Shepherd) : Shepherd := h.onSeq (fun q => { q with kind := .quiesce, phase := 2, todo := [], started := false })

/-- With the sequencer IDLE in RUN or TRIM, a due exit from the cruise point starts (R613); clk_req_shf follows R86. -/
def State.seqRest (s : State) : State :=
  let s := s.onSh Shepherd.shfFollow
  let q := s.sh.seq
  if q.kind ≠ .none || q.state.asleep || !q.cruiseExit then s
  else if q.cruiseOn then
    s.onSh (fun h => (h.onSeq (fun q => { q with latched := q.state, latchedCruise := false })).quiesceBegin)
  else s.onSh (fun h => h.onSeq (fun q => { q with cruiseExit := false }))

/-- CRUISE_OK has fallen while clk_sel_core went to 1: the exit of R613 is due as the change ends (R31). -/
def Shepherd.exitDue (h : Shepherd) : Bool := h.selCore && !h.flag F.fldStat_CRUISE_OK

/-- A sequence has run its last step (R156, R158, R602, R604, R607, R609, R612, R616). A move to the cruise point that was turned
away leaves the state as it was (R31, R612). -/
def State.seqEnd (s : State) : State :=
  let q := s.sh.seq
  if q.failed then
    (s.onSh (fun h => (h.seqIdle q.state).onSeq (fun q' =>
      { q' with stopped := q'.stopped || q.kind ≠ .wake, cruiseOn := if q.state = .watch then q'.cruiseOn else h.selCore }))).seqRest
  else
    match q.kind with
    | .cold => ((s.taken .run).onSh (fun h => (h.onSeq (fun q => { q with cruiseOn := false })).wr F.pwrEvt_COLD_DONE 1)).seqRest
    | .wakeOff =>
      ((s.taken .run).onSh (fun h =>
        ((h.onSeq (fun q => { q with cruiseOn := false })).wr F.pwrEvt_COLD_DONE 1).wr F.pwrEvt_WAKE_DONE 1)).seqRest
    | .wake =>
      ((s.taken q.wakeTo).onSh (fun h => (h.onSeq (fun q => { q with cruiseOn := h.selCore, cruiseExit := h.exitDue })).wr F.pwrEvt_WAKE_DONE 1)).seqRest
    | .entry =>
      let s := s.taken q.latched
      let s := if q.latched ≠ .off then s
               else s.onSh (fun h => { ((h.wr F.fldStat_STORED_OK 0).wr F.fldStat_IN_FORCE 0).wr F.fldStat_CRUISE_OK 0 with saves := [] })
      (s.pwrEvent F.pwrEvt_ENTERED).seqRest
    | .cruise =>
      if q.turned then (s.onSh (fun h => (h.seqIdle q.state).onSeq (fun q => { q with cruiseOn := h.selCore }))).seqRest
      else
        let s := (s.taken q.latched).onSh (fun h => h.onSeq (fun q => { q with cruiseOn := h.selCore, cruiseExit := h.exitDue }))
        let s := if q.cruiseExit then s.pwrEvent F.pwrEvt_CRUISE_EXIT else s
        (s.pwrEvent F.pwrEvt_ENTERED).seqRest
    | .startMove =>
      if q.latchedCruise = q.cruiseOn then ((s.taken q.latched).pwrEvent F.pwrEvt_ENTERED).seqRest
      else s.onSh (fun h => (h.onSeq (fun q => { q with plan := true, blocked := none })).quiesceBegin)
    | _ => s

/-- Runs steps, at most n, until one waits or none is left. -/
def State.seqRun : Nat → State → State
  | 0, s => s
  | n + 1, s =>
    match s.sh.seq.todo with
    | [] => s
    | x :: rest =>
      let r := s.seqTry x
      if r.2 then
        if rest.isEmpty then r.1.seqPop.seqEnd else State.seqRun n r.1.seqPop
      else r.1

/-- The sequencer takes up its head step. No sequence has more than 60 steps. -/
def State.seqGo (s : State) : State := s.seqRun 64

/-- The head step has ended by an event. -/
def State.seqNext (s : State) : State :=
  match s.sh.seq.todo with
  | _ :: _ :: _ => s.seqPop.seqGo
  | _ => s.seqPop.seqEnd

/-- The step at the head, once it waits. -/
def Shepherd.seqHead (h : Shepherd) : Option SeqStep := if h.seq.started then h.seq.todo.head? else none

/-- Whether a cold start runs, also as the wake from OFF. -/
def Seq.cold (q : Seq) : Bool := q.kind = .cold || q.kind = .wakeOff

/-- The attempt of a cold start or wake fails (R158, R609). -/
def State.seqFail (s : State) : State :=
  let s := s.pwrEvent (if s.sh.seq.cold then F.pwrEvt_COLD_FAIL else F.pwrEvt_WAKE_FAIL)
  (s.onSh (fun h => h.onSeq (fun q =>
    { q with todo := h.failSteps, started := false, failed := true, attempt := q.attempt + 1 }))).seqGo

/-- The head step meets its limit: the flag is set but in a cold start; a cold start or a wake in its phases fails, anything
else continues (R158, R605, R609). -/
def State.seqExpire (s : State) (flag : RegField) : State :=
  let q := s.sh.seq
  let s := if q.cold then s else s.pwrEvent flag
  if (q.cold || q.kind = .wake) && !q.failed then s.seqFail else s.seqNext

/-- A sequence starts. -/
def State.seqStart (s : State) (k : SeqKind) (todo : List SeqStep) : State :=
  (s.onSh (fun h => h.onSeq (fun q => { q with kind := k, todo := todo, started := false, failed := false }))).seqGo

/-! ## AVSBus (R611) -/

/-- A waiting frame of a master starts once the bus is free. -/
def Shepherd.avsNext (h : Shepherd) : Shepherd :=
  match h.avsRun, h.avsWait with
  | none, some f => { h with avsRun := some (f, false), avsWait := none }
  | _, _ => h

/-- The sequencer goes on, its frames before a master's; faulted domains that waited for the link are isolated (R90). -/
def State.seqKick (s : State) : State := ((s.onSh Shepherd.lostDone).seqGo).onSh Shepherd.avsNext

/-- Whether a master frame waits or runs. -/
def Shepherd.avsBusy (h : Shepherd) : Bool :=
  h.avsWait.isSome || (match h.avsRun with
    | some (_, own) => !own
    | none => false)

/-- A command of PWR_AVS_CMD. While a master frame waits or runs it is not taken. -/
def State.avsCmd (s : State) (op rail data : Nat) : State :=
  if op = 0 || s.sh.avsBusy then s
  else s.onSh (fun h => ({ h with avsWait := some { op := op, rail := rail, data := data } } : Shepherd).avsNext)

/-- A master's frame ends: a read that was acknowledged returns its data. -/
def Shepherd.avsResult (h : Shepherd) (f : AvsFrame) (good : Bool) (data : Nat) : Shepherd :=
  let h := if good && f.op ≠ 3 then h.wr F.pwrAvsResult_DATA data else h
  (h.wr F.pwrAvsResult_ERR (b2n (!good))).wr F.pwrAvsResult_DONE 1

/-- An AVSBus frame ends with its response: `good` tells the code Good, `data` the word returned. -/
def State.avsEnd (s : State) (good : Bool) (data : Nat) : State :=
  match s.sh.avsRun with
  | none => s
  | some (f, own) =>
    let s := s.onSh (fun h => { h with avsRun := none })
    let s := if good then s else s.pwrEvent F.pwrEvt_AVS_ERR
    if own then
      let q := s.sh.seq
      (if !good && (q.cold || q.kind = .wake) && !q.failed then s.seqFail else s.seqNext).onSh Shepherd.avsNext
    else (s.onSh (fun h => h.avsResult f good data)).seqKick

/-- An AVSBus frame meets its limit. -/
def State.avsExpire (s : State) : State :=
  match s.sh.avsRun with
  | none => s
  | some (f, own) =>
    let s := s.onSh (fun h => { h with avsRun := none })
    if own then (s.seqExpire F.pwrEvt_AVS_TIMEOUT).onSh Shepherd.avsNext
    else ((s.pwrEvent F.pwrEvt_AVS_TIMEOUT).onSh (fun h => h.avsResult f false 0)).seqKick

/-! ## Waking and entering (R602, R606, R612, R616) -/

/-- A wake takes its target, a state at a cruise point (R606), and the domains that have stayed on. A wake to the cruise point
under an image that does not admit it runs to 2.0 GHz and sets CRUISE_REFUSED (R31). -/
def State.wakeTake (s : State) (t : PState) (want : Bool) : State :=
  let cruise := want && s.sh.flag F.fldStat_CRUISE_OK
  let s := if want && !cruise && s.sh.seq.state ≠ .off then s.pwrEvent F.pwrEvt_CRUISE_REFUSED else s
  s.onSh (fun h =>
    let h := h.onSeq (fun q => { q with latched := t, wakeTo := t, wakeCruise := cruise, attempt := 0, failed := false })
    h.onFld (fun l => { l with kept := raiseOrder.filter (fun d => !(h.dom d).iso) }))

/-- A wake starts (R606); one from OFF ends at 2.0 GHz whatever was latched. -/
def State.wakeStart (s : State) (t : PState) (want : Bool) : State :=
  let s := s.wakeTake t want
  if s.sh.seq.state = .off then s.seqStart .wakeOff coldSteps
  else
    let s := s.onSh (fun h => h.onSeq (fun q => { q with kind := .wake }))
    s.seqStart .wake s.sh.wakeSteps

/-- A wake source other than PWR_WAIT: the wake returns to what the entry latched. A source that fires while a wake runs
has no further effect. -/
def State.wakeSource (s : State) (bit : RegField) : State :=
  let s := s.onSh (fun h => h.wr bit 1)
  if s.sh.seq.kind ≠ .none then s else s.wakeStart s.sh.seq.ret s.sh.seq.retCruise

/-- Whether every sentinel domain holds a carved port, and there is one (R601). -/
def State.sentinelsOk (s : State) : Bool :=
  let ds := ((List.range 8).map (· + 1)).filter s.sh.sentinel
  !ds.isEmpty && ds.all (fun d => (pensOf d).any (fun p => (List.range 16).any (fun i => s.dp.carved (16 * p + i))))

/-- PWR_WAIT is latched: an entry, a change or a wake begins. -/
def State.latch (s : State) (m : RPort) (t : PState) (cruise : Bool) : State :=
  let q := s.sh.seq
  let s := s.onSh (fun h => h.onSeq (fun q => { q with latched := t, latchedCruise := cruise, waiter := m }))
  if q.state.asleep then s.wakeStart t cruise
  else
    let s := s.onSh (fun h => h.onSeq (fun q => { q with blocked := none }))
    if t.asleep then
      let s := s.onSh (fun h => h.onSeq (fun q => { q with ret := q.state, retCruise := cruise }))
      if s.sh.rd F.pwrVetoWindow_US = 0 then s.onSh Shepherd.quiesceBegin
      else s.onSh (fun h => h.onSeq (fun q => { q with kind := .window, phase := 1 }))
    else if cruise ≠ q.cruiseOn then s.onSh Shepherd.quiesceBegin
    else ((s.taken t).pwrEvent F.pwrEvt_ENTERED).seqRest

/-- A write of PWR_WAIT by port m (R601, R602, R612, R627). -/
def State.pwrWait (s : State) (m : RPort) (be : BitVec 4) (data : Word) : State :=
  let q := s.sh.seq
  let cruise := s.sh.flag F.pwrMode_CRUISE
  if be ≠ 0xF || data ≠ 0x57414954 || q.kind ≠ .none || q.stopped then s.pwrEvent F.pwrEvt_WAIT_REFUSED
  else
    match PState.ofCode (s.sh.rd F.pwrMode_TARGET) with
    | none => s.pwrEvent F.pwrEvt_WAIT_REFUSED
    | some t =>
      if cruise && !s.sh.flag F.fldStat_CRUISE_OK then s.pwrEvent F.pwrEvt_CRUISE_REFUSED
      else if q.state.asleep && t.asleep then s.pwrEvent F.pwrEvt_WAIT_REFUSED
      else if t = q.state && cruise = q.cruiseOn then s
      else if t = .watch && !s.sentinelsOk then s.pwrEvent F.pwrEvt_WAIT_REFUSED
      else s.latch m t cruise

/-- The start move of a POWER_PLAN record (R616). -/
def State.startMove (s : State) (r : List Byte) : State :=
  let q := s.sh.seq
  let c := (le r 2 1).testBit 2
  let ok := s.sh.flag F.fldStat_CRUISE_OK
  if q.kind ≠ .none || q.stopped then s.pwrEvent F.pwrEvt_WAIT_REFUSED
  else
    let s := if c && !ok then s.pwrEvent F.pwrEvt_CRUISE_REFUSED else s
    let cruise := c && ok
    let t : PState := if le r 2 1 % 4 = 0 then .run else .trim
    let s := s.onSh (fun h => h.onSeq (fun q => { q with latched := t, latchedCruise := cruise }))
    s.seqStart .startMove (.phase 3 :: settled (s.sh.railSteps (if cruise then 1 else 0)))

end Sys2Proof.Machine
end

