-- ==== Sys2Proof/Machine/Power.lean ====
section
/-! DEFINITION. The commands of the power sequencer and of the resets (spec/05, spec/22), and writes of both ports to one
SHP or PWR register in the same cycle (spec/03). -/

namespace Sys2Proof.Machine

/-! ## Writes at the register core (R85, R87) -/

/-- Port m writes an SHP or PWR register, `f` being the write's effect; `tie` is the write of the other port to the same
register in the same cycle, if there is one. The port that the token names is applied first, and the token passes. A port
that is not open makes no write. -/
def State.coreWrite (s : State) (addr : Nat) (m : RPort) (be : BitVec 4) (data : Word) (tie : Option (BitVec 4 × Word))
    (f : RPort → BitVec 4 → Word → State → State) : State :=
  let one (s : State) (p : RPort) (b : BitVec 4) (w : Word) : State :=
    if s.portOpen p then (f p b w s).performed (.port p) addr true 0 else s
  match tie with
  | none => one s m be data
  | some (be', data') =>
    let t := s.sh.token
    let both := s.portOpen .a && s.portOpen .b
    let s :=
      if t = m then one (one s m be data) m.peer be' data'
      else one (one s m.peer be' data') m be data
    if both then s.onSh (fun h => { h with token := t.peer }) else s

/-! ## Register-port resets at the core (R86, R94, R107, R114) -/

/-- Applies f to the view of a port. -/
def Shepherd.modView (h : Shepherd) (m : RPort) (f : View → View) : Shepherd := h.setView m (f (h.view m))

/-- The semaphores that a port holds, as bits (R106). -/
def Shepherd.held (h : Shepherd) (m : RPort) : Nat := ofBits 32 (fun n => h.sem.getD n none = some m)

/-- The effects of a port's own reset and of its peer's (R94, R101, R107, R114). -/
def Shepherd.portReset (h : Shepherd) (m : RPort) : Shepherd :=
  let freed := h.held m
  let h := { h with sem := h.sem.map (fun x => if x = some m then none else x) }
  let h := h.modView m (fun v =>
    { v with
      epoch := (v.epoch + 1) % 16, armed := false, linkTo := false, peerReset := false, linkToAddr := 0
      orphan := 0, fault := 0, dbMask := 0xFFFFFFFF, intEn := [], intRoute := [] })
  h.modView m.peer (fun v => { v with peerReset := true, orphan := v.orphan ||| freed })

/-- The shadows of a port for the tallies and for the counters are cleared by its reset (R575, R594). -/
def Datapath.portReset (d : Datapath) (m : RPort) : Datapath :=
  { d with
    tallyShadow := Tab.drop d.tallyShadow (fun k => k / 40 = m.num)
    pmn := { d.pmn with shadow := Tab.drop d.pmn.shadow (fun k => k = m.num) } }

/-- The core records the releases that wait for clk_shf, each with its effects (R86, R114). While the clock is stopped the
core keeps its state. -/
def State.recordPulses (s : State) (m : RPort) : State :=
  if !(s.sh.clk 2).ack then s
  else
    let n := (s.sh.port m).pulses
    let s := loop n (fun _ s => (s.onSh (fun h => h.portReset m)).onDp (fun d => d.portReset m)) s
    s.onSh (fun h => h.setPort m { h.port m with pulses := 0 })

/-! ## The boundary's events -/

/-- AVS_FRAME_END: the running AVSBus frame ends; `good` tells the code Good, `data` the word returned (R611). -/
def execAvsFrameEnd (good : Bool) (data : Nat) (s : State) : Out := .next (s.avsEnd good (data % 65536))

/-- AVS_ACK_TIMEOUT (R156, R611). -/
def execAvsAckTimeout (s : State) : Out := .next s.avsExpire

/-- SETTLE_EXPIRE (R156, R607). -/
def execSettleExpire (s : State) : Out :=
  .next (match s.sh.seqHead with
    | some .settle => s.seqNext.onSh Shepherd.avsNext
    | _ => s)

/-- CLOCK_ACK_CHANGE: clk_ack_x takes the level of its request (R36). As clk_shf starts, the core records the releases of
register-port resets that waited for it (R86), that of column A first: DESIGN CHOICE, log entry 108. -/
def execClockAckChange (x : Nat) (s : State) : Out :=
  .next (if (s.sh.clk x).ack = (s.sh.clk x).req then s
    else
      let s := s.onSh (fun h => h.setClk x { h.clk x with ack := (h.clk x).req })
      (((s.recordPulses .a).recordPulses .b).seqKick).onSh Shepherd.shfFollow)

/-- Whether the step that waits awaits clk_ack_x. -/
def Shepherd.awaitsClk (h : Shepherd) (x : Nat) : Bool :=
  match h.seqHead with
  | some (.clkUp xs) => xs.contains x && !((h.clk x).req && (h.clk x).ack)
  | some (.clkDown xs) => xs.contains x && !(h.clk x).req && (h.clk x).ack
  | some (.clkSel _) => x = 0
  | _ => false

/-- CLOCK_HANDSHAKE_TIMEOUT: clk_ack_x has not reached its level within its limit (R38). -/
def execClockHandshakeTimeout (x : Nat) (s : State) : Out :=
  .next (if s.sh.awaitsClk x then (s.seqExpire F.pwrEvt_CLK_TIMEOUT).onSh Shepherd.avsNext else s)

/-- DOMAIN_READY_CHANGE: pdx_d_ready takes the level of pdx_d_pwr_req (R81). The trackers of the store-room ports start
cleared as PD9 powers on (R42). -/
def execDomainReadyChange (d : Nat) (s : State) : Out :=
  .next (
    let p := s.sh.dom d
    if p.ready = p.pwrReq || s.sh.seq.lost.contains d then s
    else
      let s := if d = 9 && p.pwrReq then s.onDp Datapath.stpCleared else s
      ((s.onSh (fun h => h.modDom d (fun p => { p with ready := p.pwrReq }))).seqKick).onSh Shepherd.shfFollow)

/-- Whether the step that waits awaits the ready of a domain. -/
def Shepherd.awaitsReady (h : Shepherd) (d : Nat) : Bool :=
  match h.seqHead with
  | some (.up x) => x = d
  | some (.down x _) => x = d
  | some (.lower x) => x = d
  | _ => false

/-- DOMAIN_READY_TIMEOUT: pdx_d_ready has not reached its level within the domain limit (R158, R605, R609). -/
def execDomainReadyTimeout (d : Nat) (s : State) : Out :=
  .next (if s.sh.awaitsReady d then (s.seqExpire F.pwrEvt_PD_TIMEOUT).onSh Shepherd.avsNext else s)

/-- MEMORY_INIT_DONE (R159, R600). -/
def execMemoryInitDone (s : State) : Out :=
  .next (match s.sh.seqHead with
    | some (.memory doms cold) => (s.memoryDone doms cold).seqNext
    | _ => s)

/-- LOGIC_RELEASE_DELAY_EXPIRE: 32 clk_shf cycles after shl_dp_rst_n (R156). -/
def execLogicReleaseDelayExpire (s : State) : Out :=
  .next (match s.sh.seqHead with
    | some (.logic _) => s.seqNext
    | _ => s)

/-- ISO_LOWER_STEP: one clk_aon cycle of phase 5 lowers the isolation of the next domain (R157). -/
def execIsoLowerStep (s : State) : Out :=
  .next (match s.sh.seqHead with
    | some (.iso d) => (s.isoFall d).seqNext
    | _ => s)

/-- Whether the step that waits is one of phases 1 to 3 of an attempt. -/
def Shepherd.attemptWaits (h : Shepherd) : Bool :=
  !h.seq.failed && (match h.seqHead with
    | some (.avs _ _) => true
    | some (.clkUp _) => true
    | some (.clkDown _) => true
    | some (.clkSel _) => true
    | some (.up _) => true
    | _ => false)

/-- The sequencer's own AVSBus frame ends without a result; a master's frame runs on. -/
def Shepherd.dropOwn (h : Shepherd) : Shepherd :=
  match h.avsRun with
  | some (_, true) => { h with avsRun := none }
  | _ => h

/-- COLD_START_FAIL: a limit of a cold start expires (R158). -/
def execColdStartFail (s : State) : Out :=
  .next (if s.sh.seq.cold && s.sh.attemptWaits then
      ((s.onSh Shepherd.dropOwn).seqFail).onSh Shepherd.avsNext
    else s)

/-- COLD_START_RETRY: 1 ms after a failed attempt the cold start begins again (R158). -/
def execColdStartRetry (s : State) : Out :=
  .next (match s.sh.seqHead with
    | some .retry => if s.sh.seq.cold then s.seqStart s.sh.seq.kind coldSteps else s
    | _ => s)

/-- WAKE_FAIL: a limit of phases 1 to 3 of a wake expires (R609). The flag is that of the step that waits. -/
def execWakeFail (s : State) : Out :=
  .next (if s.sh.seq.kind = .wake && s.sh.attemptWaits then
      let flag := match s.sh.seqHead with
        | some (.avs _ _) => F.pwrEvt_AVS_TIMEOUT
        | some (.up _) => F.pwrEvt_PD_TIMEOUT
        | _ => F.pwrEvt_CLK_TIMEOUT
      (((s.onSh Shepherd.dropOwn).pwrEvent flag).seqFail).onSh Shepherd.avsNext
    else s)

/-- WAKE_RETRY: 1 ms after a failed attempt the wake begins again (R609). -/
def execWakeRetry (s : State) : Out :=
  .next (match s.sh.seqHead with
    | some .retry => if s.sh.seq.kind = .wake then s.seqStart .wake s.sh.wakeSteps else s
    | _ => s)

/-! ## Entries and wakes -/

/-- POWER_WAIT: a write of PWR_WAIT by port m, with the other port's in the same cycle, if any (R602). -/
def execPowerWait (m : RPort) (be : BitVec 4) (data : Word) (tie : Option (BitVec 4 × Word)) (s : State) : Out :=
  .next (s.coreWrite (Reg.pwrWait.addr 0 0) m be data tie (fun p b w s => s.pwrWait p b w))

/-- A write of PWR_VETO (R602). -/
def State.pwrVeto (s : State) (be : BitVec 4) (data : Word) : State :=
  if F.pwrVeto_VETO.wo be data = 1 && s.sh.seq.kind = .window then
    ((s.onSh (fun h => h.seqIdle h.seq.state)).pwrEvent F.pwrEvt_VETOED).seqRest
  else s

/-- VETO: a write of 1 to PWR_VETO by port m (R602). -/
def execVeto (m : RPort) (be : BitVec 4) (data : Word) (tie : Option (BitVec 4 × Word)) (s : State) : Out :=
  .next (s.coreWrite (Reg.pwrVeto.addr 0 0) m (be ||| 1) (data ||| 1) tie (fun _ b w s => s.pwrVeto b w))

/-- VETO_WINDOW_EXPIRE (R602). -/
def execVetoWindowExpire (s : State) : Out :=
  .next (if s.sh.seq.kind = .window then s.onSh Shepherd.quiesceBegin else s)

/-- The conditions of R603 that hold and apply to the move that waits in QUIESCE. -/
def State.blocking (s : State) : Nat :=
  let t := s.sh.seq.latched
  let doms := if t.asleep && t ≠ .doze then s.sh.offFor t else (List.range 19).map (· + 1)
  s.conditions &&& condMask doms

/-- At the end of QUIESCE the image in force admits no cruise point (R31): the request is refused and flagged. A start move
goes on to its state at 2.0 GHz, with the rails of that point (R616); any other request ends. -/
def State.cruiseTurnedAway (s : State) : State :=
  let s := s.pwrEvent F.pwrEvt_CRUISE_REFUSED
  if s.sh.seq.plan then
    let s := s.onSh (fun h => h.onSeq (fun q => { q with latchedCruise := false, plan := false }))
    s.seqStart .startMove (.phase 3 :: settled (s.sh.railSteps 0))
  else (s.onSh (fun h => h.seqIdle h.seq.state)).seqRest

/-- QUIESCE_CLEAR: every condition of R603 that applies is clear; DOWN begins, or the change of the cruise point. -/
def execQuiesceClear (s : State) : Out :=
  .next (if s.sh.seq.kind = .quiesce && s.blocking = 0 then
      if s.sh.seq.latched.asleep then s.seqStart .entry (s.sh.downSteps s.sh.seq.latched)
      else if s.sh.cruiseAllowed then s.seqStart .cruise s.sh.cruiseSteps
      else s.cruiseTurnedAway
    else s)

/-- QUIESCE_TIMEOUT: PWR_QUIESCE_TO passes; PWR_BLOCK keeps the conditions in force (R602). An exit of R613 that is pending behind
an entry stays due; its own QUIESCE is not run again: log entry 32. -/
def execQuiesceTimeout (s : State) : Out :=
  .next (if s.sh.seq.kind = .quiesce then
      let c := s.conditions
      ((s.onSh (fun h => (h.seqIdle h.seq.state).onSeq (fun q => { q with blocked := some c, cruiseExit := q.cruiseExit && q.latched.asleep }))).pwrEvent
        F.pwrEvt_QUIESCE_FAIL).seqRest
    else s)

/-- WAKE_TIMER_EXPIRE: PWR_WAKE_TIMER ms after ENTERED (R606). -/
def execWakeTimerExpire (s : State) : Out :=
  .next (if s.sh.seq.state.asleep && s.sh.seq.state ≠ .off && s.sh.rd F.pwrWakeTimer_MS ≠ 0 && s.sh.flag F.pwrWakeEn_TIMER then
      (s.wakeSource F.pwrWakeStat_TIMER).onSh Shepherd.avsNext
    else s)

/-- DOMAIN_FAULT: pdx_d_ready falls while pdx_d_pwr_req is 1 (R83, R610). One while rst_blk_n is low is recorded too, and
the cold start after the release leaves the domain out. DESIGN CHOICE, log entry 100. -/
def execDomainFault (d : Nat) (s : State) : Out :=
  .next (
    let p := s.sh.dom d
    if d = 0 || 20 ≤ d || !p.ready || !p.pwrReq then s
    else
      let s := s.onSh (fun h => h.modDom d (fun p => { p with ready := false }))
      let s := if d = 19 then raiseOrder.foldl (fun s x => s.domainLost x) s else s.domainLost d
      (s.seqKick).onSh Shepherd.shfFollow)

/-! ## TRIM (R615) -/

/-- Whether a pen is idle: nothing arrives, no frame stands in its staging or waits to be parsed, no output queue of its
ports has a head copy. -/
def Datapath.penIdle (d : Datapath) (pen : Nat) : Bool :=
  d.rx.all (fun e => penOf e.1 ≠ pen || (e.2.express.isNone && e.2.pre.isNone && e.2.mmFrame.isNone)) &&
  d.frames.all (fun e => (e.2.admitted && e.2.allWritten) || e.2.inPen ≠ pen) && d.copies.all (fun e => penOf (portOfQ e.2.q) ≠ pen)

/-- TRIM_GATE: the clock of an idle line or loop pen is gated (R615). -/
def execTrimGate (pen : Nat) (s : State) : Out :=
  .next (if s.sh.seq.state = .trim && pen < 40 && (pen < 32 || 38 ≤ pen) && s.dp.penIdle pen then
      s.onDp (fun d => { d with gated := (pen :: d.gated).eraseDups })
    else s)

/-- TRIM_UNGATE: an arrival, a head copy or a register access ungates a pen (R615). -/
def execTrimUngate (pen : Nat) (s : State) : Out :=
  .next (s.onDp (fun d => { d with gated := d.gated.filter (· ≠ pen) }))

/-! ## AVSBus commands (R611, R618) -/

/-- A write of PWR_AVS_CMD. -/
def State.pwrAvsCmd (s : State) (be : BitVec 4) (data : Word) : State :=
  s.avsCmd (F.pwrAvsCmd_OP.wo be data) (F.pwrAvsCmd_RAIL.wo be data) (F.pwrAvsCmd_DATA.wo be data)

/-- A write of PWR_AVS_CMD by port m with an OP. -/
def State.avsRow (s : State) (op : Nat) (m : RPort) (be : BitVec 4) (data : Word) (tie : Option (BitVec 4 × Word)) : State :=
  s.coreWrite (Reg.pwrAvsCmd.addr 0 0) m (be ||| 1) (putBits data 1 0 op) tie (fun _ b w s => s.pwrAvsCmd b w)

/-- READ_VOLTAGE: PWR_AVS_CMD with OP 1. -/
def execReadVoltage (m : RPort) (be : BitVec 4) (data : Word) (tie : Option (BitVec 4 × Word)) (s : State) : Out :=
  .next (s.avsRow 1 m be data tie)

/-- READ_STATUS: PWR_AVS_CMD with OP 2. -/
def execReadStatus (m : RPort) (be : BitVec 4) (data : Word) (tie : Option (BitVec 4 × Word)) (s : State) : Out :=
  .next (s.avsRow 2 m be data tie)

/-- WRITE_VOLTAGE: PWR_AVS_CMD with OP 3. -/
def execWriteVoltage (m : RPort) (be : BitVec 4) (data : Word) (tie : Option (BitVec 4 × Word)) (s : State) : Out :=
  .next (s.avsRow 3 m be data tie)

/-! ## Reads of PWR registers -/

/-- Loads the upper half of the sleep tally into a port's shadow (R618). -/
def Shepherd.loadSleep (h : Shepherd) (m : RPort) : Shepherd :=
  h.setView m { h.view m with sleepHi := h.sleepN / 2 ^ 32 % 2 ^ 32 }

/-- SLEEP_TALLY_READ: port m reads PWR_SLEEP_TALLY_LO (R618). -/
def execSleepTallyRead (m : RPort) (s : State) : Out :=
  .next (if s.portOpen m then
      (s.onSh (fun h => h.loadSleep m)).performed (.port m) (Reg.pwrSleepTallyLo.addr 0 0) false (BitVec.ofNat 32 s.sh.sleepN)
    else s)

/-- PWR_STAT (R618). -/
def Shepherd.pwrStat (h : Shepherd) : Nat :=
  h.seq.state.code * 2 ^ 29 + h.seq.latched.code * 2 ^ 26 + h.seq.waiter.num * 2 ^ 25 +
  b2n (h.seq.cruiseOn && h.seq.state ≠ .watch) * 2 ^ 24 + h.seq.phase % 16 * 2 ^ 20 + h.seq.attempt % 4 * 2 ^ 18

/-- PWR_PD_ON (R618). -/
def Shepherd.pdOn (h : Shepherd) : Nat := ofBits 20 (fun d => d ≠ 0 && (h.dom d).ready && !(h.dom d).iso)

/-- The word that a read of a PWR register returns to port m (R618). -/
def State.pwrWord (s : State) (m : RPort) (r : Reg) (i : Nat) : Word :=
  let h := s.sh
  let w := r.readWord (RegFile.word h.regs r i 0)
  match r with
  | .pwrStat => BitVec.ofNat 32 h.pwrStat
  | .pwrEvt => putBits w 2 2 (b2n (h.seq.kind = .window))
  | .pwrBlock => BitVec.ofNat 32 (match h.seq.blocked with
    | some c => c ||| s.conditions
    | none => s.conditions)
  | .pwrPdOn => BitVec.ofNat 32 h.pdOn
  | .pwrAvsResult => putBits w 0 0 (b2n h.avsBusy)
  | .pwrSleepTallyLo => BitVec.ofNat 32 h.sleepN
  | .pwrSleepTallyHi => BitVec.ofNat 32 (h.view m).sleepHi
  | _ => w

/-! ## Resets (R154, R161 to R164) -/

/-- The shepherd's registers after a block reset: DIGEST_LOCK and FLD_EXPECT stay (R161). -/
def Shepherd.blockRegs (h : Shepherd) : RegFile :=
  Tab.drop h.regs (fun a => a ≠ Reg.fldCtl.addr 0 0 && !(Reg.fldExpect.addr 0 0 ≤ a && a ≤ Reg.fldExpect.addr 7 0))

/-- A register port under a block reset: its outstanding access gets no response, and its own reset pulse, if low, is
not counted (R164). -/
def RegPort.blockReset (p : RegPort) : RegPort := { p with acc := none, overlap := p.overlap || !p.rstN, pulses := 0 }

/-- The shepherd while rst_blk_n is low (R114, R153, R161, R162, R617). DEDUCED, log entry 113: clk_sel_core keeps its level. -/
def Shepherd.blockReset (h : Shepherd) : Shepherd :=
  let doms := (List.range 20).map (fun d =>
    let p := h.dom d
    { p with iso := d = 0 || d ≠ 9 || p.iso, ret := false })
  let clk (x : Nat) (v : Bool) : ClkPins := { h.clk x with req := if v then (h.clk x).req || !(h.clk x).ack else false }
  { ({} : Shepherd) with
    portA := h.portA.blockReset, portB := h.portB.blockReset
    regs := h.blockRegs, fld := { ({} : Loader) with store := h.fld.store }
    doms := doms, clks := [clk 0 false, clk 1 true, clk 2 true, clk 3 false]
    selCore := h.selCore, blkN := false
    sleepN := h.sleepN, sleepRun := h.sleepRun, aonTol := h.aonTol, tick := h.tick }

/-- BLOCK_RESET_ASSERT: rst_blk_n falls (R162). -/
def execBlockResetAssert (s : State) : Out :=
  .next (if !s.sh.blkN then s else { s.resetAll.onDp Datapath.stpReleased with sh := s.sh.blockReset })

/-- BLOCK_RESET_RELEASE: rst_blk_n rises; PD9 is isolated and a cold start begins (R162). -/
def execBlockResetRelease (s : State) : Out :=
  .next (if s.sh.blkN then s
    else (s.onSh (fun h => { h.modDom 9 (fun p => { p with iso := true }) with blkN := true })).seqStart .cold coldSteps)

/-- POWER_ON_RESET_RELEASE: the shepherd takes the condition of R154 and, with rst_blk_n high, a cold start begins. The
inputs keep their levels; the fold store's content is undefined. -/
def execPowerOnResetRelease (s : State) : Out :=
  .next (
    let h := s.sh
    let sh : Shepherd := { ({} : Shepherd) with
      portA := { rstN := h.portA.rstN, overlap := !h.portA.rstN }
      portB := { rstN := h.portB.rstN, overlap := !h.portB.rstN }
      doms := h.doms.map (fun p => { ready := p.ready })
      clks := h.clks.map (fun p => { ack := p.ack })
      fld := { store := { undef := [(0, 1048576, s.freeSeed)] } }
      blkN := h.blkN }
    let t : State := { sh := sh, dp := { sigDet := s.dp.sigDet }, pending := s.pending, freeSeed := s.freeSeed + 1 }
    if h.blkN then (t.seqStart .cold coldSteps).onSh Shepherd.shfFollow else t.onSh Shepherd.blockReset)

end Sys2Proof.Machine
end

