-- ==== Sys2Proof/Machine/FoldEnd.lean ====
section
/-! DEFINITION. The ends of APPLY, of a re-fold's splice and of a wake restore, which the power sequencer follows
(spec/04, spec/22). -/

namespace Sys2Proof.Machine

/-- CRUISE_OK may have fallen while CRUISE_ON is 1: the sequencer then leaves the cruise point (R613). A change that runs
tests it as it ends. -/
def State.cruiseFell (s : State) (before : Bool) : State :=
  if before && !s.sh.flag F.fldStat_CRUISE_OK && s.sh.seq.cruiseOn then
    (s.onSh (fun h => h.onSeq (fun q => { q with cruiseExit := true }))).seqRest
  else s

/-- APPLY ends without error (R132, R146): the image is in force, and its POWER_PLAN's start move is handed over (R616). A fall of
CRUISE_OK acts after it (R613). -/
def State.applyEnd (s : State) : State :=
  let before := s.sh.flag F.fldStat_CRUISE_OK
  let s := s.fldRest.onDp Datapath.structureSettled
  let img := s.sh.fld.image 0
  let sects := sectionsOf img
  let s := (s.seedsDefined sects).onSh (fun h =>
    ((((h.wr F.fldStat_IN_FORCE 1).wr F.fldForceId_ID (le img 0x20 4)).wr F.fldForceLen_LEN img.length).wr F.fldStat_CRUISE_OK
      (b2n (cruiseOk sects))).fldDone)
  let s := match powerPlanOf sects with
    | some r => (s.startMove r).onSh Shepherd.avsNext
    | none => s
  s.cruiseFell before

/-- APPLY_END: the last section of the image has been applied (R146). -/
def execApplyEnd (s : State) : Out := .next (if s.sh.fld.state = .apply then s.applyEnd else s)

/-- SPLICE_END: the spliced image stands at offset 0 and is the image in force (R152). -/
def execSpliceEnd (s : State) : Out :=
  .next (if s.sh.fld.state = .splice then s.splice.cruiseFell (s.sh.flag F.fldStat_CRUISE_OK) else s)

/-- The sequencer goes on after its restore phase. -/
def State.restored (s : State) : State :=
  match s.sh.seqHead with
  | some .restore => s.seqNext
  | _ => s

/-- RESTORE_END: the wake restore ends, with RESTORED or, where it failed, with RESTORE_ERR and IN_FORCE cleared (R148). A cellar
whose domains come back is charged under the plan it gave back (R600). -/
def execRestoreEnd (failed : Bool) (s : State) : Out :=
  .next (if s.sh.fld.state ≠ .restore then s
    else if failed then (s.fldFail { code := FE.linkTimeout }).restored
    else
      let s := s.fldRest.onDp (fun d => if s.sh.fld.kept.contains 11 then d.structureSettled else d.structureSettled.cellarRecharge)
      (s.onSh Shepherd.fldDone).restored)

end Sys2Proof.Machine
end

