-- ==== Sys2Proof/Machine/Shp.lean ====
section
/-! DEFINITION. The shepherd's SHP registers: views, expert unlock, semaphores, mailboxes, doorbells, the interrupt tree,
the resets of the register ports (spec/03). -/

namespace Sys2Proof.Machine

/-! ## Interrupt tree (R113, R115, R116) -/

/-- Applies f to the mailbox a port sends in. -/
def Shepherd.modBox (h : Shepherd) (m : RPort) (f : Mailbox → Mailbox) : Shepherd := h.setMboxOut m (f (h.mboxOut m))

/-- The causes of source 51 for a master (R116). -/
def Shepherd.ownCauses (h : Shepherd) (m : RPort) : Nat :=
  let v := h.view m
  let inBox := h.mboxOut m.peer
  b2n inBox.full + 2 * b2n inBox.collision + 4 * b2n (!(h.mboxOut m).full) +
    8 * b2n ((v.dbIn &&& (0xFFFFFFFF ^^^ v.dbMask)) ≠ 0) + 16 * b2n (v.orphan ≠ 0) + 32 * b2n (v.fault ≠ 0) +
    64 * b2n v.linkTo + 128 * b2n v.peerReset

/-- The cause vector of source 52 (R618). -/
def Shepherd.pwrCauses (h : Shepherd) : Nat :=
  (putBits (RegFile.word h.regs .pwrEvt 0 0) 2 2 (b2n (h.seq.kind = .window))).toNat % 2 ^ 16

/-- The cause vector of source 53 (R138). -/
def Shepherd.fldCauses (h : Shepherd) : Nat :=
  (putBits (RegFile.word h.regs .fldEvt 0 0) 4 4 (b2n (h.fld.state ≠ .idle))).toNat % 2 ^ 16

/-- cause[n], for a master where n is 51 (R57, R61, R117). -/
def Shepherd.causes (h : Shepherd) (m : RPort) (n : Nat) : Nat :=
  if n < 51 then Tab.get h.cause n 0
  else if n = 51 then h.ownCauses m
  else if n = 52 then h.pwrCauses
  else if n = 53 then h.fldCauses else 0

/-- src[m][n] (R115). -/
def Shepherd.src (h : Shepherd) (m : RPort) (n : Nat) : Bool := (h.causes m n &&& Tab.get (h.view m).intEn n 0) ≠ 0

/-- line[m][l], which drives int_a[l] or int_b[l] (R78, R115). -/
def Shepherd.line (h : Shepherd) (m : RPort) (l : Nat) : Bool :=
  (List.range 64).any (fun n => h.src m n && Tab.get (h.view m).intRoute n 0 = l)

/-- int_wake (R606). -/
def Shepherd.wakeLine (h : Shepherd) : Bool :=
  ((RegFile.word h.regs .pwrWakeStat 0 0) &&& (RegFile.word h.regs .pwrWakeEn 0 0)) ≠ 0

/-! ## Reads (R92 to R117) -/

/-- The control word of a mailbox (R110). -/
def Mailbox.ctl (b : Mailbox) : Nat := b.epoch * 2 ^ 16 + b2n b.collision * 2 ^ 9 + b2n b.full * 2 ^ 8

/-- The word that a read of an SHP register returns to port m, but for SHP_SEM_n (R93 to R117). -/
def Shepherd.shpWord (h : Shepherd) (m : RPort) (r : Reg) (i : Nat) : Word :=
  let n (x : Nat) : Word := BitVec.ofNat 32 x
  let v := h.view m
  match r with
  | .shpWhoami => n ((h.view m.peer).epoch * 2 ^ 8 + v.epoch * 2 ^ 4 + m.num)
  | .shpTieToken => n h.token.num
  | .shpExpert => n h.expert
  | .shpStat => n (2 * b2n v.peerReset + b2n v.linkTo)
  | .shpLinkToAddr => n v.linkToAddr
  | .shpSemHeldA => n (h.held .a)
  | .shpSemHeldB => n (h.held .b)
  | .shpSemOrphan => n v.orphan
  | .shpSemFault => n v.fault
  | .shpMbxOutData => (h.mboxOut m).data.getD i 0
  | .shpMbxInData => (h.mboxOut m.peer).data.getD i 0
  | .shpMbxOutCtl => n (h.mboxOut m).ctl
  | .shpMbxInCtl => n (h.mboxOut m.peer).ctl
  | .shpDbOut => n (h.view m.peer).dbIn
  | .shpDbIn => n v.dbIn
  | .shpDbInMask => n v.dbMask
  | .shpIntSrc0 => n (ofBits 32 (fun j => h.src m j))
  | .shpIntSrc1 => n (ofBits 32 (fun j => h.src m (32 + j)))
  | .shpIntLine => n (ofBits 16 (fun l => h.line m l))
  | .shpIntEn => n (Tab.get v.intEn i 0)
  | .shpIntRoute => n (Tab.get v.intRoute i 0)
  | .shpIntCause => n (h.causes m i)
  | r => r.readWord (RegFile.word h.regs r i 0)

/-- The word that a read of an SHP or PWR register without a row of its own returns to port m. -/
def State.coreWord (s : State) (m : RPort) (r : Reg) (i : Nat) : Word :=
  match unitOf (r.addr i 0) with
  | .pwr => s.pwrWord m r i
  | _ => s.sh.shpWord m r i

/-! ## Expert unlock (R98 to R101) -/

/-- A write of SHP_EXPERT_KEY by port m (R99, R100). -/
def Shepherd.armWrite (h : Shepherd) (m : RPort) (be : BitVec 4) (data : Word) : Shepherd :=
  h.modView m (fun v => { v with armed := be = 0xF && data = 0x45585054 })

/-- Whether the write that port m makes at an address comes from an armed port (R99). -/
def Shepherd.armedFor (h : Shepherd) (m : RPort) (addr : Nat) : Bool :=
  match (h.port m).acc with
  | some x => if x.is true addr then x.armed else (h.view m).armed
  | none => (h.view m).armed

/-- A write of SHP_EXPERT: an armed port sets the enabled bytes, any other only clears bits (R100). -/
def Shepherd.expertWrite (h : Shepherd) (armed : Bool) (be : BitVec 4) (data : Word) : Shepherd :=
  let m := beMask be &&& 0x7FFF
  let set := (h.expert &&& (0x7FFF ^^^ m)) ||| (data.toNat &&& m)
  { h with expert := if armed then set else h.expert &&& set }

/-! ## Semaphores (R103 to R107) -/

/-- A read of SHP_SEM_n by port m: the holder after it and STATE (R103). -/
def Shepherd.semRead (h : Shepherd) (m : RPort) (n : Nat) : Shepherd × Word :=
  match h.sem.getD n none with
  | none => ({ h with sem := modAt (fun _ => some m) h.sem n }, 1)
  | some x => (h, if x = m then 3 else 2)

/-- A write of SHP_SEM_n by port m (R105). -/
def Shepherd.semWrite (h : Shepherd) (m : RPort) (n : Nat) (be : BitVec 4) (data : Word) : Shepherd :=
  if F.shpSem_RELEASE.wo be data = 0 then h
  else if h.sem.getD n none = some m then { h with sem := modAt (fun _ => none) h.sem n }
  else h.modView m (fun v => { v with fault := setBit v.fault n true })

/-! ## Mailboxes and doorbells (R108 to R113) -/

/-- A sender's write of a data word (R108, R109). -/
def Shepherd.mboxData (h : Shepherd) (m : RPort) (i : Nat) (be : BitVec 4) (data : Word) : Shepherd :=
  h.modBox m (fun b => { b with data := modAt (fun w => mergeBytes be data w) b.data i, collision := b.collision || b.full })

/-- A sender's write of POST (R108, R109). -/
def Shepherd.mboxPost (h : Shepherd) (m : RPort) : Shepherd :=
  h.modBox m (fun b => { b with full := true, collision := b.collision || b.full, epoch := (h.view m).epoch })

/-- A receiver's write of SHP_MBX_IN_CTL (R110). -/
def Shepherd.mboxTake (h : Shepherd) (m : RPort) (be : BitVec 4) (data : Word) : Shepherd :=
  let w := data.toNat &&& beMask be
  h.modBox m.peer (fun b => { b with full := b.full && !w.testBit 8, collision := b.collision && !w.testBit 9 })

/-- A write of SHP_DB_OUT (R112). -/
def Shepherd.ring (h : Shepherd) (m : RPort) (be : BitVec 4) (data : Word) : Shepherd :=
  h.modView m.peer (fun v => { v with dbIn := v.dbIn ||| (data.toNat &&& beMask be) })

/-! ## Writes of a register -/

/-- A merge of the enabled bytes of a written word into the low bits of a value. -/
def mergeNat (be : BitVec 4) (data : Word) (old bits : Nat) : Nat :=
  (mergeBytes be data (BitVec.ofNat 32 old)).toNat % 2 ^ bits

/-- The effect of a write of an SHP or PWR register by port m by the access codes of its fields (R7, R91). `armed` tells
whether the write comes from an armed port. -/
def State.coreEffect (s : State) (m : RPort) (armed : Bool) (r : Reg) (i : Nat) (be : BitVec 4) (data : Word) : State :=
  let w := data.toNat &&& beMask be
  let view (f : View → View) : State := s.onSh (fun h => h.modView m f)
  match r with
  | .shpExpertKey => s.onSh (fun h => h.armWrite m be data)
  | .shpExpert => s.onSh (fun h => h.expertWrite armed be data)
  | .shpStat => view (fun v => { v with linkTo := v.linkTo && !w.testBit 0, peerReset := v.peerReset && !w.testBit 1 })
  | .shpSemOrphan => view (fun v => { v with orphan := v.orphan &&& (0xFFFFFFFF ^^^ w) })
  | .shpSemFault => view (fun v => { v with fault := v.fault &&& (0xFFFFFFFF ^^^ w) })
  | .shpSem => s.onSh (fun h => h.semWrite m i be data)
  | .shpMbxOutData => s.onSh (fun h => h.mboxData m i be data)
  | .shpMbxOutCtl => if F.shpMbxOutCtl_POST.wo be data = 1 then s.onSh (fun h => h.mboxPost m) else s
  | .shpMbxInCtl => s.onSh (fun h => h.mboxTake m be data)
  | .shpDbOut => s.onSh (fun h => h.ring m be data)
  | .shpDbIn => view (fun v => { v with dbIn := v.dbIn &&& (0xFFFFFFFF ^^^ w) })
  | .shpDbInMask => view (fun v => { v with dbMask := mergeNat be data v.dbMask 32 })
  | .shpIntEn => view (fun v => { v with intEn := Tab.put v.intEn i (mergeNat be data (Tab.get v.intEn i 0) 16) 0 })
  | .shpIntRoute => view (fun v => { v with intRoute := Tab.put v.intRoute i (mergeNat be data (Tab.get v.intRoute i 0) 4) 0 })
  | .pwrWait => s.pwrWait m be data
  | .pwrVeto => s.pwrVeto be data
  | .pwrAvsCmd => s.pwrAvsCmd be data
  | r => s.onSh (fun h => h.writeReg r (h.unlocked (r.addr i 0)) be data i)

/-- Whether register r at index i has one instance per port: the registers that R92 and R618 call views, among the cause
vectors that of source 51 (R91). -/
def Reg.isView (r : Reg) (i : Nat) : Bool :=
  match r with
  | .shpIntCause => i = 51
  | .pwrSleepTallyLo => true
  | .pwrSleepTallyHi => true
  | .shpWhoami => true
  | .shpExpertKey => true
  | .shpStat => true
  | .shpLinkToAddr => true
  | .shpSemOrphan => true
  | .shpSemFault => true
  | .shpMbxOutData => true
  | .shpMbxOutCtl => true
  | .shpMbxInData => true
  | .shpMbxInCtl => true
  | .shpDbOut => true
  | .shpDbIn => true
  | .shpDbInMask => true
  | .shpIntSrc0 => true
  | .shpIntSrc1 => true
  | .shpIntLine => true
  | .shpIntEn => true
  | .shpIntRoute => true
  | _ => false

/-- A write of a port's own register by port m takes effect, while the port is open. The access that writes SHP_EXPERT_KEY arms the port for the
access after it. -/
def State.viewWrite (s : State) (m : RPort) (r : Reg) (i : Nat) (be : BitVec 4) (data : Word) : State :=
  let a := r.addr i 0
  if !s.portOpen m then s
  else if r = .shpExpertKey then (s.performed (.port m) a true 0).coreEffect m false r i be data
  else (s.coreEffect m false r i be data).performed (.port m) a true 0

/-- A write of an SHP or PWR register by port m, with the other port's of the same cycle, if any. Only registers that the
ports share can tie (R87, R91). -/
def State.corePortWrite (s : State) (m : RPort) (r : Reg) (i : Nat) (be : BitVec 4) (data : Word)
    (tie : Option (BitVec 4 × Word)) : State :=
  let a := r.addr i 0
  if r.isView i then s.viewWrite m r i be data
  else s.coreWrite a m be data tie (fun p b w s => s.coreEffect p (s.sh.armedFor p a) r i b w)

/-! ## Commands -/

/-- A read of SHP_SEM_n by port m reaches the core. -/
def State.semReadBy (s : State) (n : Nat) (m : RPort) : State :=
  let x := s.sh.semRead m n
  ({ s with sh := x.1 }).performed (.port m) (Reg.shpSem.addr n 0) false x.2

/-- SEMAPHORE_READ of SHP_SEM_n by one port, or, where `who` is none, by both in the same cycle (R87, R103, R104). A port
that is not open makes no read. -/
def execSemaphoreRead (who : Option RPort) (n : Nat) (s : State) : Out :=
  .next (
    let one (s : State) (m : RPort) : State := if s.portOpen m then s.semReadBy n m else s
    match who with
    | some m => one s m
    | none =>
      let t := s.sh.token
      if s.portOpen .a && s.portOpen .b then
        ((s.semReadBy n t).semReadBy n t.peer).onSh (fun h => { h with token := t.peer })
      else one (one s .a) .b)

/-- SEMAPHORE_RELEASE: a write of RELEASE = 1 to SHP_SEM_n by port m (R105). -/
def execSemaphoreRelease (m : RPort) (n : Nat) (be : BitVec 4) (data : Word) (tie : Option (BitVec 4 × Word)) (s : State) : Out :=
  .next (s.corePortWrite m .shpSem n (be ||| 2) (data ||| 0x100) tie)

/-- EXPERT_ARM: a write of SHP_EXPERT_KEY by port m (R99). -/
def execExpertArm (m : RPort) (be : BitVec 4) (data : Word) (s : State) : Out :=
  .next (s.viewWrite m .shpExpertKey 0 be data)

/-- EXPERT_WRITE: a write of SHP_EXPERT by port m (R100). -/
def execExpertWrite (m : RPort) (be : BitVec 4) (data : Word) (tie : Option (BitVec 4 × Word)) (s : State) : Out :=
  .next (s.corePortWrite m .shpExpert 0 be data tie)

/-- MAILBOX_DATA_WRITE: port m writes word i of its outgoing message (R108, R109). -/
def execMailboxDataWrite (m : RPort) (i : Nat) (be : BitVec 4) (data : Word) (s : State) : Out :=
  .next (s.viewWrite m .shpMbxOutData i be data)

/-- MAILBOX_POST: port m writes POST = 1 (R108, R109). -/
def execMailboxPost (m : RPort) (s : State) : Out := .next (s.viewWrite m .shpMbxOutCtl 0 0xF 1)

/-- MAILBOX_TAKE: port m writes SHP_MBX_IN_CTL with FULL = 1; COLLISION is cleared where it is written 1 too (R110). -/
def execMailboxTake (m : RPort) (be : BitVec 4) (data : Word) (s : State) : Out :=
  .next (s.viewWrite m .shpMbxInCtl 0 (be ||| 2) (data ||| 0x100))

/-- DOORBELL_RING: port m writes SHP_DB_OUT (R112). -/
def execDoorbellRing (m : RPort) (be : BitVec 4) (data : Word) (s : State) : Out :=
  .next (s.viewWrite m .shpDbOut 0 be data)

/-! ## Register-port resets (R48, R94, R107, R114, R164) -/

/-- RGP_RESET_ASSERT: the reset of port m falls. Its outstanding access gets no response; one that has not been passed to
its target is discarded (R48). -/
def execRgpResetAssert (m : RPort) (s : State) : Out :=
  .next (
    let p := s.sh.port m
    if !p.rstN then s
    else
      (s.onSh (fun h =>
        { h.setPort m { p with rstN := false, acc := none, overlap := !h.blkN } with
          link := { h.link with fifo := h.link.fifo.filter (fun r => r.loader || r.master ≠ m) } })).onSh Shepherd.shfFollow)

/-- RGP_RESET_RELEASE: the reset of port m rises; `valid` tells that the pulse met R40 (R114). A pulse that overlaps a
block reset has no effect (R164). -/
def execRgpResetRelease (m : RPort) (valid : Bool) (s : State) : Out :=
  .next (
    let p := s.sh.port m
    if p.rstN then s
    else
      let counts := valid && !p.overlap && s.sh.blkN
      let s := s.onSh (fun h => h.setPort m
        { p with rstN := true, overlap := false, pulses := p.pulses + (if counts then 1 else 0) })
      (s.recordPulses m).onSh Shepherd.shfFollow)

end Sys2Proof.Machine
end

