-- ==== Sys2Proof/Machine/Link.lean ====
section
/-! DEFINITION. The register ports and the shepherd link: accesses, requests, responses, timeouts and event words (spec/01,
spec/02, spec/03), and the write of any register that has no row of its own. -/

namespace Sys2Proof.Machine

/-! ## Accesses (R12, R17, R43 to R47, R155, R598, R624) -/

/-- A read of an SHP or PWR register that has effects of its own: it is performed by its row of the command table. -/
def Reg.readsAtCore (r : Reg) : Bool := r = .shpSem || r = .pwrSleepTallyLo

/-- What the shepherd does with an access of port m that has been transferred. -/
def State.route (s : State) (m : RPort) (write : Bool) (addr : Nat) (be : BitVec 4) (data : Word) (armed : Bool) : State :=
  let keep (st : AccStage) : State :=
    s.onSh (fun h => h.setPort m { h.port m with acc := some { write := write, addr := addr, be := be, data := data, stage := st, armed := armed } })
  if addr % 4 ≠ 0 then s.respond m .error 0
  else if domainOf addr = 0 then
    match Reg.ofAddr addr with
    | none => s.respond m .ok 0
    | some (r, i, _) =>
      if write || r.readsAtCore then keep .atCore else s.respond m .ok (s.coreWord m r i)
  else if !s.sh.awake addr then s.respond m .off (if write then 0 else 0x0FF00FF0)
  else
    (keep .waitLink).onSh (fun h =>
      { h with link := { h.link with fifo := h.link.fifo ++
          [{ master := m, loader := false, write := write, addr := addr, be := be, data := data }] } })

/-- REGISTER_ACCESS_TRANSFER: an access transfers on the port of master m (R44). A port accepts one while it has none
outstanding, is not in reset, clk_shf runs and no drain period of its slot runs (R59, R155). An access uses up the
port's arm (R99). -/
def execRegisterAccessTransfer (m : RPort) (write : Bool) (addr : Nat) (be : BitVec 4) (data : Word) (s : State) : Out :=
  .next (
    let p := s.sh.port m
    if !p.rstN || p.acc.isSome || !(s.sh.clk 2).ack || (s.sh.link.slot m).drain || !s.sh.blkN then s
    else
      (s.onSh (fun h => (h.setPort m { p with rsp := none }).modView m (fun v => { v with armed := false }))).route m write
        addr be data (s.sh.view m).armed)

/-! ## Requests (R53, R54, R142) -/

/-- The request that goes next in a slot: the port's or the loader's, in turn where both wait (R142). -/
def Link.candidate (l : Link) (m : RPort) : Option LinkReq :=
  let x := l.slot m
  if x.sent.isSome || x.drain then none
  else
    match l.fifo.find? (fun r => r.master = m && !r.loader), l.fifo.find? (fun r => r.master = m && r.loader) with
    | some p, some q => some (if x.loaderLast then p else q)
    | some p, none => some p
    | none, q => q

/-- Whether port m's next request came before the other port's. -/
def Link.earlier (l : Link) (m : RPort) : Bool :=
  match l.fifo.find? (fun r => (l.candidate r.master).isSome) with
  | some r => r.master = m
  | none => false

/-- The port whose slot sends next: in arrival order; where both became ready in the same cycle, `tie`, the port that was
not served last (R54). -/
def Link.next (l : Link) (tie : Bool) : Option LinkReq :=
  match l.candidate .a, l.candidate .b with
  | some x, some y => some (if tie then (if l.last = .a then y else x) else if l.earlier .a then x else y)
  | some x, none => some x
  | none, y => y

/-- The words of a request (R53). -/
def LinkReq.words (r : LinkReq) : List Word :=
  let hd := b2n r.write * 2 ^ 30 + r.master.num * 2 ^ 29 + r.be.toNat * 2 ^ 25 + r.addr / 4 % 2 ^ 25
  BitVec.ofNat 32 hd :: (if r.write then [r.data] else [])

/-- Puts a new stage into the outstanding access of a port. -/
def Shepherd.stageAcc (h : Shepherd) (m : RPort) (st : AccStage) : Shepherd :=
  match (h.port m).acc with
  | some x => h.setPort m { h.port m with acc := some { x with stage := st } }
  | none => h

/-- A request is sent: it leaves the queue, and the datapath end holds it. -/
def Shepherd.sendReq (h : Shepherd) (r : LinkReq) : Shepherd :=
  let l := h.link
  let l := { l with fifo := l.fifo.filter (fun x => !(x.master = r.master && x.loader = r.loader)) }
  let l := l.setSlot r.master
    { l.slot r.master with sent := some r, dp := some { req := r, done := none }, loaderLast := r.loader }
  let h := { h with link := { l with last := r.master, reqWords := r.words } }
  if r.loader then h else h.stageAcc r.master .inFlight

/-- The shepherd's own value of LAR_LIVE, LAR_CSEED_n or TIM_AON_TOL follows a port's write as its request word is formed;
the logic at the datapath end takes the same write when it performs the request (R133, R292, R494). -/
def State.formShadow (s : State) (addr : Nat) (be : BitVec 4) (data : Word) : State :=
  match Reg.ofAddr addr with
  | some (.larLive, _, _) =>
    s.onSh (fun h => { h with live := (mergeBytes be data (BitVec.ofNat 32 h.live)).toNat &&& s.dp.liveMask })
  | some (.larCseed, n, _) => s.onSh (fun h => h.takeSeed n be data)
  | some (.timAonTol, _, _) =>
    s.onSh (fun h => { h with aonTol := F.timAonTol_PPB.of (mergeBytes be data (BitVec.ofNat 32 h.aonTol)) })
  | _ => s

/-- Whether an address is that of a mirrored FLD register with a value of its own: FLD_CMD has none (R133, R135). -/
def fldValue (addr : Nat) : Bool := mirroredFld addr && addr ≠ Reg.fldCmd.addr 0 0

/-- Whether the shepherd keeps a value of the register at an address beside the datapath's (R133, R292, R494). -/
def ownsValue (addr : Nat) : Bool :=
  fldValue addr || (match Reg.ofAddr addr with
    | some (.larLive, _, _) => true
    | some (.larCseed, _, _) => true
    | some (.timAonTol, _, _) => true
    | _ => false)

/-- The FLD access of the other port that crossed before port m's, if the datapath end holds one that has not been performed, is
performed first: reads, and the FLD_CMD writes of both ports, act in the order in which they crossed (R54, R145). -/
def State.peerFirst (s : State) (m : RPort) : State :=
  let p := m.peer
  match (s.sh.link.slot p).dp with
  | some q =>
    if !q.req.loader && mirroredFld q.req.addr && q.done.isNone && !(q.req.write && fldValue q.req.addr) then
      let x := if q.req.write then ((s.performWrite (.port p) q.req.addr q.req.be q.req.data).1, (0 : Word))
               else s.performRead (.port p) q.req.addr
      x.1.onSh (fun h => { h with link := h.link.setSlot p { h.link.slot p with dp := some { q with done := some x.2 } } })
    else s
  | none => s

/-- The word of the value that the shepherd keeps of a mirrored register: FLD, LAR_LIVE, LAR_CSEED_n, TIM_AON_TOL (R133, R292,
R494). -/
def Shepherd.ownWord (h : Shepherd) (addr : Nat) : Word :=
  match Reg.ofAddr addr with
  | some (.larLive, _, _) => BitVec.ofNat 32 h.live
  | some (.larCseed, n, _) => BitVec.ofNat 32 (Tab.get h.cseed n 0)
  | some (.timAonTol, _, _) => BitVec.ofNat 32 h.aonTol
  | some (r, i, j) => RegFile.word h.regs r i j
  | none => 0

/-- Puts a word into the value that the shepherd keeps of a mirrored register. -/
def Shepherd.setOwn (h : Shepherd) (addr : Nat) (w : Word) : Shepherd :=
  match Reg.ofAddr addr with
  | some (.larLive, _, _) => { h with live := w.toNat }
  | some (.larCseed, n, _) => { h with cseed := Tab.put h.cseed n w.toNat 0 }
  | some (.timAonTol, _, _) => { h with aonTol := w.toNat }
  | some (r, i, j) => { h with regs := RegFile.setWord h.regs r i j w }
  | none => h

/-- Notes at port m's slot what its write changed in the shepherd's own value. The other port's write of the same register, if it
is in flight too, is then no longer taken back. -/
def Shepherd.noteFormed (h : Shepherd) (m : RPort) (addr : Nat) (old : Word) : Shepherd :=
  let l := h.link.setSlot m { h.link.slot m with formed := some (old, h.ownWord addr) }
  let x := l.slot m.peer
  { h with link := if x.sent.any (fun q => q.addr = addr) then l.setSlot m.peer { x with formed := none } else l }

/-- A port's write changes the value that the shepherd keeps of a mirrored register as its request word is formed (R133, R292,
R494). FLD_CMD, which holds no value, starts its operation as the write is performed. -/
def State.formWrite (s : State) (r : LinkReq) : State :=
  if r.loader || !r.write || !ownsValue r.addr then s
  else
    let old := s.sh.ownWord r.addr
    let s := if fldValue r.addr then ((s.peerFirst r.master).performWrite (.port r.master) r.addr r.be r.data).1
             else s.formShadow r.addr r.be r.data
    s.onSh (fun h => h.noteFormed r.master r.addr old)

/-- What a write of port m in flight changed in the shepherd's own value is taken back: the write is answered ERROR, and no byte is
written (R46). -/
def Shepherd.unform (h : Shepherd) (m : RPort) : Shepherd :=
  let x := h.link.slot m
  match x.sent, x.formed with
  | some q, some (old, new) =>
    let diff := old ^^^ new
    let h := if diff = 0 then h else h.setOwn q.addr ((h.ownWord q.addr &&& ~~~diff) ||| (old &&& diff))
    { h with link := h.link.setSlot m { h.link.slot m with formed := none } }
  | _, _ => h

/-- LINK_REQUEST_SEND: the next request goes out on the link (R53, R54). While PD19 is off none does (R52). Whether the
access is answered OFF was decided as it reached the core (R624). -/
def execLinkRequestSend (tie : Bool) (s : State) : Out :=
  .next (match s.sh.link.next tie with
    | none => s
    | some r => if s.sh.domOn 19 then (s.onSh (fun h => h.sendReq r)).formWrite r else s)

/-! ## Responses (R47, R55, R56, R58, R59) -/

/-- The datapath end performs the request it holds in slot m, if it has not. The answer is none while a write is held
(R283, R287), else what a read returns. A loader's words are taken up where their response arrives; a write of a mirrored
register's value has taken effect as its request was formed (R133). FLD accesses act in the order in which they crossed (R145). -/
def State.dpPerform (s : State) (r : DpReq) : State × Option Word :=
  match r.done with
  | some w => (s, some w)
  | none =>
    let q := r.req
    if q.loader then
      match s.sh.fld.state with
      | .pull => (s, some (BitVec.ofNat 32 (leNat (s.dp.stage.reads (q.addr - Reg.fldStage.addr 0 0) 4))))
      | .peek => (s.onDp (fun d => d.writeStage ((q.addr - Reg.fldStage.addr 0 0) / 4) q.be q.data), some 0)
      | _ => (s, some 0)
    else
      let s := if mirroredFld q.addr && s.sh.link.last = q.master then s.peerFirst q.master else s
      if q.write then
        if fldValue q.addr then (s, some 0)
        else
          let x := s.performWrite (.port q.master) q.addr q.be q.data
          (x.1, if x.2 then some 0 else none)
      else
        let x := s.performRead (.port q.master) q.addr
        (x.1, some x.2)

/-- The words of a response (R55). -/
def rspWords (q : LinkReq) (err : Bool) (w : Word) : List Word :=
  let hd := b2n q.write * 2 ^ 30 + q.master.num * 2 ^ 29 + b2n err * 2 ^ 28
  BitVec.ofNat 32 hd :: (if q.write then [] else [w])

/-- A response arrives for the request that slot m waits for. A port in reset gets none; a loader that has moved on takes
none. -/
def State.takeResponse (s : State) (q : LinkReq) (err : Bool) (w : Word) : State :=
  if q.loader then
    if s.sh.fld.request = some q then (s.fldWordDone w).onSh Shepherd.fldSend else s
  else
    match (s.sh.port q.master).acc with
    | some x =>
      if x.stage = .inFlight then s.respond q.master (if err then .error else .ok) (if err || q.write then 0 else w) else s
    | none => s

/-- Whether the domain that an address lies in can answer: it is on, and no fault of it waits for the link (R90, R610). -/
def Shepherd.answers (h : Shepherd) (a : Nat) : Bool := h.domOn 19 && h.awake a && !h.seq.lost.contains (domainOf a)

/-- LINK_RESPONSE for MASTER m: the datapath end performs the request it holds, unless it has, and its response arrives;
`err` tells an uncorrectable storage error of a register read that has not been performed: the answer is ERROR and the read
has no effect (R46, R47, R56). A response after the limit is discarded (R59). -/
def execLinkResponse (m : RPort) (err : Bool) (s : State) : Out :=
  .next (
    let x := s.sh.link.slot m
    match x.dp with
    | none => s
    | some r =>
      if !s.sh.answers r.req.addr then s
      else
        let e := err && !r.req.write && !r.req.loader && r.done.isNone
        match (if e then (s, some 0) else s.dpPerform r) with
        | (s, none) => s
        | (s, some w) =>
          let s := s.onSh (fun h =>
            { h with link := { h.link.setSlot m { h.link.slot m with dp := none, sent := none, formed := none } with rspWords := rspWords r.req e w } })
          match x.sent with
          | some q => (s.takeResponse q e w).seqKick
          | none => s)

/-- Whether the response to the request of slot m is on its way: what was performed is answered in time (R51, R59). -/
def State.answered (s : State) (m : RPort) : Bool :=
  match (s.sh.link.slot m).dp with
  | some r => r.done.isSome && s.sh.answers r.req.addr
  | none => false

/-- The datapath end gives up the request of slot m, with the write it holds for it (R59, R283, R287). -/
def State.abandon (s : State) (m : RPort) : State :=
  let s := match (s.sh.link.slot m).dp with
    | some r =>
      if r.req.write && (r.req.addr = Reg.larCmd.addr 0 0 || r.req.addr = Reg.larAttic.addr 15 0) then s.onDp (fun d => d.dropHeld m)
      else s
    | none => s
  s.onSh (fun h => { h with link := h.link.setSlot m { h.link.slot m with dp := none } })

/-- LINK_TIMEOUT: the request of slot m has met its limit. The port gets ERROR with LINK_TO, which is set although the port
was reset meanwhile (R95), or the loader's operation ends; a drain period begins (R58, R59, R142). By then the datapath end
has abandoned the request, and what it changed in the shepherd's own value is taken back: no byte is written (R46, R59). -/
def execLinkTimeout (m : RPort) (s : State) : Out :=
  .next (match (s.sh.link.slot m).sent with
    | none => s
    | some q =>
      if s.answered m then s
      else
        let s := (s.abandon m).onSh (fun h =>
          let h := h.unform m
          { h with link := h.link.setSlot m { h.link.slot m with sent := none, drain := true } })
        if q.loader then
          (if s.sh.fld.request = some q then (s.fldFail { code := FE.linkTimeout }).restored else s).seqKick
        else
          let s := s.onSh (fun h => h.modView m (fun v => { v with linkTo := true, linkToAddr := q.addr }))
          match (s.sh.port m).acc with
          | some x => (if x.stage = .inFlight then s.respond m .error 0 else s).seqKick
          | none => s.seqKick)

/-- DRAIN_PERIOD_END of slot m (R59). -/
def execDrainPeriodEnd (m : RPort) (s : State) : Out :=
  .next (s.onSh (fun h => { h with link := h.link.setSlot m { h.link.slot m with drain := false } }))

/-- REQUEST_ABANDON: the datapath end gives up the request of slot m, whose response header it has not sent (R59). -/
def execRequestAbandon (m : RPort) (s : State) : Out :=
  .next (if s.answered m then s else s.abandon m)

/-! ## Event words (R55, R57, R61, R606) -/

/-- Whether a unit's event words reach the shepherd. -/
def Shepherd.unitSends (h : Shepherd) (u : Nat) : Bool := u < 51 && h.dpRstN && h.domOn 19 && h.domOn (unitDomain u)

/-- EVENT_WORD of a unit: its cause vector has changed, and the shepherd's copy follows; a pen also sends its word for each
wake request, whether its vector changes with it or not (R61, R233; log entry 86). A sentinel pen's wake request wakes the
block from WATCH (R606). -/
def execEventWord (u : Nat) (s : State) : Out :=
  .next (
    let c := s.dp.causeOf u
    if !s.sh.unitSends u || (Tab.get s.sh.cause u 0 = c && !s.dp.wakeReq.contains u) then s
    else
      let s := (s.onDp (fun d => { d with wakeReq := d.wakeReq.filter (· ≠ u) })).onSh (fun h =>
        { h with cause := Tab.put h.cause u c 0
                 link := { h.link with rspWords := [BitVec.ofNat 32 (2 * 2 ^ 30 + u * 2 ^ 24 + c)] } })
      if u < 32 && c.testBit 2 && s.watching && s.sh.flag F.pwrWakeEn_SENTINEL then
        (s.wakeSource F.pwrWakeStat_SENTINEL).onSh Shepherd.avsNext
      else s)

/-! ## Writes of any register -/

/-- REGISTER_WRITE: port m writes the register at an address (R7). `tie` is the other port's write to the same shared SHP or
PWR register in the same cycle (R87). An unlisted address takes nothing (R12); a write that is held has not taken effect
(R283, R287). -/
def execRegisterWrite (m : RPort) (addr : Nat) (be : BitVec 4) (data : Word) (tie : Option (BitVec 4 × Word)) (s : State) : Out :=
  .next (
    if domainOf addr = 0 then
      match Reg.ofAddr addr with
      | some (r, i, _) => s.corePortWrite m r i be data tie
      | none => s.regWrite (.port m) addr id
    else if s.reaches (.port m) addr true then
      let x := s.performWrite (.port m) addr be data
      if x.2 then x.1.performed (.port m) addr true 0 else x.1
    else s.turnedOff (.port m))

end Sys2Proof.Machine
end

