-- ==== Sys2Proof/Machine/Dispatch.lean ====
section
/-! DEFINITION. The meaning of every command: one arm per constructor, each a direct call of its own meaning. -/

namespace Sys2Proof.Machine

/-- The effect of a command on everything but the queue of waiting commands. -/
def exec (i : Instr) (s : State) : Host.Outcome State Fault Refusal :=
  match i with
  | .registerWrite m addr be data tie => Sys2Proof.Machine.execRegisterWrite m addr be data tie s
  | .registerAccessTransfer m write addr be data => Sys2Proof.Machine.execRegisterAccessTransfer m write addr be data s
  | .linkRequestSend tie => Sys2Proof.Machine.execLinkRequestSend tie s
  | .linkResponse m err => Sys2Proof.Machine.execLinkResponse m err s
  | .linkTimeout m => Sys2Proof.Machine.execLinkTimeout m s
  | .drainPeriodEnd m => Sys2Proof.Machine.execDrainPeriodEnd m s
  | .requestAbandon m => Sys2Proof.Machine.execRequestAbandon m s
  | .eventWord u => Sys2Proof.Machine.execEventWord u s
  | .rgpResetAssert m => Sys2Proof.Machine.execRgpResetAssert m s
  | .rgpResetRelease m valid => Sys2Proof.Machine.execRgpResetRelease m valid s
  | .powerOnResetRelease => Sys2Proof.Machine.execPowerOnResetRelease s
  | .blockResetAssert => Sys2Proof.Machine.execBlockResetAssert s
  | .blockResetRelease => Sys2Proof.Machine.execBlockResetRelease s
  | .avsFrameEnd good data => Sys2Proof.Machine.execAvsFrameEnd good data s
  | .avsAckTimeout => Sys2Proof.Machine.execAvsAckTimeout s
  | .settleExpire => Sys2Proof.Machine.execSettleExpire s
  | .clockAckChange x => Sys2Proof.Machine.execClockAckChange x s
  | .clockHandshakeTimeout x => Sys2Proof.Machine.execClockHandshakeTimeout x s
  | .domainReadyChange d => Sys2Proof.Machine.execDomainReadyChange d s
  | .domainReadyTimeout d => Sys2Proof.Machine.execDomainReadyTimeout d s
  | .memoryInitDone => Sys2Proof.Machine.execMemoryInitDone s
  | .logicReleaseDelayExpire => Sys2Proof.Machine.execLogicReleaseDelayExpire s
  | .isoLowerStep => Sys2Proof.Machine.execIsoLowerStep s
  | .coldStartFail => Sys2Proof.Machine.execColdStartFail s
  | .coldStartRetry => Sys2Proof.Machine.execColdStartRetry s
  | .semaphoreRead who n => Sys2Proof.Machine.execSemaphoreRead who n s
  | .semaphoreRelease m n be data tie => Sys2Proof.Machine.execSemaphoreRelease m n be data tie s
  | .expertArm m be data => Sys2Proof.Machine.execExpertArm m be data s
  | .expertWrite m be data tie => Sys2Proof.Machine.execExpertWrite m be data tie s
  | .mailboxDataWrite m n be data => Sys2Proof.Machine.execMailboxDataWrite m n be data s
  | .mailboxPost m => Sys2Proof.Machine.execMailboxPost m s
  | .mailboxTake m be data => Sys2Proof.Machine.execMailboxTake m be data s
  | .doorbellRing m be data => Sys2Proof.Machine.execDoorbellRing m be data s
  | .pull m => Sys2Proof.Machine.execPull m s
  | .pullEnd => Sys2Proof.Machine.execPullEnd s
  | .peek m => Sys2Proof.Machine.execPeek m s
  | .peekEnd => Sys2Proof.Machine.execPeekEnd s
  | .check m => Sys2Proof.Machine.execCheck m s
  | .checkEnd => Sys2Proof.Machine.execCheckEnd s
  | .apply m => Sys2Proof.Machine.execApply m s
  | .applyEnd => Sys2Proof.Machine.execApplyEnd s
  | .refold m pen => Sys2Proof.Machine.execRefold m pen s
  | .refoldHoldEmpty => Sys2Proof.Machine.execRefoldHoldEmpty s
  | .refoldApplyEnd => Sys2Proof.Machine.execRefoldApplyEnd s
  | .spliceEnd => Sys2Proof.Machine.execSpliceEnd s
  | .abort m => Sys2Proof.Machine.execAbort m s
  | .restoreEnd failed => Sys2Proof.Machine.execRestoreEnd failed s
  | .signalDetectChange slot level => Sys2Proof.Machine.execSignalDetectChange slot level s
  | .linkAdminDown src p be data => Sys2Proof.Machine.execLinkAdminDown src p be data s
  | .linkAdminUp src p be data => Sys2Proof.Machine.execLinkAdminUp src p be data s
  | .linkLoopChange src p mode be data => Sys2Proof.Machine.execLinkLoopChange src p mode be data s
  | .laneLoss p => Sys2Proof.Machine.execLaneLoss p s
  | .signalPresent p => Sys2Proof.Machine.execSignalPresent p s
  | .lanesLocked p => Sys2Proof.Machine.execLanesLocked p s
  | .lockLoss p lost hiErr => Sys2Proof.Machine.execLockLoss p lost hiErr s
  | .deskewSuccess p => Sys2Proof.Machine.execDeskewSuccess p s
  | .deskewFail p => Sys2Proof.Machine.execDeskewFail p s
  | .upHoldExpire p => Sys2Proof.Machine.execUpHoldExpire p s
  | .remoteFaultReceived p => Sys2Proof.Machine.execRemoteFaultReceived p s
  | .remoteFaultCleared p => Sys2Proof.Machine.execRemoteFaultCleared p s
  | .lpiEnter p => Sys2Proof.Machine.execLpiEnter p s
  | .lpiWake p => Sys2Proof.Machine.execLpiWake p s
  | .lpiWakeDone p => Sys2Proof.Machine.execLpiWakeDone p s
  | .rxLpiEnter p => Sys2Proof.Machine.execRxLpiEnter p s
  | .rxLpiExit p => Sys2Proof.Machine.execRxLpiExit p s
  | .rxLpiTimeout p => Sys2Proof.Machine.execRxLpiTimeout p s
  | .rxFrameStart p smd frag => Sys2Proof.Machine.execRxFrameStart p smd frag s
  | .rxAddressFilter p bs => Sys2Proof.Machine.execRxAddressFilter p bs s
  | .rxFrameReady p bs => Sys2Proof.Machine.execRxFrameReady p bs s
  | .rxFrameTruncate p bs => Sys2Proof.Machine.execRxFrameTruncate p bs s
  | .rxFrameEnd p bs => Sys2Proof.Machine.execRxFrameEnd p bs s
  | .rxFrameCut p bs => Sys2Proof.Machine.execRxFrameCut p bs s
  | .pauseTimerExpire p c => Sys2Proof.Machine.execPauseTimerExpire p c s
  | .pauseWatchdogExpire p c => Sys2Proof.Machine.execPauseWatchdogExpire p c s
  | .stormRestoreExpire p c => Sys2Proof.Machine.execStormRestoreExpire p c s
  | .watchdogEnableWrite src p be data => Sys2Proof.Machine.execWatchdogEnableWrite src p be data s
  | .rxFragmentEnd p bs => Sys2Proof.Machine.execRxFragmentEnd p bs s
  | .verifyFrameReceived p bs => Sys2Proof.Machine.execVerifyFrameReceived p bs s
  | .respondFrameReceived p bs => Sys2Proof.Machine.execRespondFrameReceived p bs s
  | .parseStart pen slot => Sys2Proof.Machine.execParseStart pen slot s
  | .grazeBlockScan pen => Sys2Proof.Machine.execGrazeBlockScan pen s
  | .grazeDeadline pen k => Sys2Proof.Machine.execGrazeDeadline pen k s
  | .lookupIssue => Sys2Proof.Machine.execLookupIssue s
  | .lookupResult pen idx pos => Sys2Proof.Machine.execLookupResult pen idx pos s
  | .verdictMerge pen len => Sys2Proof.Machine.execVerdictMerge pen len s
  | .meterRefresh => Sys2Proof.Machine.execMeterRefresh s
  | .lookupLineRead src index => Sys2Proof.Machine.execLookupLineRead src index s
  | .lineWrite src index => Sys2Proof.Machine.execLineWrite src index s
  | .meterRead src index => Sys2Proof.Machine.execMeterRead src index s
  | .meterWrite src index => Sys2Proof.Machine.execMeterWrite src index s
  | .fcRead src index => Sys2Proof.Machine.execFcRead src index s
  | .fcReadClear src index => Sys2Proof.Machine.execFcReadClear src index s
  | .fcWrite src index => Sys2Proof.Machine.execFcWrite src index s
  | .samplerConfig src k be data => Sys2Proof.Machine.execSamplerConfig src k be data s
  | .insert src table copy => Sys2Proof.Machine.execInsert src table copy s
  | .delete src table copy => Sys2Proof.Machine.execDelete src table copy s
  | .find src table copy => Sys2Proof.Machine.execFind src table copy s
  | .writeAt src table copy => Sys2Proof.Machine.execWriteAt src table copy s
  | .readAt src table copy => Sys2Proof.Machine.execReadAt src table copy s
  | .hash src table copy => Sys2Proof.Machine.execHash src table copy s
  | .larCommandAccept => Sys2Proof.Machine.execLarCommandAccept s
  | .larCommandTimeout m => Sys2Proof.Machine.execLarCommandTimeout m s
  | .larCommandEnd => Sys2Proof.Machine.execLarCommandEnd s
  | .atticPush src be data => Sys2Proof.Machine.execAtticPush src be data s
  | .atticPushTimeout m => Sys2Proof.Machine.execAtticPushTimeout m s
  | .atticWrite => Sys2Proof.Machine.execAtticWrite s
  | .liveWrite src be data => Sys2Proof.Machine.execLiveWrite src be data s
  | .flip => Sys2Proof.Machine.execFlip s
  | .copySettle t x => Sys2Proof.Machine.execCopySettle t x s
  | .cseedWrite src n be data => Sys2Proof.Machine.execCseedWrite src n be data s
  | .epochRequest src => Sys2Proof.Machine.execEpochRequest src s
  | .epochAdvance => Sys2Proof.Machine.execEpochAdvance s
  | .beatWrite f stall => Sys2Proof.Machine.execBeatWrite f stall s
  | .loftSinkStart inPen outPen => Sys2Proof.Machine.execLoftSinkStart inPen outPen s
  | .sinkMove e => Sys2Proof.Machine.execSinkMove e s
  | .sinkEnd inPen outPen => Sys2Proof.Machine.execSinkEnd inPen outPen s
  | .sectorRead copies => Sys2Proof.Machine.execSectorRead copies s
  | .badCopyDiscard rx q => Sys2Proof.Machine.execBadCopyDiscard rx q s
  | .flushCommand src port tcs => Sys2Proof.Machine.execFlushCommand src port tcs s
  | .flushRemove => Sys2Proof.Machine.execFlushRemove s
  | .redSeedWrite src be data => Sys2Proof.Machine.execRedSeedWrite src be data s
  | .queueConfigWrite src n be data => Sys2Proof.Machine.execQueueConfigWrite src n be data s
  | .copyGrant pen => Sys2Proof.Machine.execCopyGrant pen s
  | .launchJudge p c => Sys2Proof.Machine.execLaunchJudge p c s
  | .launchDue p c => Sys2Proof.Machine.execLaunchDue p c s
  | .gateCommit src n start len => Sys2Proof.Machine.execGateCommit src n start len s
  | .gateDiscard src n => Sys2Proof.Machine.execGateDiscard src n s
  | .gateEntryWrite src hi m be data => Sys2Proof.Machine.execGateEntryWrite src hi m be data s
  | .gateSwitch p => Sys2Proof.Machine.execGateSwitch p s
  | .gateCycleStart p => Sys2Proof.Machine.execGateCycleStart p s
  | .copyStart p express => Sys2Proof.Machine.execCopyStart p express s
  | .txUnderrun p express n => Sys2Proof.Machine.execTxUnderrun p express n s
  | .txOversizeCut p express => Sys2Proof.Machine.execTxOversizeCut p express s
  | .txFrameEnd p => Sys2Proof.Machine.execTxFrameEnd p s
  | .copyEnd p express => Sys2Proof.Machine.execCopyEnd p express s
  | .pauseRefreshExpire p => Sys2Proof.Machine.execPauseRefreshExpire p s
  | .fcModeWrite src n be data => Sys2Proof.Machine.execFcModeWrite src n be data s
  | .controlFrameStart p => Sys2Proof.Machine.execControlFrameStart p s
  | .verifyTimerExpire p => Sys2Proof.Machine.execVerifyTimerExpire p s
  | .verifyRestart src p be data => Sys2Proof.Machine.execVerifyRestart src p be data s
  | .verifyDisable src p be data => Sys2Proof.Machine.execVerifyDisable src p be data s
  | .fragmentEnd p k => Sys2Proof.Machine.execFragmentEnd p k s
  | .preemptResume p => Sys2Proof.Machine.execPreemptResume p s
  | .preemptHold p => Sys2Proof.Machine.execPreemptHold p s
  | .pollDue rx q => Sys2Proof.Machine.execPollDue rx q s
  | .pollIssue k late => Sys2Proof.Machine.execPollIssue k late s
  | .pollResult k => Sys2Proof.Machine.execPollResult k s
  | .hotIdleExpire rx q => Sys2Proof.Machine.execHotIdleExpire rx q s
  | .txFetchStart k => Sys2Proof.Machine.execTxFetchStart k s
  | .txCompletionPlace n => Sys2Proof.Machine.execTxCompletionPlace n s
  | .rxCopyWriteStart q => Sys2Proof.Machine.execRxCopyWriteStart q s
  | .rxCompletionPlace q => Sys2Proof.Machine.execRxCompletionPlace q s
  | .holdRelease r => Sys2Proof.Machine.execHoldRelease r s
  | .ciPollExpire r => Sys2Proof.Machine.execCiPollExpire r s
  | .holdFullExpire k => Sys2Proof.Machine.execHoldFullExpire k s
  | .queueEnable src rx q => Sys2Proof.Machine.execQueueEnable src rx q s
  | .queueStop src rx q => Sys2Proof.Machine.execQueueStop src rx q s
  | .queueDisable src rx q => Sys2Proof.Machine.execQueueDisable src rx q s
  | .queueFlush src rx q => Sys2Proof.Machine.execQueueFlush src rx q s
  | .queueKick src rx q => Sys2Proof.Machine.execQueueKick src rx q s
  | .queueDrained rx q => Sys2Proof.Machine.execQueueDrained rx q s
  | .ringEnable src r => Sys2Proof.Machine.execRingEnable src r s
  | .ringDisable src r => Sys2Proof.Machine.execRingDisable src r s
  | .ringKick src r => Sys2Proof.Machine.execRingKick src r s
  | .contextWrite src addr be data => Sys2Proof.Machine.execContextWrite src addr be data s
  | .arbitration k => Sys2Proof.Machine.execArbitration k s
  | .grantRelease k => Sys2Proof.Machine.execGrantRelease k s
  | .holdCut k => Sys2Proof.Machine.execHoldCut k s
  | .quotaWindowStart k => Sys2Proof.Machine.execQuotaWindowStart k s
  | .readBeat k tag data resp last => Sys2Proof.Machine.execReadBeat k tag data resp last s
  | .writeResponse k resp => Sys2Proof.Machine.execWriteResponse k resp s
  | .step src b force => Sys2Proof.Machine.execStep src b force s
  | .offset src b force => Sys2Proof.Machine.execOffset src b force s
  | .hold src b => Sys2Proof.Machine.execHold src b s
  | .timeCommandApply b => Sys2Proof.Machine.execTimeCommandApply b s
  | .timeSample src b => Sys2Proof.Machine.execTimeSample src b s
  | .corrWdExpire b => Sys2Proof.Machine.execCorrWdExpire b s
  | .aonWindowEnd b => Sys2Proof.Machine.execAonWindowEnd b s
  | .txLogPop src => Sys2Proof.Machine.execTxLogPop src s
  | .rxLogPop src => Sys2Proof.Machine.execRxLogPop src s
  | .pulseInputEdge n rise => Sys2Proof.Machine.execPulseInputEdge n rise s
  | .pulseOutputEdge o => Sys2Proof.Machine.execPulseOutputEdge o s
  | .poutConfig src o be data => Sys2Proof.Machine.execPoutConfig src o be data s
  | .helloTimer l => Sys2Proof.Machine.execHelloTimer l s
  | .deadTimerExpire l => Sys2Proof.Machine.execDeadTimerExpire l s
  | .claimTimer => Sys2Proof.Machine.execClaimTimer s
  | .claim src => Sys2Proof.Machine.execClaim src s
  | .release src => Sys2Proof.Machine.execRelease src s
  | .contextInit src c => Sys2Proof.Machine.execContextInit src c s
  | .contextFeed src c be data => Sys2Proof.Machine.execContextFeed src c be data s
  | .contextStateWrite src c be data => Sys2Proof.Machine.execContextStateWrite src c be data s
  | .hdmaStart src c be data => Sys2Proof.Machine.execHdmaStart src c be data s
  | .hdmaTimer c => Sys2Proof.Machine.execHdmaTimer c s
  | .hdmaSelect => Sys2Proof.Machine.execHdmaSelect s
  | .hdmaComplete => Sys2Proof.Machine.execHdmaComplete s
  | .hdmaRspTimeout write pos => Sys2Proof.Machine.execHdmaRspTimeout write pos s
  | .hdmaDisable src c be data => Sys2Proof.Machine.execHdmaDisable src c be data s
  | .hdmaResume src => Sys2Proof.Machine.execHdmaResume src s
  | .hdmaPop src => Sys2Proof.Machine.execHdmaPop src s
  | .tallyLoRead src pen m => Sys2Proof.Machine.execTallyLoRead src pen m s
  | .tallyHiWrite src pen m be data => Sys2Proof.Machine.execTallyHiWrite src pen m be data s
  | .tallyLoWrite src pen m be data => Sys2Proof.Machine.execTallyLoWrite src pen m be data s
  | .tallySnap src pen n clear => Sys2Proof.Machine.execTallySnap src pen n clear s
  | .tallyClear src pen n => Sys2Proof.Machine.execTallyClear src pen n s
  | .pmnRun src run => Sys2Proof.Machine.execPmnRun src run s
  | .clearAll src run => Sys2Proof.Machine.execClearAll src run s
  | .pmnLoRead src j => Sys2Proof.Machine.execPmnLoRead src j s
  | .pmnConfigWrite src k be data => Sys2Proof.Machine.execPmnConfigWrite src k be data s
  | .sleepTallyRead m => Sys2Proof.Machine.execSleepTallyRead m s
  | .powerWait m be data tie => Sys2Proof.Machine.execPowerWait m be data tie s
  | .veto m be data tie => Sys2Proof.Machine.execVeto m be data tie s
  | .vetoWindowExpire => Sys2Proof.Machine.execVetoWindowExpire s
  | .quiesceClear => Sys2Proof.Machine.execQuiesceClear s
  | .quiesceTimeout => Sys2Proof.Machine.execQuiesceTimeout s
  | .wakeTimerExpire => Sys2Proof.Machine.execWakeTimerExpire s
  | .wakeFail => Sys2Proof.Machine.execWakeFail s
  | .wakeRetry => Sys2Proof.Machine.execWakeRetry s
  | .domainFault d => Sys2Proof.Machine.execDomainFault d s
  | .trimGate pen => Sys2Proof.Machine.execTrimGate pen s
  | .trimUngate pen => Sys2Proof.Machine.execTrimUngate pen s
  | .readVoltage m be data tie => Sys2Proof.Machine.execReadVoltage m be data tie s
  | .readStatus m be data tie => Sys2Proof.Machine.execReadStatus m be data tie s
  | .writeVoltage m be data tie => Sys2Proof.Machine.execWriteVoltage m be data tie s
  | .srpRequestTransfer k => Sys2Proof.Machine.execSrpRequestTransfer k s
  | .srpWriteBeatTransfer k => Sys2Proof.Machine.execSrpWriteBeatTransfer k s
  | .patternCheckerLock slot errs => Sys2Proof.Machine.execPatternCheckerLock slot errs s
  | .patternCheckerUnlock slot errs => Sys2Proof.Machine.execPatternCheckerUnlock slot errs s
  | .lpiRefresh p quiet => Sys2Proof.Machine.execLpiRefresh p quiet s
  | .rxLpiRefresh p quiet => Sys2Proof.Machine.execRxLpiRefresh p quiet s
  | .flockHeaderCheck p bs => Sys2Proof.Machine.execFlockHeaderCheck p bs s

end Sys2Proof.Machine
end

