-- ==== Sys2Proof/Machine/Idle.lean ====
section
/-! DEFINITION. What time does while no command waits: one clk_shf period of 2.5 ns. -/

namespace Sys2Proof.Machine

/-- Whether a clock runs: its acknowledge is 1 (R36). 0 core, 1 srp, 2 shf, 3 lane. -/
def Shepherd.runs (h : Shepherd) (x : Nat) : Bool := (h.clk x).ack

/-- The edges of clk_core in tick n: five at 2.0 GHz, seven in two ticks at 1.4 GHz (R33, R39). -/
def Shepherd.coreEdges (h : Shepherd) : Nat := if h.selCore then 3 + h.tick % 2 else 5

/-- The edges of clk_shf of the datapath: every base advances (R481) and every shaper fills (R372). -/
def State.shfEdge (s : State) : State :=
  if !s.sh.runs 2 then s
  else
    let s := if s.sh.domOn 18 then s.onDp Datapath.tbTick else s
    if s.sh.domOn 17 then s.onDp Datapath.shaperTick else s

/-- The edges of clk_core at the XOFF states (R350), the performance monitor (R581) and the check-value contexts (R546). -/
def State.coreEdge (s : State) : State :=
  let s := if s.sh.runs 0 && s.sh.domOn 15 then s.onDp Datapath.xoffClock else s
  if s.sh.runs 0 && s.sh.domOn 19 then s.onDp (fun d => (d.pmnClocks s.sh.coreEdges).cvuClocks s.sh.coreEdges) else s

/-- The edges of clk_srp at the store-room ports (R471). -/
def State.srpEdge (s : State) : State :=
  if s.sh.runs 1 && s.sh.domOn 9 then s.onDp (fun d => d.srpClocks 5) else s

/-- One edge of clk_aon in eight ticks: the sleep tally counts it (R619). -/
def Shepherd.aonEdge (h : Shepherd) : Shepherd :=
  if h.sleepRun && h.tick % 8 = 7 then { h with sleepN := (h.sleepN + 1) % 2 ^ 64 } else h

/-- A step of the sequencer that waits for a unit's work to end, without an event of its own (R299, R480), is taken up. -/
def State.seqPoll (s : State) : State := if s.sh.seq.kind ≠ .none && !s.sh.seq.started && s.sh.seq.todo ≠ [] then s.seqKick else s

/-- One tick of 2.5 ns. -/
def State.idle (s : State) : State :=
  (((s.onDp Datapath.clockEnds).shfEdge.coreEdge.srpEdge.onSh Shepherd.aonEdge).onSh (fun h => { h with tick := h.tick + 1 })).seqPoll

end Sys2Proof.Machine
end

