-- ==== Sys2Proof/Safety.lean ====
section
/-! DEFINITION. The notions in which claims speak of the block: when a port accepts an access, where an access stands, and
the shape that every list of the state keeps. -/

namespace Sys2Proof.Machine

/-- Whether port m accepts an access: out of reset, none outstanding, clk_shf running, no drain period of its slot, no block
reset (R44, R59, R155). -/
def Shepherd.accepts (h : Shepherd) (m : RPort) : Bool :=
  (h.port m).rstN && (h.port m).acc.isNone && (h.clk 2).ack && !(h.link.slot m).drain && h.blkN

/-- Whether port m's outstanding access stands at the register core and is the named one. -/
def Shepherd.atCore (h : Shepherd) (m : RPort) (write : Bool) (addr : Nat) : Bool :=
  match (h.port m).acc with
  | some x => x.is write addr && x.stage = .atCore
  | none => false

/-- Every list of fixed length in the state has it: the 32 semaphores, the 20 domains with PD0, the four clocks, the eight
words of a mailbox, the eight time bases, the four pulse outputs and the eight classes of a port's pause state. -/
def State.shaped (s : State) : Bool :=
  s.sh.sem.length = 32 && s.sh.doms.length = 20 && s.sh.clks.length = 4 && s.sh.mboxAB.data.length = 8 &&
  s.sh.mboxBA.data.length = 8 && s.dp.tim.bases.length = 8 && s.dp.tim.level.length = 4 &&
  s.dp.rx.all (fun e => e.2.pause.length = 8)

/-- The domains that hold a retention-capable memory (R82). -/
def hasRetention (d : Nat) : Bool := [9, 11, 12, 13, 14, 16, 17].contains d

/-- Whether a step of the power sequencer raises retention only where there is a memory that can retain (R82). -/
def SeqStep.retLegal : SeqStep → Bool
  | .down d r => !r || hasRetention d
  | _ => true

/-- Retention stands at 1 only on domains with a retention-capable memory, and no step that waits will raise it elsewhere
(R82). -/
def Shepherd.retLegal (h : Shepherd) : Bool :=
  (List.range 20).all (fun d => !(h.dom d).ret || hasRetention d) && h.seq.todo.all SeqStep.retLegal

/-- The canonical form of a memory part of which is undefined: addresses strictly rising, and no listed byte equal to what
an unlisted byte outside the undefined ranges reads as. -/
def URam.wf (m : URam) : Bool :=
  Tab.rising m.cells && m.cells.all (fun e => e.2 ≠ 0 || m.undef.any (fun r => r.1 ≤ e.1 && e.1 < r.2.1))

end Sys2Proof.Machine
end

