-- ==== Sys2Proof/Certificates/Slice0/Obligations.lean ====
section
/-! DEFINITION. The statements for the provers, in the order of OBLIGATIONS.json. -/

open Sys2Proof Sys2Proof.Machine

/-- O1: A step runs the command at the front of the queue. For every command c and every state whose queue begins
with c, a step is exec of c on the state with the rest of the queue. On an empty queue a step is one tick of
time, which is the model's own choice (log entry 10). Rests on spec/95_what_each_step_holds.md. -/
def Obligations.StepRunsFrontCommand : Prop :=
  (∀ (s : State) (c : Instr) (rest : List Instr), s.pending = c :: rest →
    step s = exec c { s with pending := rest }) ∧
  (∀ s : State, s.pending = [] → step s = .next s.idle)

/-- O2: Where a transferred register access goes (REGISTER_ACCESS_TRANSFER). On a port that accepts an access, a
misaligned access is answered ERROR; an access that the Register index does not list, outside every unit range
or in SHP or PWR, is answered with 0 and OK; an access to a unit that is off or asleep is answered OFF, a read
with 0x0FF0_0FF0; a write of a listed SHP or PWR register waits at the register core; a read of such a register
but SHP_SEM_n and the sleep tally is answered at once; every other access joins the requests that wait for the
link. The access uses up the port's arm. The datapath, the other port and the other shepherd state stay. Rests
on spec/02_block_boundary.md R44, spec/00_scope.md R12, spec/01_architecture.md R17, spec/02_block_boundary.md
R46, spec/02_block_boundary.md R47, spec/22_power.md R598, spec/03_shepherd_and_masters.md R99. -/
def Obligations.AccessTransferRoutes : Prop :=
  ∀ (s : State) (m : RPort) (w : Bool) (a : Nat) (be : BitVec 4) (data : Word), s.sh.accepts m = true →
    ∃ t, exec (.registerAccessTransfer m w a be data) s = .next t ∧
      t.dp = s.dp ∧ t.pending = s.pending ∧ t.sh.port m.peer = s.sh.port m.peer ∧ t.sh.view m.peer = s.sh.view m.peer ∧
      t.sh.view m = { s.sh.view m with armed := false } ∧ t.sh.regs = s.sh.regs ∧ t.sh.sem = s.sh.sem ∧
      t.sh.link.slot m = s.sh.link.slot m ∧ t.sh.link.slot m.peer = s.sh.link.slot m.peer ∧ t.sh.seq = s.sh.seq ∧
      (a % 4 ≠ 0 → (t.sh.port m).acc = none ∧ (t.sh.port m).rsp = some ⟨.error, 0⟩) ∧
      (a % 4 = 0 → domainOf a = 0 → Reg.ofAddr a = none →
        (t.sh.port m).acc = none ∧ (t.sh.port m).rsp = some ⟨.ok, 0⟩) ∧
      (∀ r i j, a % 4 = 0 → domainOf a = 0 → Reg.ofAddr a = some (r, i, j) → w = true →
        (t.sh.port m).acc = some ⟨w, a, be, data, .atCore, (s.sh.view m).armed⟩ ∧ (t.sh.port m).rsp = none) ∧
      (∀ r i j, a % 4 = 0 → domainOf a = 0 → Reg.ofAddr a = some (r, i, j) → w = false → r.readsAtCore = false →
        (t.sh.port m).acc = none ∧ ∃ x, (t.sh.port m).rsp = some ⟨.ok, x⟩) ∧
      (a % 4 = 0 → domainOf a ≠ 0 → s.sh.awake a = false →
        (t.sh.port m).acc = none ∧ (t.sh.port m).rsp = some ⟨.off, if w then 0 else 0x0FF00FF0⟩) ∧
      (a % 4 = 0 → domainOf a ≠ 0 → s.sh.awake a = true →
        (t.sh.port m).acc = some ⟨w, a, be, data, .waitLink, (s.sh.view m).armed⟩ ∧ (t.sh.port m).rsp = none ∧
        t.sh.link.fifo = s.sh.link.fifo ++ [⟨m, false, w, a, be, data⟩])

/-- O3: The shepherd sends one waiting request (LINK_REQUEST_SEND). Where a request r is next and PD19 is on: r
leaves the queue and stands in its slot at both ends, its words are those of R53, its port is the one served
last, and the port's access is in flight; the datapath and the registers stay, also for a write of FLD_CMD,
which acts as it is performed. A port's write of a mirrored FLD register that holds a value takes effect, as
well, as its words are formed: the datapath, the registers and the loader are those after that write, and the
slot keeps what the write found and left, so that it can be taken back (log entries 16 and 21: that the effect
comes with the request, and the record beside the slot, are the model's reading of R133 and R46). Where both
ports have a request ready in the same cycle, the port that was not served last goes. With PD19 off nothing
goes. Rests on spec/02_block_boundary.md R53, spec/02_block_boundary.md R54, spec/02_block_boundary.md R52,
spec/02_block_boundary.md R624, spec/04_fold_image.md R133, spec/04_fold_image.md R145. -/
def Obligations.LinkRequestGoesOut : Prop :=
  (∀ (s : State) (tie : Bool) (r : LinkReq), s.sh.link.next tie = some r → s.sh.domOn 19 = true →
    (r.write = false ∨ r.loader = true ∨ fldValue r.addr = false) →
    ∃ t, exec (.linkRequestSend tie) s = .next t ∧ t.dp = s.dp ∧ t.pending = s.pending ∧ t.sh.regs = s.sh.regs ∧
      (t.sh.link.slot r.master).sent = some r ∧ (t.sh.link.slot r.master).dp = some ⟨r, none⟩ ∧
      (t.sh.link.slot r.master.peer).sent = (s.sh.link.slot r.master.peer).sent ∧
      (t.sh.link.slot r.master.peer).dp = (s.sh.link.slot r.master.peer).dp ∧
      (t.sh.link.slot r.master.peer).drain = (s.sh.link.slot r.master.peer).drain ∧
      (t.sh.link.slot r.master.peer).loaderLast = (s.sh.link.slot r.master.peer).loaderLast ∧
      t.sh.link.last = r.master ∧ t.sh.link.reqWords = r.words ∧
      (∀ x, x ∈ t.sh.link.fifo ↔ x ∈ s.sh.link.fifo ∧ ¬ (x.master = r.master ∧ x.loader = r.loader)) ∧
      (∀ x, r.loader = false → (s.sh.port r.master).acc = some x →
        (t.sh.port r.master).acc = some { x with stage := .inFlight })) ∧
  (∀ (s : State) (tie : Bool) (r : LinkReq), s.sh.link.next tie = some r → s.sh.domOn 19 = true → r.write = true →
    r.loader = false → fldValue r.addr = true → (s.sh.link.slot r.master.peer).dp = none →
    let u := ((s.onSh (fun h => h.sendReq r)).performWrite (.port r.master) r.addr r.be r.data).1
    ∃ t, exec (.linkRequestSend tie) s = .next t ∧ t.dp = u.dp ∧ t.pending = u.pending ∧ t.sh.regs = u.sh.regs ∧
      t.sh.fld = u.sh.fld ∧ (t.sh.link.slot r.master).sent = some r ∧
      (t.sh.link.slot r.master).formed = some (s.sh.ownWord r.addr, t.sh.ownWord r.addr)) ∧
  (∀ (l : Link) (x y : LinkReq), l.candidate .a = some x → l.candidate .b = some y →
    l.next true = some (if l.last = .a then y else x)) ∧
  (∀ (s : State) (tie : Bool), s.sh.domOn 19 = false → ∃ t, exec (.linkRequestSend tie) s = .next t ∧ t = s)

/-- O4: A response on the link answers the port that waits (LINK_RESPONSE). Where the datapath end holds a port's
request whose unit answers, and the port's access is in flight: if the request has been performed with result w,
the port is answered OK with w for a read and 0 for a write. A read that has not been performed is performed,
and its word is the answer; one that meets an uncorrectable storage error is answered ERROR with 0 and has no
effect. A write that has not been performed is performed and answered OK with 0, unless its unit holds it: then
it stays in its slot. A write of a mirrored FLD register that holds a value has taken effect with its request,
and is answered OK with no further effect. That an access not yet performed takes its effect here is log entry
16, and that a read answered ERROR has none is log entry 77: both are the model's reading (DEDUCED), as is the
order of FLD accesses that crossed before, which the reads' clause leaves out. The other port, the semaphores
and the queue of commands stay; the response words are those of R55. Rests on spec/02_block_boundary.md R46,
spec/02_block_boundary.md R47, spec/02_block_boundary.md R55, spec/02_block_boundary.md R56,
spec/09_larder_tables.md R283, spec/09_larder_tables.md R287. -/
def Obligations.LinkResponseAnswersPort : Prop :=
  (∀ (s : State) (m : RPort) (err : Bool) (q : LinkReq) (w : Word) (x : OutAccess),
    (s.sh.link.slot m).sent = some q → (s.sh.link.slot m).dp = some ⟨q, some w⟩ →
    q.loader = false → q.master = m → s.sh.answers q.addr = true →
    (s.sh.port m).acc = some x → x.stage = .inFlight →
    ∃ t, exec (.linkResponse m err) s = .next t ∧ t.pending = s.pending ∧
      t.sh.port m = { s.sh.port m with acc := none, rsp := some ⟨.ok, if q.write then 0 else w⟩ } ∧
      t.sh.port m.peer = s.sh.port m.peer ∧ t.sh.sem = s.sh.sem) ∧
  (∀ (s : State) (m : RPort) (q : LinkReq) (x : OutAccess),
    (s.sh.link.slot m).sent = some q → (s.sh.link.slot m).dp = some ⟨q, none⟩ →
    q.loader = false → q.write = false → q.master = m → s.sh.answers q.addr = true →
    (s.sh.port m).acc = some x → x.stage = .inFlight → s.sh.seq.todo = [] →
    (mirroredFld q.addr = false ∨ s.sh.link.last ≠ m ∨ (s.sh.link.slot m.peer).dp = none) →
    (∃ t, exec (.linkResponse m false) s = .next t ∧ t.pending = s.pending ∧ t.sh.sem = s.sh.sem ∧
      t.dp = (s.performRead (.port m) q.addr).1.dp ∧
      (t.sh.port m).acc = none ∧ (t.sh.port m).rsp = some ⟨.ok, (s.performRead (.port m) q.addr).2⟩) ∧
    (∃ t, exec (.linkResponse m true) s = .next t ∧ t.pending = s.pending ∧ t.sh.sem = s.sh.sem ∧ t.dp = s.dp ∧
      (t.sh.port m).acc = none ∧ (t.sh.port m).rsp = some ⟨.error, 0⟩)) ∧
  (∀ (s : State) (m : RPort) (err : Bool) (q : LinkReq), (s.sh.link.slot m).dp = some ⟨q, none⟩ →
    q.loader = false → q.write = true → mirroredFld q.addr = false → q.master = m → s.sh.answers q.addr = true →
    (s.performWrite (.port m) q.addr q.be q.data).2 = false →
    ∃ t, exec (.linkResponse m err) s = .next t ∧ t = (s.performWrite (.port m) q.addr q.be q.data).1) ∧
  (∀ (s : State) (m : RPort) (err : Bool) (q : LinkReq) (x : OutAccess),
    (s.sh.link.slot m).sent = some q → (s.sh.link.slot m).dp = some ⟨q, none⟩ →
    q.loader = false → q.write = true → q.master = m → s.sh.answers q.addr = true →
    (s.sh.port m).acc = some x → x.stage = .inFlight →
    (mirroredFld q.addr = false → (s.performWrite (.port m) q.addr q.be q.data).2 = true →
      (s.performWrite (.port m) q.addr q.be q.data).1.sh = s.sh → s.sh.seq.todo = [] →
      ∃ t, exec (.linkResponse m err) s = .next t ∧ t.dp = (s.performWrite (.port m) q.addr q.be q.data).1.dp ∧
        (t.sh.port m).acc = none ∧ (t.sh.port m).rsp = some ⟨.ok, 0⟩ ∧ t.sh.port m.peer = s.sh.port m.peer) ∧
    (fldValue q.addr = true → (s.sh.link.slot m.peer).dp = none → s.sh.seq.todo = [] →
      ∃ t, exec (.linkResponse m err) s = .next t ∧ t.dp = s.dp ∧ t.sh.regs = s.sh.regs ∧
        (t.sh.port m).acc = none ∧ (t.sh.port m).rsp = some ⟨.ok, 0⟩ ∧ t.sh.port m.peer = s.sh.port m.peer)) ∧
  (∀ (q : LinkReq) (err : Bool) (w : Word), q.write = false →
    rspWords q err w = [BitVec.ofNat 32 (q.master.num * 2 ^ 29 + b2n err * 2 ^ 28), w]) ∧
  (∀ (q : LinkReq) (err : Bool) (w : Word), q.write = true →
    rspWords q err w = [BitVec.ofNat 32 (2 ^ 30 + q.master.num * 2 ^ 29 + b2n err * 2 ^ 28)])

/-- O5: A request at its limit gives ERROR and the link-timeout flag (LINK_TIMEOUT). Where slot m waits for a port's
request whose response is not on its way, the limit sets LINK_TO of that port's view with the address of the
request, whether the port was reset meanwhile or not (log entry 19: the model's reading, DEDUCED, which R58, R59
and R95 do not say); an access of the port that is in flight is answered ERROR with data 0. The datapath end
gives the request up, so that neither its effect nor a later response comes, and what a write changed in the
shepherd's own value as its request was formed is taken back: no byte is written (R46; log entry 21). With no
sequence of the power sequencer running the slot then waits for nothing while its drain period runs. The 1,024
cycles themselves are outside the model (log entry 11). A request whose response is on its way meets no limit.
Rests on spec/02_block_boundary.md R58, spec/02_block_boundary.md R59, spec/02_block_boundary.md R46,
spec/03_shepherd_and_masters.md R95. -/
def Obligations.LinkTimeoutReported : Prop :=
  (∀ (s : State) (m : RPort) (q : LinkReq), (s.sh.link.slot m).sent = some q → q.loader = false → s.answered m = false →
    ∃ t, exec (.linkTimeout m) s = .next t ∧
      t.sh.view m = { s.sh.view m with linkTo := true, linkToAddr := q.addr } ∧
      t.sh.port m.peer = s.sh.port m.peer ∧ t.sh.view m.peer = s.sh.view m.peer ∧ t.pending = s.pending ∧
      (s.sh.seq.todo = [] → (t.sh.link.slot m).sent = none ∧ (t.sh.link.slot m).dp = none ∧ (t.sh.link.slot m).drain = true) ∧
      (∀ x, (s.sh.port m).acc = some x → x.stage = .inFlight →
        t.sh.port m = { s.sh.port m with acc := none, rsp := some ⟨.error, 0⟩ }) ∧
      ((s.sh.port m).acc = none → t.sh.port m = s.sh.port m) ∧
      (∀ old new, (s.sh.link.slot m).formed = some (old, new) → ownsValue q.addr = true → s.sh.ownWord q.addr = new →
        s.sh.seq.todo = [] → t.sh.ownWord q.addr = old)) ∧
  (∀ (s : State) (m : RPort), s.answered m = true → ∃ t, exec (.linkTimeout m) s = .next t ∧ t = s)

/-- O6: Drain period, abandoned request, event word (DRAIN_PERIOD_END, REQUEST_ABANDON, EVENT_WORD). A drain period
that ends frees the slot for the next request and changes nothing else. A request that the datapath end
abandons, which it does only before its response is on its way, is held there no more; the registers, the port
and the other slot stay. An event word of a unit whose domain is on brings the shepherd's copy of the unit's
cause vector to the vector in force and leaves every other copy. That the word also takes up a wake request of
that unit is the model's reading (log entries 37 and 86): R57 and R233 do not say it. Rests on
spec/02_block_boundary.md R59, spec/02_block_boundary.md R61, spec/02_block_boundary.md R57,
spec/07_receive_mac.md R233. -/
def Obligations.SlotEndsAndEventWords : Prop :=
  (∀ (s : State) (m : RPort), ∃ t, exec (.drainPeriodEnd m) s = .next t ∧
    t = s.onSh (fun h => { h with link := h.link.setSlot m { h.link.slot m with drain := false } }) ∧
    (t.sh.link.slot m).drain = false) ∧
  (∀ (s : State) (m : RPort), s.answered m = false → ∃ t, exec (.requestAbandon m) s = .next t ∧
    t.sh = { s.sh with link := s.sh.link.setSlot m { s.sh.link.slot m with dp := none } } ∧
    (t.sh.link.slot m).dp = none ∧ t.dp.regs = s.dp.regs ∧ t.pending = s.pending) ∧
  (∀ (s : State) (m : RPort), s.answered m = true → ∃ t, exec (.requestAbandon m) s = .next t ∧ t = s) ∧
  (∀ (s : State) (u : Nat), s.sh.unitSends u = true → s.watching = false →
    ∃ t, exec (.eventWord u) s = .next t ∧ t.dp = { s.dp with wakeReq := s.dp.wakeReq.filter (· ≠ u) } ∧
      Tab.get t.sh.cause u 0 = s.dp.causeOf u ∧
      (∀ v, v ≠ u → Tab.get t.sh.cause v 0 = Tab.get s.sh.cause v 0) ∧ t.sh.regs = s.sh.regs ∧ t.sh.seq = s.sh.seq)

/-- O7: What the fall and the release of a register-port reset do (RGP_RESET_ASSERT, RGP_RESET_RELEASE). The fall:
the outstanding access of the port ends without a response; its request that has not been sent is discarded; the
SHP state (views, epochs, semaphores, mailboxes, expert unlocks) and the other port stay until the release, and
so do the registers and the datapath. The release: a valid pulse that overlaps no block reset adds, once clk_shf
runs, 1 to the port's epoch modulo 16, disarms the port, clears its flags, orphan and fault bits, masks its
doorbells and clears its interrupt enables and routes; it frees every semaphore that the port holds, sets the
peer's orphan bit of each and the peer's PEER_RESET. SHP_EXPERT, the mailboxes, the pending doorbells stay; of
the datapath only the shadows of that port for the tallies and for the counters are cleared. While clk_shf is
stopped a valid pulse waits and changes none of it. A pulse that is not valid changes none of the SHP state and
nothing of the datapath. Rests on spec/02_block_boundary.md R48, spec/03_shepherd_and_masters.md R86,
spec/03_shepherd_and_masters.md R94, spec/03_shepherd_and_masters.md R101, spec/03_shepherd_and_masters.md R107,
spec/03_shepherd_and_masters.md R114, spec/05_start_up_and_reset.md R164, spec/20_tallies.md R575,
spec/21_performance_monitor.md R594. -/
def Obligations.RegisterPortResets : Prop :=
  (∀ (s : State) (m : RPort), (s.sh.port m).rstN = true →
    ∃ t, exec (.rgpResetAssert m) s = .next t ∧ t.dp = s.dp ∧ t.pending = s.pending ∧
      (t.sh.port m).rstN = false ∧ (t.sh.port m).acc = none ∧ (t.sh.port m).rsp = (s.sh.port m).rsp ∧
      t.sh.port m.peer = s.sh.port m.peer ∧ t.sh.view m = s.sh.view m ∧ t.sh.view m.peer = s.sh.view m.peer ∧
      t.sh.sem = s.sh.sem ∧ t.sh.mboxAB = s.sh.mboxAB ∧ t.sh.mboxBA = s.sh.mboxBA ∧ t.sh.expert = s.sh.expert ∧
      t.sh.token = s.sh.token ∧ t.sh.regs = s.sh.regs ∧
      (∀ r, r ∈ t.sh.link.fifo ↔ r ∈ s.sh.link.fifo ∧ (r.loader = true ∨ r.master ≠ m))) ∧
  (∀ (s : State) (m : RPort), (s.sh.port m).rstN = false → (s.sh.port m).overlap = false → s.sh.blkN = true →
    (s.sh.clk 2).ack = true → (s.sh.port m).pulses = 0 →
    ∃ t, exec (.rgpResetRelease m true) s = .next t ∧
      t.dp = { s.dp with
        tallyShadow := s.dp.tallyShadow.filter (fun e => !decide (e.1 / 40 = m.num))
        pmn := { s.dp.pmn with shadow := s.dp.pmn.shadow.filter (fun e => !decide (e.1 = m.num)) } } ∧
      (t.sh.port m).rstN = true ∧
      t.sh.view m = { s.sh.view m with
        epoch := ((s.sh.view m).epoch + 1) % 16, armed := false, linkTo := false, peerReset := false, linkToAddr := 0
        orphan := 0, fault := 0, dbMask := 0xFFFFFFFF, intEn := [], intRoute := [] } ∧
      t.sh.view m.peer = { s.sh.view m.peer with
        peerReset := true, orphan := (s.sh.view m.peer).orphan ||| s.sh.held m } ∧
      t.sh.sem = s.sh.sem.map (fun x => if x = some m then none else x) ∧
      t.sh.expert = s.sh.expert ∧ t.sh.mboxAB = s.sh.mboxAB ∧ t.sh.mboxBA = s.sh.mboxBA ∧ t.sh.token = s.sh.token) ∧
  (∀ (s : State) (m : RPort), (s.sh.port m).rstN = false → (s.sh.port m).overlap = false → s.sh.blkN = true →
    (s.sh.clk 2).ack = false →
    ∃ t, exec (.rgpResetRelease m true) s = .next t ∧ t.dp = s.dp ∧ (t.sh.port m).rstN = true ∧
      (t.sh.port m).pulses = (s.sh.port m).pulses + 1 ∧ t.sh.view m = s.sh.view m ∧ t.sh.view m.peer = s.sh.view m.peer ∧
      t.sh.sem = s.sh.sem) ∧
  (∀ (s : State) (m : RPort), (s.sh.port m).rstN = false → (s.sh.port m).pulses = 0 →
    ∃ t, exec (.rgpResetRelease m false) s = .next t ∧ t.dp = s.dp ∧ (t.sh.port m).rstN = true ∧
      t.sh.view m = s.sh.view m ∧ t.sh.view m.peer = s.sh.view m.peer ∧ t.sh.sem = s.sh.sem ∧
      t.sh.expert = s.sh.expert ∧ t.sh.mboxAB = s.sh.mboxAB ∧ t.sh.mboxBA = s.sh.mboxBA)

/-- O8: What one tick of an empty queue does, and what it leaves. That an empty queue lets one clk_shf period of 2.5
ns pass is the model's choice (log entry 10). Where clk_shf runs and PD18 is on, every time base advances by INC
with its carry into NS and SEC; where PD17 is on, every class and port shaper with a RATE gains RATE up to
BURST, as do the caps of the client and loop ports, and the written rates come into force. The sleep tally
counts the clk_aon edge of the eighth tick while it runs. Where clk_core runs, 5 clocks of 2.0 GHz or 7 of 1.4
GHz in two ticks (the model's reckoning, log entry 10): on PD19 the cycle counter adds them while RUN is 1 and
each context has that many clocks less to do; on PD15 every XOFF state is evaluated, and its change on an UP
port with a mode makes a control frame pending. Where clk_srp runs and PD9 is on, each store-room port's tick
counter counts. What was noted of the ended clock is gone, but for what this tick notes of the monitor's
counters (the model's own notes, log entry 84). Nothing else changes, but that a step of the power sequencer
which waits to be taken up is then taken up. Rests on spec/16_time_bases.md R481, spec/12_drover_and_gates.md
R372, spec/12_drover_and_gates.md R374, spec/22_power.md R619, spec/21_performance_monitor.md R581,
spec/11_cellar_and_lofts.md R350, spec/13_transmit_mac.md R407, spec/15_store_room_ports.md R471,
spec/18_check_value_units.md R546, spec/02_block_boundary.md R33. -/
def Obligations.EmptyQueueTick : Prop :=
  ∀ s : State, s.pending = [] →
    ∃ u : State, (s.sh.seq.kind ≠ .none → s.sh.seq.started = false → s.sh.seq.todo ≠ [] → step s = .next u.seqKick) ∧
      (s.sh.seq.kind = .none ∨ s.sh.seq.started = true ∨ s.sh.seq.todo = [] → step s = .next u) ∧
      u.pending = [] ∧ u.freeSeed = s.freeSeed ∧
      u.sh = { s.sh with
        tick := s.sh.tick + 1
        sleepN := if s.sh.sleepRun = true ∧ s.sh.tick % 8 = 7 then (s.sh.sleepN + 1) % 2 ^ 64 else s.sh.sleepN } ∧
      { u.dp with
        together := s.dp.together, regs := s.dp.regs, tx := s.dp.tx, pmn := s.dp.pmn, stp := s.dp.stp, drv := s.dp.drv
        tim := { u.dp.tim with bases := s.dp.tim.bases }, cvu := { u.dp.cvu with owed := s.dp.cvu.owed } } = s.dp ∧
      (∀ e, e ∈ u.dp.together → e.1 = .pmnEvt) ∧
      { u.dp.drv with
        ratePort := s.dp.drv.ratePort, rateClass := s.dp.drv.rateClass, tokPort := s.dp.drv.tokPort
        tokClass := s.dp.drv.tokClass, tokCap := s.dp.drv.tokCap } = s.dp.drv ∧
      (∀ a r i j, Reg.ofAddr a = some (r, i, j) → r ≠ .celFcStat → r ≠ .pmnEvt →
        Tab.find u.dp.regs a = Tab.find s.dp.regs a) ∧
      ((s.sh.clk 2).ack = true → (s.sh.dom 18).iso = false →
        ∀ (b inc f n : Nat), b < 8 → b < s.dp.tim.bases.length →
          inc = ((0x280000000 : Int) + signed 32 (s.dp.rd F.timRate_RATE b)).toNat → f = (s.dp.tb b).frac + inc →
          n = (s.dp.tb b).ns + f / 2 ^ 32 →
          u.dp.tb b = { s.dp.tb b with
            since := (s.dp.tb b).since + 1
            frac := f % 2 ^ 32
            ns := if 1000000000 ≤ n then n - 1000000000 else n
            sec := if 1000000000 ≤ n then ((s.dp.tb b).sec + 1) % 2 ^ 48 else (s.dp.tb b).sec }) ∧
      ((s.sh.clk 2).ack = false ∨ (s.sh.dom 18).iso = true → u.dp.tim = s.dp.tim) ∧
      ((s.sh.clk 2).ack = true → (s.sh.dom 17).iso = false → Tab.rising s.dp.regs = true →
        (∀ m, m < 4160 → u.dp.rateClass m = s.dp.rd F.drvClassRate_RATE m ∧
          Tab.get u.dp.drv.tokClass m 0 = (if s.dp.rd F.drvClassRate_RATE m = 0 then Tab.get s.dp.drv.tokClass m 0 else
            min (Tab.get s.dp.drv.tokClass m 0 + s.dp.rd F.drvClassRate_RATE m) (s.dp.rd F.drvClassBurst_BURST m * 2 ^ 20))) ∧
        (∀ p, p < 520 → u.dp.ratePort p = s.dp.rd F.drvPortRate_RATE p ∧
          Tab.get u.dp.drv.tokPort p 0 = (if s.dp.rd F.drvPortRate_RATE p = 0 then Tab.get s.dp.drv.tokPort p 0 else
            min (Tab.get s.dp.drv.tokPort p 0 + s.dp.rd F.drvPortRate_RATE p) (s.dp.rd F.drvPortBurst_BURST p * 2 ^ 20))) ∧
        (∀ p, 512 ≤ p → p < 520 → Tab.get u.dp.drv.tokCap p 0 = (if s.dp.capRate p = 0 then Tab.get s.dp.drv.tokCap p 0 else
          min (Tab.get s.dp.drv.tokCap p 0 + s.dp.capRate p) (2 ^ 34)))) ∧
      ((s.sh.clk 2).ack = false ∨ (s.sh.dom 17).iso = true → u.dp.drv = s.dp.drv) ∧
      (∀ n, n = (if s.sh.selCore then 3 + s.sh.tick % 2 else 5) → (s.sh.clk 0).ack = true → (s.sh.dom 19).iso = false →
        (s.dp.flag F.pmnCtl_RUN = true →
          Tab.get u.dp.pmn.cnt 8 0 = (Tab.get s.dp.pmn.cnt 8 0 + n) % 2 ^ 48 ∧
          (2 ^ 48 ≤ Tab.get s.dp.pmn.cnt 8 0 + n → Tab.get u.dp.pmn.wrap 8 false = true)) ∧
        (s.dp.flag F.pmnCtl_RUN = false → u.dp.pmn.cnt = s.dp.pmn.cnt ∧ u.dp.pmn.wrap = s.dp.pmn.wrap) ∧
        ∀ c, c < 16 → Tab.get u.dp.cvu.owed c 0 = Tab.get s.dp.cvu.owed c 0 - n) ∧
      ((s.sh.clk 0).ack = false ∨ (s.sh.dom 19).iso = true → u.dp.pmn = s.dp.pmn ∧ u.dp.cvu = s.dp.cvu ∧
        u.dp.rd F.pmnEvt_WRAP = s.dp.rd F.pmnEvt_WRAP ∧ u.dp.rd F.pmnEvt_HALF = s.dp.rd F.pmnEvt_HALF) ∧
      ((s.sh.clk 0).ack = true → (s.sh.dom 15).iso = false →
        ∀ (p c : Nat) (r : List Byte) (off on : Nat), p < 512 → c < 8 → Tab.find s.dp.portMode p = some r →
          off = s.dp.rd F.celPortCfg_XOFF p → on = min (s.dp.rd F.celPortCfg_XON p) (off - 1) →
          u.dp.rdBit F.celFcStat_XOFF c p =
            (decide (4 * off ≤ s.dp.igUse p c) ||
              (s.dp.rdBit F.celFcStat_XOFF c p && !decide (s.dp.igUse p c ≤ 4 * on ∧ s.dp.igHr p c = 0))) ∧
          (u.dp.rdBit F.celFcStat_XOFF c p ≠ s.dp.rdBit F.celFcStat_XOFF c p → s.dp.fcMode p ≠ 0 →
            s.dp.linkState p = LS.up → (u.dp.txPort p).ctrlPend = true)) ∧
      (∀ p, { u.dp.txPort p with ctrlPend := (s.dp.txPort p).ctrlPend } = s.dp.txPort p ∧
        ((s.dp.txPort p).ctrlPend = true → (u.dp.txPort p).ctrlPend = true)) ∧
      ((s.sh.clk 0).ack = false ∨ (s.sh.dom 15).iso = true → u.dp.tx = s.dp.tx ∧
        ∀ p, p < 520 → RegFile.word u.dp.regs .celFcStat p 0 = RegFile.word s.dp.regs .celFcStat p 0) ∧
      ((s.sh.clk 1).ack = true → (s.sh.dom 9).iso = false →
        ∀ k t v, k < 6 → t = 2 ^ min (s.dp.rd F.stpCfg_TICK_LOG2) 10 → v = min (s.dp.srp k).sub (t - 1) + 5 →
          (s.dp.srp k).tick < 4096 →
          { u.dp.srp k with sub := (s.dp.srp k).sub, tick := (s.dp.srp k).tick, stamps := (s.dp.srp k).stamps } = s.dp.srp k ∧
          (u.dp.srp k).sub = v % t ∧ (u.dp.srp k).tick = ((s.dp.srp k).tick + v / t) % 4096 ∧
          (u.dp.srp k).stamps.map (·.1) = (s.dp.srp k).stamps.map (·.1)) ∧
      ((s.sh.clk 1).ack = false ∨ (s.sh.dom 9).iso = true → u.dp.stp = s.dp.stp)

/-- O9: A semaphore read acquires a free semaphore (SEMAPHORE_READ). A read of SHP_SEM_n by one port that is open
(out of reset, clk_shf running, rst_blk_n high) makes that port the holder if the semaphore is free and leaves
the holder otherwise; a port whose access stands at the core is answered 1 (GOT) if it was free, 3 if the port
itself holds it, 2 if the other does. A port that is not open reads nothing. When both ports read a free
semaphore in the same cycle, the port that the token names holds it afterwards, and the token passes. No other
semaphore, no register and nothing of the datapath changes. Rests on spec/03_shepherd_and_masters.md R103,
spec/03_shepherd_and_masters.md R104, spec/03_shepherd_and_masters.md R87. -/
def Obligations.SemaphoreReadAcquires : Prop :=
  (∀ (s : State) (m : RPort) (n : Nat), n < s.sh.sem.length → s.portOpen m = true →
    ∃ t, exec (.semaphoreRead (some m) n) s = .next t ∧ t.dp = s.dp ∧ t.sh.regs = s.sh.regs ∧ t.sh.token = s.sh.token ∧
      t.sh.sem.getD n none = (if s.sh.sem.getD n none = none then some m else s.sh.sem.getD n none) ∧
      (∀ k, k ≠ n → t.sh.sem.getD k none = s.sh.sem.getD k none) ∧
      (s.sh.atCore m false (Reg.shpSem.addr n 0) = true →
        (t.sh.port m).acc = none ∧
        (t.sh.port m).rsp = some ⟨.ok, if s.sh.sem.getD n none = none then 1 else if s.sh.sem.getD n none = some m then 3 else 2⟩)) ∧
  (∀ (s : State) (m : RPort) (n : Nat), s.portOpen m = false → ∃ t, exec (.semaphoreRead (some m) n) s = .next t ∧ t = s) ∧
  (∀ (s : State) (n : Nat), n < s.sh.sem.length → s.portOpen .a = true → s.portOpen .b = true → s.sh.sem.getD n none = none →
    ∃ t, exec (.semaphoreRead none n) s = .next t ∧ t.dp = s.dp ∧
      t.sh.sem.getD n none = some s.sh.token ∧ t.sh.token = s.sh.token.peer ∧
      (∀ k, k ≠ n → t.sh.sem.getD k none = s.sh.sem.getD k none))

/-- O10: A release by the holder frees a semaphore, another port's sets its fault bit (SEMAPHORE_RELEASE). On a port
that is open, a write of RELEASE = 1 by the holder frees SHP_SEM_n. By a port that does not hold it, it leaves
every semaphore as it is and sets bit n of that port's SHP_SEM_FAULT and no other bit. A write of RELEASE = 0
changes neither. The datapath, the other port's view and the other semaphores stay. Rests on R105. -/
def Obligations.SemaphoreReleaseByHolder : Prop :=
  (∀ (s : State) (m : RPort) (n : Nat) (be : BitVec 4) (data : Word), n < s.sh.sem.length → s.sh.sem.getD n none = some m →
    s.portOpen m = true →
    ∃ t, exec (.semaphoreRelease m n be data none) s = .next t ∧ t.dp = s.dp ∧ t.sh.regs = s.sh.regs ∧
      t.sh.sem.getD n none = none ∧ (∀ k, k ≠ n → t.sh.sem.getD k none = s.sh.sem.getD k none) ∧
      (t.sh.view m).fault = (s.sh.view m).fault ∧ t.sh.view m.peer = s.sh.view m.peer) ∧
  (∀ (s : State) (m : RPort) (n : Nat) (be : BitVec 4) (data : Word), s.sh.sem.getD n none ≠ some m → s.portOpen m = true →
    ∃ t, exec (.semaphoreRelease m n be data none) s = .next t ∧ t.dp = s.dp ∧ t.sh.regs = s.sh.regs ∧
      t.sh.sem = s.sh.sem ∧ (∀ k, (t.sh.view m).fault.testBit k = ((s.sh.view m).fault.testBit k || k = n)) ∧
      t.sh.view m.peer = s.sh.view m.peer) ∧
  (∀ (h : Shepherd) (m : RPort) (n : Nat) (be : BitVec 4) (data : Word), F.shpSem_RELEASE.wo be data = 0 →
    h.semWrite m n be data = h)

/-- O11: The expert key and SHP_EXPERT (EXPERT_ARM, EXPERT_WRITE). On a port that is open, a write of SHP_EXPERT
from an armed port sets each bit of the enabled bytes as written; from a port that is not armed it clears each
enabled bit written as 0 and leaves each bit written as 1, and each bit of a byte that is not enabled keeps its
value in both. A write of SHP_EXPERT_KEY arms the port exactly if it writes the arming word with all byte
enables set. Neither write changes another register or the datapath. Rests on R100. -/
def Obligations.ExpertKeyAndUnlocks : Prop :=
  (∀ (s : State) (m : RPort) (be : BitVec 4) (data : Word) (k : Nat), k < 15 → s.portOpen m = true →
    ∃ t, exec (.expertWrite m be data none) s = .next t ∧ t.dp = s.dp ∧ t.sh.regs = s.sh.regs ∧ t.sh.sem = s.sh.sem ∧
      t.sh.token = s.sh.token ∧
      t.sh.expert.testBit k =
        (if be.getLsbD (k / 8) then
          (if s.sh.armedFor m (Reg.shpExpert.addr 0 0) then data.getLsbD k else (s.sh.expert.testBit k && data.getLsbD k))
         else s.sh.expert.testBit k)) ∧
  (∀ (s : State) (m : RPort) (be : BitVec 4) (data : Word), s.portOpen m = true →
    ∃ t, exec (.expertArm m be data) s = .next t ∧ t.dp = s.dp ∧ t.sh.regs = s.sh.regs ∧ t.sh.expert = s.sh.expert ∧
      t.sh.sem = s.sh.sem ∧ t.sh.view m = { s.sh.view m with armed := be = 0xF && data = 0x45585054 } ∧
      t.sh.view m.peer = s.sh.view m.peer)

/-- O12: A mailbox's data, post and take (MAILBOX_DATA_WRITE, MAILBOX_POST, MAILBOX_TAKE). On a port that is open: a
data write puts the enabled bytes into word i, keeps FULL and sets COLLISION where FULL is 1. A post sets FULL,
records the sender's epoch, sets COLLISION where FULL was 1, keeps the words, and raises cause bit 0 of the
receiver's source 51. A take clears FULL, clears COLLISION if it is written 1, and keeps the words. The mailbox
of the other direction, the registers and the datapath stay. Rests on spec/03_shepherd_and_masters.md R108,
spec/03_shepherd_and_masters.md R109, spec/03_shepherd_and_masters.md R110, spec/03_shepherd_and_masters.md
R116. -/
def Obligations.MailboxHandshake : Prop :=
  (∀ (s : State) (m : RPort) (i : Nat) (be : BitVec 4) (data : Word), i < (s.sh.mboxOut m).data.length → s.portOpen m = true →
    ∃ t, exec (.mailboxDataWrite m i be data) s = .next t ∧ t.dp = s.dp ∧ t.sh.regs = s.sh.regs ∧
      t.sh.mboxOut m.peer = s.sh.mboxOut m.peer ∧
      (t.sh.mboxOut m).data.getD i 0 = mergeBytes be data ((s.sh.mboxOut m).data.getD i 0) ∧
      (∀ k, k ≠ i → (t.sh.mboxOut m).data.getD k 0 = (s.sh.mboxOut m).data.getD k 0) ∧
      (t.sh.mboxOut m).full = (s.sh.mboxOut m).full ∧ (t.sh.mboxOut m).epoch = (s.sh.mboxOut m).epoch ∧
      (t.sh.mboxOut m).collision = ((s.sh.mboxOut m).collision || (s.sh.mboxOut m).full)) ∧
  (∀ (s : State) (m : RPort), s.portOpen m = true →
    ∃ t, exec (.mailboxPost m) s = .next t ∧ t.dp = s.dp ∧ t.sh.regs = s.sh.regs ∧
      t.sh.mboxOut m.peer = s.sh.mboxOut m.peer ∧
      t.sh.mboxOut m = { s.sh.mboxOut m with
        full := true, epoch := (s.sh.view m).epoch, collision := (s.sh.mboxOut m).collision || (s.sh.mboxOut m).full } ∧
      (t.sh.causes m.peer 51).testBit 0 = true) ∧
  (∀ (s : State) (m : RPort) (be : BitVec 4) (data : Word), s.portOpen m = true →
    ∃ t, exec (.mailboxTake m be data) s = .next t ∧ t.dp = s.dp ∧ t.sh.regs = s.sh.regs ∧
      t.sh.mboxOut m = s.sh.mboxOut m ∧ (t.sh.mboxOut m.peer).full = false ∧
      (t.sh.mboxOut m.peer).data = (s.sh.mboxOut m.peer).data ∧
      (data.getLsbD 9 = true → (t.sh.mboxOut m.peer).collision = false) ∧
      (data.getLsbD 9 = false → (t.sh.mboxOut m.peer).collision = (s.sh.mboxOut m.peer).collision))

/-- O13: A doorbell write sets bits of the peer's SHP_DB_IN (DOORBELL_RING). On a port that is open, a write of
SHP_DB_OUT sets each bit written as 1 in an enabled byte of the peer's SHP_DB_IN and clears none; reading
SHP_DB_OUT returns the peer's SHP_DB_IN; the receiver clears bits by writing 1, and a ring after a clear of the
same cycle leaves the bit 1. Nothing else of the peer's view changes, nor the datapath. Rests on R112. -/
def Obligations.DoorbellSetsPeerBits : Prop :=
  (∀ (s : State) (m : RPort) (be : BitVec 4) (data : Word), s.portOpen m = true →
    ∃ t, exec (.doorbellRing m be data) s = .next t ∧ t.dp = s.dp ∧ t.sh.regs = s.sh.regs ∧ t.sh.sem = s.sh.sem ∧
      t.sh.view m.peer = { s.sh.view m.peer with dbIn := (t.sh.view m.peer).dbIn } ∧
      (∀ k, k < 32 → (t.sh.view m.peer).dbIn.testBit k =
        ((s.sh.view m.peer).dbIn.testBit k || (be.getLsbD (k / 8) && data.getLsbD k))) ∧
      t.sh.shpWord m .shpDbOut 0 = BitVec.ofNat 32 (t.sh.view m.peer).dbIn ∧
      t.sh.shpWord m.peer .shpDbIn 0 = BitVec.ofNat 32 (t.sh.view m.peer).dbIn) ∧
  (∀ (s : State) (m : RPort) (be : BitVec 4) (data : Word) (k : Nat), k < 32 →
    ((s.coreEffect m false .shpDbIn 0 be data).sh.view m).dbIn.testBit k =
      ((s.sh.view m).dbIn.testBit k && !(be.getLsbD (k / 8) && data.getLsbD k))) ∧
  (∀ (s : State) (m : RPort) (be be' : BitVec 4) (data data' : Word) (k : Nat), k < 32 → be.getLsbD (k / 8) = true →
    data.getLsbD k = true → s.portOpen m = true →
    ∃ t, exec (.doorbellRing m be data) (s.coreEffect m.peer false .shpDbIn 0 be' data') = .next t ∧
      (t.sh.view m.peer).dbIn.testBit k = true)

/-- O14: What a write and a read do to each bit of a register, by access code. For every register of the Register
index and every bit k: a bit of an enabled byte takes the written value in an RW field, is cleared by a 1 in a
W1C field and set by a 1 in a W1S field; a bit of an RO, WO or RC field, a reserved bit, a bit of a byte that is
not enabled, and a bit of an E field while its unit is locked keep their value. A read returns 0 for WO fields
and reserved bits, and clears the bits of RC fields and no others. Rests on spec/00_scope.md R7,
spec/00_scope.md R10, spec/00_scope.md R11, spec/00_scope.md R13. -/
def Obligations.FieldsFollowAccessCodes : Prop :=
  (∀ (r : Reg) (unl : Bool) (be : BitVec 4) (data old : Word) (f : FieldSpec) (k : Nat), f ∈ r.fields → f.lo ≤ k → k ≤ f.hi →
    (r.writeWord unl be data old).getLsbD k =
      (if be.getLsbD (k / 8) = false ∨ (f.expert = true ∧ unl = false) then old.getLsbD k
       else match f.acc with
         | .rw => data.getLsbD k
         | .w1c => old.getLsbD k && !data.getLsbD k
         | .w1s => old.getLsbD k || data.getLsbD k
         | .ro => old.getLsbD k
         | .wo => old.getLsbD k
         | .rc => old.getLsbD k) ∧
    (r.readWord old).getLsbD k = (if f.acc = .wo then false else old.getLsbD k) ∧
    (r.afterRead old).getLsbD k = (if f.acc = .rc then false else old.getLsbD k)) ∧
  (∀ (r : Reg) (unl : Bool) (be : BitVec 4) (data old : Word) (k : Nat), k < 32 →
    (∀ f, f ∈ r.fields → ¬ (f.lo ≤ k ∧ k ≤ f.hi)) →
    (r.writeWord unl be data old).getLsbD k = old.getLsbD k ∧ (r.readWord old).getLsbD k = false ∧
    (r.afterRead old).getLsbD k = old.getLsbD k)

/-- O15: A write of a register without a row of its own (REGISTER_WRITE), and what the interrupt tree shows of
causes, enables and routes. A port's write of one of the named registers of TIM, PEN, ACT, DRV, CEL and FLK,
which reaches it (the port is open, the effect due, the unit awake), puts into that register the word that the
access codes give and changes no other register word and nothing else of the datapath. A write of an open port
that does not reach the datapath register ends the port's arm and changes nothing else; a port that is not open
(in reset, clk_shf stopped, block reset) writes nothing. A write of SHP_INT_EN_n, SHP_INT_ROUTE_n or
SHP_DB_IN_MASK reaches the writing port's own instance and leaves the other port's. At every moment
SHP_INT_SRC_0 and SHP_INT_SRC_1 show source n of a master as 1 exactly if one of its cause bits is enabled,
SHP_INT_LINE and the pins int_a (master A) and int_b (master B) show line l as 1 exactly if some source at 1 is
routed to l, and int_wake is 1 exactly while PWR_WAKE_STAT and PWR_WAKE_EN share a bit. The cause vector of
source n is the one of the last event word for n up to 50, that of the master's own views for 51, the PWR_EVT
bits with the level of the quiesce window for 52, the FLD_EVT bits with BUSY's level for 53, and 0 from 54 on.
Rests on spec/00_scope.md R7, spec/00_scope.md R12, spec/00_scope.md R13, spec/01_architecture.md R17,
spec/03_shepherd_and_masters.md R91, spec/03_shepherd_and_masters.md R113, spec/03_shepherd_and_masters.md R99,
spec/03_shepherd_and_masters.md R114, spec/03_shepherd_and_masters.md R115, spec/03_shepherd_and_masters.md
R116, spec/22_power.md R606. -/
def Obligations.PlainRegisterWrite : Prop :=
  (∀ (s : State) (m : RPort) (a : Nat) (be : BitVec 4) (data : Word) (r : Reg) (i j : Nat), Reg.ofAddr a = some (r, i, j) →
    r ∈ [Reg.timRate, .timThresh, .timSetNs, .timOfs, .penRxTpid, .penTblSel, .penSortField, .actEcmp, .drvPortRate,
         .drvPortBurst, .celCfg, .flkAddr] →
    s.reaches (.port m) a true = true → s.dp.hasReg r i j = true →
    ∃ t, exec (.registerWrite m a be data none) s = .next t ∧
      RegFile.word t.dp.regs r i j = r.writeWord (s.sh.unlocked a) be data (RegFile.word s.dp.regs r i j) ∧
      (∀ b, b ≠ a → Tab.find t.dp.regs b = Tab.find s.dp.regs b) ∧ { t.dp with regs := s.dp.regs } = s.dp ∧
      t.sh.regs = s.sh.regs ∧ t.pending = s.pending) ∧
  (∀ (s : State) (m : RPort) (a : Nat) (be : BitVec 4) (data : Word), domainOf a ≠ 0 →
    s.reaches (.port m) a true = false → s.portOpen m = true →
    ∃ t, exec (.registerWrite m a be data none) s = .next t ∧ t = { s with sh := s.sh.modView m (fun v => { v with armed := false }) }) ∧
  (∀ (s : State) (m : RPort) (a : Nat) (be : BitVec 4) (data : Word), s.portOpen m = false →
    ∃ t, exec (.registerWrite m a be data none) s = .next t ∧ t = s) ∧
  (∀ (s : State) (m : RPort) (a : Nat) (be : BitVec 4) (data : Word) (i : Nat), Reg.ofAddr a = some (.shpIntEn, i, 0) →
    s.portOpen m = true →
    ∃ t, exec (.registerWrite m a be data none) s = .next t ∧ t.dp = s.dp ∧ t.sh.view m.peer = s.sh.view m.peer ∧
      Tab.get (t.sh.view m).intEn i 0 =
        (mergeBytes be data (BitVec.ofNat 32 (Tab.get (s.sh.view m).intEn i 0))).toNat % 2 ^ 16 ∧
      (∀ k, k ≠ i → Tab.get (t.sh.view m).intEn k 0 = Tab.get (s.sh.view m).intEn k 0)) ∧
  (∀ (s : State) (m : RPort) (a : Nat) (be : BitVec 4) (data : Word) (i : Nat), Reg.ofAddr a = some (.shpIntRoute, i, 0) →
    s.portOpen m = true →
    ∃ t, exec (.registerWrite m a be data none) s = .next t ∧ t.dp = s.dp ∧ t.sh.view m.peer = s.sh.view m.peer ∧
      Tab.get (t.sh.view m).intRoute i 0 =
        (mergeBytes be data (BitVec.ofNat 32 (Tab.get (s.sh.view m).intRoute i 0))).toNat % 2 ^ 4) ∧
  (∀ (s : State) (m : RPort) (a : Nat) (be : BitVec 4) (data : Word), Reg.ofAddr a = some (.shpDbInMask, 0, 0) →
    s.portOpen m = true →
    ∃ t, exec (.registerWrite m a be data none) s = .next t ∧ t.dp = s.dp ∧ t.sh.view m.peer = s.sh.view m.peer ∧
      (t.sh.view m).dbMask = (mergeBytes be data (BitVec.ofNat 32 (s.sh.view m).dbMask)).toNat % 2 ^ 32) ∧
  (∀ (s : State) (m : RPort),
    (∀ n, n < 64 → (s.sh.src m n = true ↔ s.sh.causes m n &&& Tab.get (s.sh.view m).intEn n 0 ≠ 0)) ∧
    (∀ l, l < 16 → (s.sh.line m l = true ↔ ∃ n, n < 64 ∧ s.sh.src m n = true ∧ Tab.get (s.sh.view m).intRoute n 0 = l)) ∧
    (∀ j, j < 32 → (s.coreWord m .shpIntSrc0 0).getLsbD j = s.sh.src m j ∧
      (s.coreWord m .shpIntSrc1 0).getLsbD j = s.sh.src m (32 + j) ∧
      (s.coreWord m .shpIntLine 0).getLsbD j = (decide (j < 16) && s.sh.line m j)) ∧
    (s.sh.wakeLine = true ↔ ∃ k, k < 32 ∧ (RegFile.word s.sh.regs .pwrWakeStat 0 0).getLsbD k = true ∧
      (RegFile.word s.sh.regs .pwrWakeEn 0 0).getLsbD k = true) ∧
    (∀ n, n < 51 → s.sh.causes m n = Tab.get s.sh.cause n 0) ∧ (∀ n, 54 ≤ n → s.sh.causes m n = 0) ∧
    ((s.sh.view m).dbIn < 2 ^ 32 → ∀ k, (s.sh.causes m 51).testBit k =
      (match k with
       | 0 => (s.sh.mboxOut m.peer).full
       | 1 => (s.sh.mboxOut m.peer).collision
       | 2 => !(s.sh.mboxOut m).full
       | 3 => (List.range 32).any (fun b => (s.sh.view m).dbIn.testBit b && !(s.sh.view m).dbMask.testBit b)
       | 4 => decide ((s.sh.view m).orphan ≠ 0)
       | 5 => decide ((s.sh.view m).fault ≠ 0)
       | 6 => (s.sh.view m).linkTo
       | 7 => (s.sh.view m).peerReset
       | _ => false)) ∧
    (∀ k, k < 16 → (s.sh.causes m 52).testBit k =
      (if k = 2 then decide (s.sh.seq.kind = .window) else (RegFile.word s.sh.regs .pwrEvt 0 0).getLsbD k)) ∧
    (∀ k, k < 16 → (s.sh.causes m 53).testBit k =
      (if k = 4 then decide (s.sh.fld.state ≠ .idle) else (RegFile.word s.sh.regs .fldEvt 0 0).getLsbD k)))

/-- O16: What power-on reset leaves, and that the reset state has its shape. After reset every domain is isolated,
unpowered and without retention, no clock request but clk_req_shf is 1, shl_dp_rst_n and clk_sel_core are 0,
both epochs are 0, no semaphore is held, both mailboxes are empty, no unit is unlocked, every doorbell is
masked, the register files hold their reset words, the datapath holds no frame, copy, pass, tally or memory
content, the cold start stands in its first phase with its first AVSBus frame, and the queue is empty. That
clk_req_shf has risen rests on the inputs that the model presumes (log entry 14). Rests on
spec/05_start_up_and_reset.md R154, spec/05_start_up_and_reset.md R156, spec/05_start_up_and_reset.md R163,
spec/03_shepherd_and_masters.md R114, spec/04_fold_image.md R153. -/
def Obligations.StateAfterPowerOnReset : Prop :=
  State.reset.sh.doms = List.replicate 20 ⟨false, false, true, false⟩ ∧
  State.reset.sh.clks = [⟨false, false⟩, ⟨false, false⟩, ⟨true, false⟩, ⟨false, false⟩] ∧
  State.reset.sh.dpRstN = false ∧ State.reset.sh.selCore = false ∧ State.reset.sh.viewA = {} ∧ State.reset.sh.viewB = {} ∧
  State.reset.sh.sem = List.replicate 32 none ∧ State.reset.sh.mboxAB = {} ∧ State.reset.sh.mboxBA = {} ∧
  State.reset.sh.expert = 0 ∧ State.reset.sh.token = .a ∧ State.reset.sh.regs = [] ∧ State.reset.dp = {} ∧
  State.reset.sh.seq.kind = .cold ∧ State.reset.sh.seq.phase = 10 ∧
  State.reset.sh.avsRun = some (⟨3, 0, 750⟩, true) ∧ State.reset.pending = [] ∧ State.reset.shaped = true

/-- O17: The release of rst_por_n from any state (POWER_ON_RESET_RELEASE). With rst_blk_n high, the release leaves
every shepherd register at its reset word, FLD_EXPECT and DIGEST_LOCK included, both views, mailboxes,
semaphores, expert unlocks and the link as at reset, every domain isolated and unpowered, the fold store
undefined and the datapath empty, and begins the cold start with the write of 750 mV on rail 0. The levels of
the inputs stay. Rests on spec/05_start_up_and_reset.md R154, spec/05_start_up_and_reset.md R156,
spec/05_start_up_and_reset.md R163, spec/04_fold_image.md R153, spec/03_shepherd_and_masters.md R101. -/
def Obligations.PowerOnResetStartsColdStart : Prop :=
  ∀ s : State, s.sh.blkN = true →
    ∃ t, exec .powerOnResetRelease s = .next t ∧ t.pending = s.pending ∧
      t.sh.regs = [] ∧ t.sh.viewA = {} ∧ t.sh.viewB = {} ∧ t.sh.mboxAB = {} ∧ t.sh.mboxBA = {} ∧
      t.sh.sem = List.replicate 32 none ∧ t.sh.expert = 0 ∧ t.sh.token = .a ∧ t.sh.link = {} ∧ t.sh.dpRstN = false ∧
      t.sh.selCore = false ∧ t.sh.cause = [] ∧ t.sh.fld.state = .idle ∧
      t.sh.fld.store = { cells := [], undef := [(0, 1048576, s.freeSeed)] } ∧
      (∀ d, (t.sh.dom d).pwrReq = false ∧ (t.sh.dom d).ret = false ∧ (d < s.sh.doms.length → (t.sh.dom d).iso = true) ∧
        (d < s.sh.doms.length → (t.sh.dom d).ready = (s.sh.dom d).ready)) ∧
      t.sh.portA.rstN = s.sh.portA.rstN ∧ t.sh.portB.rstN = s.sh.portB.rstN ∧ t.sh.portA.acc = none ∧ t.sh.portB.acc = none ∧
      t.sh.seq.kind = .cold ∧ t.sh.seq.phase = 10 ∧ t.sh.avsRun = some (⟨3, 0, 750⟩, true) ∧ t.sh.avsWait = none ∧
      t.dp = { sigDet := s.dp.sigDet }

/-- O18: Block reset (BLOCK_RESET_ASSERT, BLOCK_RESET_RELEASE). As rst_blk_n falls, the shepherd takes its reset
state but for the power-on-only state: DIGEST_LOCK and the eight words of FLD_EXPECT, the fold store and
clk_sel_core stay (R161 does not list clk_sel_core: that it stays is the model's inference from R39, by which it
changes only while clk_core is stopped, and R156, log entry 113); epochs, views, mailboxes, semaphores, unlocks
and every other register take their reset values; every domain but PD9 is isolated and keeps its power request;
no access is outstanding, those in flight ending without a response (log entry 18: the model's reading,
DEDUCED); the datapath holds no frame, copy or pass. As rst_blk_n rises, PD9 is isolated too and a cold start
begins. Rests on spec/05_start_up_and_reset.md R161, spec/05_start_up_and_reset.md R162,
spec/05_start_up_and_reset.md R163, spec/03_shepherd_and_masters.md R94, spec/04_fold_image.md R153,
spec/02_block_boundary.md R39, spec/05_start_up_and_reset.md R156. -/
def Obligations.BlockResetKeepsPowerOnOnly : Prop :=
  (∀ s : State, s.sh.blkN = true →
    ∃ t, exec .blockResetAssert s = .next t ∧ t.pending = s.pending ∧ t.sh.blkN = false ∧
      t.sh.rd F.fldCtl_DIGEST_LOCK = s.sh.rd F.fldCtl_DIGEST_LOCK ∧
      (∀ i, i < 8 → t.sh.rd F.fldExpect_H i = s.sh.rd F.fldExpect_H i) ∧ t.sh.fld.store = s.sh.fld.store ∧
      t.sh.rd F.fldStat_IN_FORCE = 0 ∧ t.sh.rd F.fldStat_STORED_OK = 0 ∧ t.sh.rd F.pwrWakeTimer_MS = 0 ∧
      t.sh.selCore = s.sh.selCore ∧ t.sh.viewA = {} ∧ t.sh.viewB = {} ∧ t.sh.mboxAB = {} ∧ t.sh.mboxBA = {} ∧
      t.sh.sem = List.replicate 32 none ∧ t.sh.expert = 0 ∧ t.sh.portA.acc = none ∧ t.sh.portB.acc = none ∧
      t.sh.dpRstN = false ∧
      (∀ d, 1 ≤ d → d < 20 → (t.sh.dom d).pwrReq = (s.sh.dom d).pwrReq ∧ (t.sh.dom d).ret = false ∧
        (t.sh.dom d).iso = (if d = 9 then (s.sh.dom 9).iso else true)) ∧
      t.dp.frames = [] ∧ t.dp.passes = [] ∧ t.dp.copies = [] ∧ t.dp.cel.cells = []) ∧
  (∀ s : State, s.sh.blkN = false → 9 < s.sh.doms.length → s.sh.avsRun = none →
    ∃ t, exec .blockResetRelease s = .next t ∧ t.pending = s.pending ∧ t.sh.blkN = true ∧ (t.sh.dom 9).iso = true ∧
      t.sh.seq.kind = .cold ∧ t.sh.seq.phase = 10 ∧ t.sh.avsRun = some (⟨3, 0, 750⟩, true) ∧ t.dp = s.dp)

/-- O19: AVSBus frames and their ends (AVS_FRAME_END, AVS_ACK_TIMEOUT, SETTLE_EXPIRE). A master's frame that ends
sets DONE, ERR says whether its code was not Good, a read that was acknowledged returns its word in DATA, and
any other code sets AVS_ERR. A master's frame at its limit sets AVS_TIMEOUT, DONE and ERR and keeps DATA (the
model's reading of DATA, log entry 25). A good frame of the sequencer's makes it go on to the settle time, and
the end of the settle time of a cold start raises the four clock requests where their acknowledges are 0. Rests
on spec/22_power.md R611, spec/22_power.md R618, spec/22_power.md R607, spec/05_start_up_and_reset.md R156. -/
def Obligations.AvsFramesReported : Prop :=
  (∀ (s : State) (f : AvsFrame) (good : Bool) (data : Nat), s.sh.avsRun = some (f, false) →
    ∃ t, exec (.avsFrameEnd good data) s = .next t ∧ t.pending = s.pending ∧
      t.sh.rd F.pwrAvsResult_DONE = 1 ∧ t.sh.rd F.pwrAvsResult_ERR = b2n (!good) ∧
      t.sh.rd F.pwrAvsResult_DATA = (if good = true ∧ f.op ≠ 3 then data % 65536 else s.sh.rd F.pwrAvsResult_DATA) ∧
      (good = false → t.sh.rd F.pwrEvt_AVS_ERR = 1)) ∧
  (∀ (s : State) (f : AvsFrame), s.sh.avsRun = some (f, false) →
    ∃ t, exec .avsAckTimeout s = .next t ∧ t.pending = s.pending ∧ t.sh.rd F.pwrAvsResult_DONE = 1 ∧
      t.sh.rd F.pwrAvsResult_ERR = 1 ∧ t.sh.rd F.pwrAvsResult_DATA = s.sh.rd F.pwrAvsResult_DATA ∧
      t.sh.rd F.pwrEvt_AVS_TIMEOUT = 1) ∧
  (∀ (s : State) (f : AvsFrame) (data rail mv : Nat) (rest : List SeqStep), s.sh.avsRun = some (f, true) →
    s.sh.seq.todo = .avs rail mv :: .settle :: rest →
    ∃ t, exec (.avsFrameEnd true data) s = .next t ∧ t.sh.seq.todo = .settle :: rest ∧ t.sh.seq.started = true ∧
      t.dp = s.dp ∧ t.sh.regs = s.sh.regs) ∧
  (∀ (s : State) (rest : List SeqStep), s.sh.seq.started = true → s.sh.selCore = false → s.sh.clks.length = 4 →
    (∀ x, x < 4 → (s.sh.clk x).ack = false) → s.sh.seq.todo = .settle :: .clkSel false :: .clkUp [0, 1, 2, 3] :: rest →
    ∃ t, exec .settleExpire s = .next t ∧ t.sh.seq.todo = .clkUp [0, 1, 2, 3] :: rest ∧ t.sh.seq.started = true ∧
      (∀ x, x < 4 → (t.sh.clk x).req = true ∧ (t.sh.clk x).ack = false) ∧ t.dp = s.dp ∧ t.sh.regs = s.sh.regs)

/-- O20: Clock acknowledges, domain readies and their limits (CLOCK_ACK_CHANGE, CLOCK_HANDSHAKE_TIMEOUT,
DOMAIN_READY_CHANGE, DOMAIN_READY_TIMEOUT). clk_ack_x takes the level of its request and no other acknowledge
changes; pdx_d_ready takes the level of its request and no other ready changes (a domain whose fault still waits
for the link aside). At the limit of an awaited acknowledge or ready, CLK_TIMEOUT or PD_TIMEOUT is set unless a
cold start runs, a cold start fails with COLD_FAIL and a wake with WAKE_FAIL. Rests on spec/02_block_boundary.md
R36, spec/02_block_boundary.md R38, spec/02_block_boundary.md R81, spec/05_start_up_and_reset.md R158,
spec/22_power.md R605, spec/22_power.md R609. -/
def Obligations.ClockAndDomainInputs : Prop :=
  (∀ (s : State) (x : Nat), x < s.sh.clks.length → (s.sh.clk x).ack ≠ (s.sh.clk x).req →
    ∃ t, exec (.clockAckChange x) s = .next t ∧ t.pending = s.pending ∧ (t.sh.clk x).ack = (s.sh.clk x).req ∧
      (∀ y, y ≠ x → (t.sh.clk y).ack = (s.sh.clk y).ack) ∧ (∀ d, (t.sh.dom d).ready = (s.sh.dom d).ready)) ∧
  (∀ (s : State) (d : Nat), d < s.sh.doms.length → (s.sh.dom d).ready ≠ (s.sh.dom d).pwrReq →
    d ∉ s.sh.seq.lost →
    ∃ t, exec (.domainReadyChange d) s = .next t ∧ t.pending = s.pending ∧ (t.sh.dom d).ready = (s.sh.dom d).pwrReq ∧
      (∀ e, e ≠ d → (t.sh.dom e).ready = (s.sh.dom e).ready) ∧ (∀ x, (t.sh.clk x).ack = (s.sh.clk x).ack)) ∧
  (∀ (s : State) (x : Nat), s.sh.awaitsClk x = true →
    ∃ t, exec (.clockHandshakeTimeout x) s = .next t ∧ t.pending = s.pending ∧
      (s.sh.seq.cold = false → t.sh.rd F.pwrEvt_CLK_TIMEOUT = 1) ∧
      (s.sh.seq.cold = true → s.sh.seq.failed = false → t.sh.rd F.pwrEvt_COLD_FAIL = 1) ∧
      (s.sh.seq.kind = .wake → s.sh.seq.failed = false → t.sh.rd F.pwrEvt_WAKE_FAIL = 1) ∧
      (∀ y, (t.sh.clk y).ack = (s.sh.clk y).ack)) ∧
  (∀ (s : State) (d : Nat), s.sh.awaitsReady d = true →
    ∃ t, exec (.domainReadyTimeout d) s = .next t ∧ t.pending = s.pending ∧
      (s.sh.seq.cold = false → t.sh.rd F.pwrEvt_PD_TIMEOUT = 1) ∧
      (s.sh.seq.cold = true → s.sh.seq.failed = false → t.sh.rd F.pwrEvt_COLD_FAIL = 1) ∧
      (s.sh.seq.kind = .wake → s.sh.seq.failed = false → t.sh.rd F.pwrEvt_WAKE_FAIL = 1) ∧
      (∀ y, (t.sh.dom y).ready = (s.sh.dom y).ready))

/-- O21: Phases 4 and 5 of a start, failure and retry of a cold start (MEMORY_INIT_DONE, LOGIC_RELEASE_DELAY_EXPIRE,
ISO_LOWER_STEP, COLD_START_FAIL, COLD_START_RETRY). The end of the memory phase of a cold start leaves the
larder, the line and meter memories, the flow counters and the cellar empty and LAR_LIVE 0, and releases
shl_dp_rst_n. The logic delay is followed by the first isolation step. Each isolation step lowers one domain and
the next one waits, that of PD18 also ends the time saves and the sleep tally's count; the last one of a cold
start ends it in RUN with COLD_DONE. A failure sets COLD_FAIL, and a retry begins again with the write of 750
mV. Rests on spec/05_start_up_and_reset.md R156, spec/05_start_up_and_reset.md R157,
spec/05_start_up_and_reset.md R158, spec/05_start_up_and_reset.md R159, spec/05_start_up_and_reset.md R160,
spec/09_larder_tables.md R292, spec/16_time_bases.md R492, spec/22_power.md R619. -/
def Obligations.ColdStartPhases : Prop :=
  (∀ (s : State) (rest : List SeqStep), s.sh.seq.started = true →
    s.sh.seq.todo = .memory raiseOrder true :: .logic true :: rest →
    ∃ t, exec .memoryInitDone s = .next t ∧ t.sh.dpRstN = true ∧ t.sh.live = 0 ∧ t.sh.cseed = [] ∧
      t.sh.seq.todo = .logic true :: rest ∧ t.sh.seq.started = true ∧ t.dp.lar.buckets = [] ∧ t.dp.lines = [] ∧
      t.dp.meters = [] ∧ t.dp.flow = [] ∧ t.dp.cel.cells = [] ∧ t.dp.copies = [] ∧ t.dp.frames = [] ∧ t.dp.trg.txRecs = [] ∧
      (∀ d, (s.sh.dom d).iso = true → (t.sh.dom d).iso = true)) ∧
  (∀ (s : State) (r : Bool) (d : Nat) (rest : List SeqStep), s.sh.seq.started = true →
    s.sh.seq.todo = .logic r :: .iso d :: rest → (s.sh.dom d).iso = true → d ∉ s.sh.seq.faulted →
    ∃ t, exec .logicReleaseDelayExpire s = .next t ∧ t.sh.seq.todo = .iso d :: rest ∧ t.sh.seq.started = true ∧
      t.sh.doms = s.sh.doms ∧ t.dp = s.dp ∧ t.sh.regs = s.sh.regs) ∧
  (∀ (s : State) (d e : Nat) (rest : List SeqStep), s.sh.seq.started = true → s.sh.seq.todo = .iso d :: .iso e :: rest →
    d < s.sh.doms.length → e ≠ d → (s.sh.dom e).iso = true → e ∉ s.sh.seq.faulted → d ≠ 18 →
    ∃ t, exec .isoLowerStep s = .next t ∧ (t.sh.dom d).iso = false ∧ (∀ x, x ≠ d → t.sh.dom x = s.sh.dom x) ∧
      t.sh.seq.todo = .iso e :: rest ∧ t.dp = s.dp ∧ t.sh.regs = s.sh.regs) ∧
  (∀ (s : State) (e : Nat) (rest : List SeqStep), s.sh.seq.started = true → s.sh.seq.todo = .iso 18 :: .iso e :: rest →
    18 < s.sh.doms.length → e ≠ 18 → (s.sh.dom e).iso = true → e ∉ s.sh.seq.faulted →
    ∃ t, exec .isoLowerStep s = .next t ∧ (t.sh.dom 18).iso = false ∧ (∀ x, x ≠ 18 → t.sh.dom x = s.sh.dom x) ∧
      t.sh.seq.todo = .iso e :: rest ∧ t.sh.saves = [] ∧ t.sh.sleepRun = false ∧ t.sh.regs = s.sh.regs) ∧
  (∀ (s : State) (d : Nat), s.sh.seq.started = true → s.sh.seq.todo = [.iso d] → s.sh.seq.kind = .cold →
    s.sh.seq.failed = false → d < s.sh.doms.length →
    ∃ t, exec .isoLowerStep s = .next t ∧ t.sh.seq.state = .run ∧ t.sh.rd F.pwrEvt_COLD_DONE = 1 ∧
      (t.sh.dom d).iso = false ∧ (s.sh.seq.cruiseExit = false → t.sh.seq.kind = .none ∧ t.sh.seq.phase = 0)) ∧
  (∀ s : State, s.sh.seq.cold = true → s.sh.attemptWaits = true →
    ∃ t, exec .coldStartFail s = .next t ∧ t.pending = s.pending ∧ t.sh.rd F.pwrEvt_COLD_FAIL = 1 ∧
      (∀ d, (s.sh.dom d).iso = true → (t.sh.dom d).iso = true)) ∧
  (∀ (s : State) (rest : List SeqStep), s.sh.seq.cold = true → s.sh.seq.started = true → s.sh.seq.todo = .retry :: rest →
    s.sh.avsRun = none →
    ∃ t, exec .coldStartRetry s = .next t ∧ t.sh.seq.kind = s.sh.seq.kind ∧ t.sh.seq.phase = 10 ∧
      t.sh.seq.failed = false ∧ t.sh.seq.attempt = s.sh.seq.attempt ∧ t.sh.avsRun = some (⟨3, 0, 750⟩, true) ∧ t.dp = s.dp)

/-- O22: What a write of PWR_WAIT does (POWER_WAIT). Of a port that is open: a write without all byte enables or of
another word than WAIT, one while the sequencer is not idle, or one with TARGET 6 or 7 sets WAIT_REFUSED and
starts nothing. CRUISE = 1 with CRUISE_OK = 0 sets CRUISE_REFUSED and starts nothing. From RUN or TRIM to a
sleep state, the target, the cruise point and the writing port are latched and the veto window opens, or QUIESCE
begins where PWR_VETO_WINDOW is 0. A move between RUN and TRIM at the same cruise point is done at once and sets
ENTERED. The order of the refusals is the model's (log entry 30). Rests on spec/22_power.md R601,
spec/22_power.md R602, spec/22_power.md R606, spec/22_power.md R612, spec/22_power.md R618. -/
def Obligations.PowerWaitDecides : Prop :=
  (∀ (s : State) (m : RPort) (be : BitVec 4) (data : Word), s.portOpen m = true →
    be ≠ 0xF ∨ data ≠ 0x57414954 ∨ s.sh.seq.kind ≠ .none ∨ PState.ofCode (s.sh.rd F.pwrMode_TARGET) = none →
    ∃ t, exec (.powerWait m be data none) s = .next t ∧ t.dp = s.dp ∧ t.sh.seq = s.sh.seq ∧ t.sh.doms = s.sh.doms ∧
      t.sh.clks = s.sh.clks ∧ t.sh.rd F.pwrEvt_WAIT_REFUSED = 1) ∧
  (∀ (s : State) (m : RPort) (p : PState), s.portOpen m = true → s.sh.seq.kind = .none → s.sh.seq.stopped = false →
    PState.ofCode (s.sh.rd F.pwrMode_TARGET) = some p → s.sh.flag F.pwrMode_CRUISE = true →
    s.sh.flag F.fldStat_CRUISE_OK = false →
    ∃ t, exec (.powerWait m 0xF 0x57414954 none) s = .next t ∧ t.dp = s.dp ∧ t.sh.seq = s.sh.seq ∧
      t.sh.rd F.pwrEvt_CRUISE_REFUSED = 1) ∧
  (∀ (s : State) (m : RPort) (p : PState), s.portOpen m = true → s.sh.seq.kind = .none → s.sh.seq.stopped = false →
    PState.ofCode (s.sh.rd F.pwrMode_TARGET) = some p → s.sh.flag F.pwrMode_CRUISE = false → s.sh.seq.state.asleep = false →
    p.asleep = true → (p = .watch → s.sentinelsOk = true) →
    ∃ t, exec (.powerWait m 0xF 0x57414954 none) s = .next t ∧ t.dp = s.dp ∧ t.sh.regs = s.sh.regs ∧
      t.sh.seq = { s.sh.seq with
        latched := p, latchedCruise := false, waiter := m, blocked := none, ret := s.sh.seq.state, retCruise := false
        kind := if s.sh.rd F.pwrVetoWindow_US = 0 then .quiesce else .window
        phase := if s.sh.rd F.pwrVetoWindow_US = 0 then 2 else 1
        todo := if s.sh.rd F.pwrVetoWindow_US = 0 then [] else s.sh.seq.todo
        started := if s.sh.rd F.pwrVetoWindow_US = 0 then false else s.sh.seq.started }) ∧
  (∀ (s : State) (m : RPort) (p : PState), s.portOpen m = true → s.sh.seq.kind = .none → s.sh.seq.stopped = false →
    PState.ofCode (s.sh.rd F.pwrMode_TARGET) = some p → s.sh.flag F.pwrMode_CRUISE = false → s.sh.seq.state.asleep = false →
    p.asleep = false → p ≠ s.sh.seq.state → s.sh.seq.cruiseOn = false → s.sh.seq.cruiseExit = false →
    ∃ t, exec (.powerWait m 0xF 0x57414954 none) s = .next t ∧ t.sh.seq.state = p ∧ t.sh.seq.kind = .none ∧
      t.sh.rd F.pwrEvt_ENTERED = 1 ∧ t.dp.gated = [] ∧ { t.dp with gated := s.dp.gated } = s.dp)

/-- O23: Veto, QUIESCE and the begin of DOWN (VETO, VETO_WINDOW_EXPIRE, QUIESCE_CLEAR, QUIESCE_TIMEOUT). A veto of
an open port in the window ends the entry in the state that stood and sets VETOED; outside the window it does
nothing. The end of the window begins QUIESCE. When no condition blocks, DOWN begins: for DOZE the core, srp and
lane clock requests fall; for HIBERNATE the first domain, PD1, is isolated and its request lowered, without
retention since PD1 retains nothing. At the QUIESCE limit the sequencer ends in the state that stood,
QUIESCE_FAIL is set and PWR_BLOCK keeps every condition of R603 that holds, whatever domains the move concerns
(log entry 33: the model's reading, DEDUCED); it is then idle unless an exit from the cruise point waits behind
an entry, which begins at once (log entry 32, the model's reading of R613). Rests on spec/22_power.md R602,
spec/22_power.md R603, spec/22_power.md R605, spec/22_power.md R612, spec/22_power.md R618,
spec/02_block_boundary.md R82, spec/22_power.md R613. -/
def Obligations.EntryPhases : Prop :=
  (∀ (s : State) (m : RPort) (be : BitVec 4) (data : Word), s.portOpen m = true →
    s.sh.seq.kind = .window → s.sh.seq.cruiseExit = false →
    ∃ t, exec (.veto m be data none) s = .next t ∧ t.dp = s.dp ∧ t.sh.seq.kind = .none ∧ t.sh.seq.phase = 0 ∧
      t.sh.seq.state = s.sh.seq.state ∧ t.sh.rd F.pwrEvt_VETOED = 1) ∧
  (∀ (s : State) (m : RPort) (be : BitVec 4) (data : Word), s.sh.seq.kind ≠ .window →
    ∃ t, exec (.veto m be data none) s = .next t ∧ t.dp = s.dp ∧ t.sh.seq = s.sh.seq ∧ t.sh.regs = s.sh.regs) ∧
  (∀ s : State, s.sh.seq.kind = .window →
    ∃ t, exec .vetoWindowExpire s = .next t ∧ t.dp = s.dp ∧ t.sh.regs = s.sh.regs ∧
      t.sh.seq = { s.sh.seq with kind := .quiesce, phase := 2, todo := [], started := false }) ∧
  (∀ s : State, s.sh.seq.kind = .quiesce → s.blocking = 0 → s.sh.seq.latched = .doze → s.sh.clks.length = 4 →
    (s.sh.clk 0).ack = true →
    ∃ t, exec .quiesceClear s = .next t ∧ t.dp = s.dp ∧ t.sh.seq.kind = .entry ∧ t.sh.seq.phase = 3 ∧
      (t.sh.clk 0).req = false ∧ (t.sh.clk 1).req = false ∧ (t.sh.clk 3).req = false ∧ t.sh.clk 2 = s.sh.clk 2 ∧
      t.sh.doms = s.sh.doms) ∧
  (∀ s : State, s.sh.seq.kind = .quiesce → s.blocking = 0 → s.sh.seq.latched = .hibernate → 1 < s.sh.doms.length →
    (s.sh.dom 1).ready = true → 1 ∉ s.sh.seq.faulted → s.sh.link.busyWith 1 = false →
    ∃ t, exec .quiesceClear s = .next t ∧ t.sh.seq.kind = .entry ∧ t.sh.seq.phase = 3 ∧
      t.sh.dom 1 = ⟨false, true, true, false⟩ ∧ (∀ d, d ≠ 1 → t.sh.dom d = s.sh.dom d) ∧ t.sh.clks = s.sh.clks) ∧
  (∀ s : State, s.sh.seq.kind = .quiesce →
    ∃ t, exec .quiesceTimeout s = .next t ∧ t.dp = s.dp ∧ t.sh.seq.state = s.sh.seq.state ∧
      t.sh.seq.blocked = some s.conditions ∧ t.sh.rd F.pwrEvt_QUIESCE_FAIL = 1 ∧
      (s.sh.seq.cruiseExit = false ∨ s.sh.seq.latched.asleep = false → t.sh.seq.kind = .none ∧ t.sh.seq.phase = 0) ∧
      (s.sh.seq.cruiseExit = true → s.sh.seq.latched.asleep = true → s.sh.seq.state.asleep = false → s.sh.seq.cruiseOn = true →
        t.sh.seq.kind = .quiesce ∧ t.sh.seq.phase = 2 ∧ t.sh.seq.latched = s.sh.seq.state ∧ t.sh.seq.latchedCruise = false))

/-- O24: Wakes, their failure and retry, and domain faults (WAKE_TIMER_EXPIRE, WAKE_FAIL, WAKE_RETRY, DOMAIN_FAULT,
SLEEP_TALLY_READ). The wake timer of a block in DOZE, WATCH or HIBERNATE, if not 0 and enabled, sets its source
bit; while a sequence runs it does nothing more, and without these conditions nothing at all. With the sequencer
idle it starts the wake to the state that the entry left, at the cruise point that the entry latched if the
image in force admits it: the sequence is a wake and its first step is taken. Where rails are addressed that is
phase 1, PHASE 4, with the AVSBus write of the first of them; else phase 2, PHASE 5: clk_core is stopped where
clk_sel_core must change while it runs, and otherwise clk_sel_core stands for the wake's cruise point and every
clock whose acknowledge is 0 is requested. That a latched cruise point which the image no longer admits is
dropped, with CRUISE_REFUSED, is the model's reading of R31 and R606 (log entry 31). A limit of phases 1 to 3
that expires in an attempt sets WAKE_FAIL and the flag of the step that waits; before the third failure the
attempt is counted, and what it raised is lowered before the next retry. A retry begins the wake again: from
HIBERNATE with no rail to write, the clock requests rise. A fault of a domain of PD1 to PD18 that is on sets its
bit of PWR_PD_FAULT and DOMAIN_FAULT, raises its isolation and lowers its power request and retention, unless a
request to it is outstanding on the link (the wait is the model's reading, log entry 83), and no other domain
changes where no sequence runs; one of PD19 does so for every domain. A read of PWR_SLEEP_TALLY_LO by an open
port loads the reading port's upper half and is answered with the lower. Rests on spec/22_power.md R606,
spec/22_power.md R607, spec/22_power.md R609, spec/22_power.md R610, spec/22_power.md R618, spec/22_power.md
R619, spec/02_block_boundary.md R39, spec/22_power.md R626, spec/01_architecture.md R31. -/
def Obligations.WakesAndFaults : Prop :=
  (∀ s : State, s.sh.seq.state.asleep = true → s.sh.seq.state ≠ .off → s.sh.rd F.pwrWakeTimer_MS ≠ 0 →
    s.sh.flag F.pwrWakeEn_TIMER = true →
    (s.sh.seq.kind ≠ .none →
      ∃ t, exec .wakeTimerExpire s = .next t ∧ t.pending = s.pending ∧ t.dp = s.dp ∧ t.sh.rd F.pwrWakeStat_TIMER = 1 ∧
        t.sh.seq = s.sh.seq ∧ t.sh.doms = s.sh.doms ∧ t.sh.clks = s.sh.clks ∧ t.sh.selCore = s.sh.selCore) ∧
    (s.sh.seq.kind = .none → s.sh.avsRun = none → s.sh.clks.length = 4 → (∃ x, x < 4 ∧ (s.sh.clk x).ack = false) →
      let v := s.sh.seq.retCruise && s.sh.flag F.fldStat_CRUISE_OK
      let rails := if s.sh.seq.state = .doze ∧ s.sh.railSteps 2 = [] then [] else s.sh.railSteps (if v = true then 1 else 0)
      ∃ t, exec .wakeTimerExpire s = .next t ∧ t.pending = s.pending ∧ t.dp = s.dp ∧ t.sh.rd F.pwrWakeStat_TIMER = 1 ∧
        (s.sh.seq.retCruise = true → s.sh.flag F.fldStat_CRUISE_OK = false → t.sh.rd F.pwrEvt_CRUISE_REFUSED = 1) ∧
        t.sh.seq.kind = .wake ∧ t.sh.seq.wakeTo = s.sh.seq.ret ∧ t.sh.seq.latched = s.sh.seq.ret ∧ t.sh.seq.wakeCruise = v ∧
        t.sh.seq.state = s.sh.seq.state ∧ t.sh.seq.attempt = 0 ∧ t.sh.seq.started = true ∧ t.sh.doms = s.sh.doms ∧
        (∀ rail mv rest, rails = .avs rail mv :: rest →
          t.sh.seq.phase = 4 ∧ t.sh.seq.todo.head? = some (.avs rail mv) ∧ t.sh.avsRun = some (⟨3, rail, mv⟩, true) ∧
          t.sh.clks = s.sh.clks ∧ t.sh.selCore = s.sh.selCore) ∧
        (rails = [] → s.sh.selCore = v ∨ (s.sh.clk 0).ack = false →
          t.sh.seq.phase = 5 ∧ t.sh.seq.todo.head? = some (.clkUp [0, 1, 2, 3]) ∧ t.sh.selCore = v ∧
          ∀ x, x < 4 → (t.sh.clk x).ack = (s.sh.clk x).ack ∧ ((s.sh.clk x).ack = false → (t.sh.clk x).req = true)) ∧
        (rails = [] → s.sh.selCore ≠ v → (s.sh.clk 0).ack = true →
          t.sh.seq.phase = 5 ∧ t.sh.seq.todo.head? = some (.clkDown [0]) ∧ t.sh.selCore = s.sh.selCore ∧
          (t.sh.clk 0).req = false ∧ ∀ x, x ≠ 0 → t.sh.clk x = s.sh.clk x))) ∧
  (∀ s : State, s.sh.seq.state.asleep = false ∨ s.sh.seq.state = .off ∨ s.sh.rd F.pwrWakeTimer_MS = 0 ∨
      s.sh.flag F.pwrWakeEn_TIMER = false →
    ∃ t, exec .wakeTimerExpire s = .next t ∧ t = s) ∧
  (∀ s : State, s.sh.seq.kind = .wake → s.sh.attemptWaits = true →
    ∃ t, exec .wakeFail s = .next t ∧ t.pending = s.pending ∧ t.sh.rd F.pwrEvt_WAKE_FAIL = 1 ∧
      (∀ rail mv, s.sh.seqHead = some (.avs rail mv) → t.sh.rd F.pwrEvt_AVS_TIMEOUT = 1) ∧
      (∀ d, s.sh.seqHead = some (.up d) → t.sh.rd F.pwrEvt_PD_TIMEOUT = 1) ∧
      (∀ xs, s.sh.seqHead = some (.clkUp xs) → t.sh.rd F.pwrEvt_CLK_TIMEOUT = 1) ∧
      (∀ xs, s.sh.seqHead = some (.clkDown xs) → t.sh.rd F.pwrEvt_CLK_TIMEOUT = 1) ∧
      t.sh.seq.state = s.sh.seq.state ∧
      (s.sh.seq.attempt + 1 < 3 → t.sh.seq.kind = .wake ∧ t.sh.seq.failed = true ∧
        t.sh.seq.attempt = s.sh.seq.attempt + 1 ∧ t.sh.seq.todo.getLast? = some .retry)) ∧
  (∀ (s : State) (rest : List SeqStep), s.sh.seq.kind = .wake → s.sh.seq.started = true → s.sh.seq.todo = .retry :: rest →
    s.sh.seq.state = .hibernate → s.sh.seq.wakeCruise = false → s.sh.selCore = false → s.sh.railSteps 0 = [] →
    s.sh.clks.length = 4 → (∀ x, x < 4 → (s.sh.clk x).ack = false) →
    ∃ t, exec .wakeRetry s = .next t ∧ t.sh.seq.kind = .wake ∧ t.sh.seq.failed = false ∧ t.sh.seq.phase = 5 ∧
      t.sh.seq.attempt = s.sh.seq.attempt ∧ (∀ x, x < 4 → (t.sh.clk x).req = true) ∧ t.dp = s.dp) ∧
  (∀ (s : State) (d : Nat), 1 ≤ d → d < 19 → s.sh.doms.length = 20 → (s.sh.dom d).ready = true → (s.sh.dom d).pwrReq = true →
    ∃ t, exec (.domainFault d) s = .next t ∧ t.pending = s.pending ∧
      (s.sh.link.busyWith d = false → t.sh.dom d = ⟨false, false, true, false⟩) ∧ (t.sh.dom d).ready = false ∧
      t.sh.rd F.pwrEvt_DOMAIN_FAULT = 1 ∧
      t.sh.rd F.pwrPdFault_FAULT = setBit (s.sh.rd F.pwrPdFault_FAULT) (d - 1) true ∧
      (s.sh.seq.todo = [] → s.sh.seq.lost = [] → ∀ e, e ≠ d → t.sh.dom e = s.sh.dom e)) ∧
  (∀ s : State, s.sh.doms.length = 20 → (s.sh.dom 19).ready = true → (s.sh.dom 19).pwrReq = true →
    ∃ t, exec (.domainFault 19) s = .next t ∧ t.pending = s.pending ∧ (t.sh.dom 19).ready = false ∧
      t.sh.rd F.pwrEvt_DOMAIN_FAULT = 1 ∧ t.sh.rd F.pwrPdFault_FAULT = 2 ^ 19 - 1 ∧
      ∀ d, 1 ≤ d → d < 20 → s.sh.link.busyWith d = false →
        (t.sh.dom d).iso = true ∧ (t.sh.dom d).pwrReq = false ∧ (t.sh.dom d).ret = false) ∧
  (∀ (s : State) (d : Nat), d = 0 ∨ 20 ≤ d ∨ (s.sh.dom d).ready = false ∨ (s.sh.dom d).pwrReq = false →
    ∃ t, exec (.domainFault d) s = .next t ∧ t = s) ∧
  (∀ (s : State) (m : RPort), s.portOpen m = true →
    ∃ t, exec (.sleepTallyRead m) s = .next t ∧ t.dp = s.dp ∧ t.sh.sleepN = s.sh.sleepN ∧ t.sh.regs = s.sh.regs ∧
      (t.sh.view m).sleepHi = s.sh.sleepN / 2 ^ 32 % 2 ^ 32 ∧ t.sh.view m.peer = s.sh.view m.peer ∧
      (s.sh.atCore m false (Reg.pwrSleepTallyLo.addr 0 0) = true →
        (t.sh.port m).rsp = some ⟨.ok, BitVec.ofNat 32 s.sh.sleepN⟩)) ∧
  (∀ (s : State) (m : RPort), s.portOpen m = false → ∃ t, exec (.sleepTallyRead m) s = .next t ∧ t = s)

/-- O25: TRIM gating and AVSBus commands (TRIM_GATE, TRIM_UNGATE, READ_VOLTAGE, READ_STATUS, WRITE_VOLTAGE). In
TRIM, the clock of an idle line or loop pen is gated and no other pen's gating changes; an ungated pen is gated
no more. With the bus free, a command of PWR_AVS_CMD of an open port starts a frame of its operation, on its
rail and with its data, that belongs to the master. The datapath beside the gating, and the shepherd's
registers, stay. Rests on spec/22_power.md R611, spec/22_power.md R615, spec/22_power.md R618. -/
def Obligations.TrimAndVoltageCommands : Prop :=
  (∀ (s : State) (pen : Nat), s.sh.seq.state = .trim → pen < 40 → (pen < 32 ∨ 38 ≤ pen) → s.dp.penIdle pen = true →
    ∃ t, exec (.trimGate pen) s = .next t ∧ pen ∈ t.dp.gated ∧ (∀ q, q ≠ pen → (q ∈ t.dp.gated ↔ q ∈ s.dp.gated)) ∧
      { t.dp with gated := s.dp.gated } = s.dp ∧ t.sh = s.sh) ∧
  (∀ (s : State) (pen : Nat),
    ∃ t, exec (.trimUngate pen) s = .next t ∧ (∀ q, q ∈ t.dp.gated ↔ q ∈ s.dp.gated ∧ q ≠ pen) ∧
      { t.dp with gated := s.dp.gated } = s.dp ∧ t.sh = s.sh) ∧
  (∀ (s : State) (m : RPort) (be : BitVec 4) (data : Word) (op : Nat) (c : Instr),
    (op = 1 ∧ c = .readVoltage m be data none) ∨ (op = 2 ∧ c = .readStatus m be data none) ∨
    (op = 3 ∧ c = .writeVoltage m be data none) →
    s.portOpen m = true → s.sh.avsRun = none → s.sh.avsWait = none →
    ∃ t, exec c s = .next t ∧ t.dp = s.dp ∧ t.sh.regs = s.sh.regs ∧ t.sh.seq = s.sh.seq ∧ t.sh.avsWait = none ∧
      t.sh.avsRun = some (⟨op, F.pwrAvsCmd_RAIL.wo (be ||| 1) (putBits data 1 0 op),
        F.pwrAvsCmd_DATA.wo (be ||| 1) (putBits data 1 0 op)⟩, false)) ∧
  (∀ (data : Word) (op : Nat), F.pwrAvsCmd_RAIL.of (putBits data 1 0 op) = F.pwrAvsCmd_RAIL.of data ∧
    F.pwrAvsCmd_DATA.of (putBits data 1 0 op) = F.pwrAvsCmd_DATA.of data)

/-- O26: PULL and PEEK (PULL, PULL_END, PEEK, PEEK_END). A row that reaches FLD_CMD does the following. While the
loader is idle, PULL and PEEK with a range that is in order start the operation for the port with FLD_OFS and
FLD_LEN and send its first word on the link; a range that is not in order fails with STAGE_RANGE, also where the
region in force would be hit as well (the order of these two tests is the model's choice, log entry 43), and a
PULL below FLD_FORCE_LEN with an image in force with FORCE_REGION. While it is busy, a command is refused and
only that is noted. As the last word arrives, the word of FLD_STAGE reaches the store (PULL) or the word of the
store reaches FLD_STAGE (PEEK), and the operation ends with DONE, and with no error unless a command was refused
meanwhile. Rests on spec/04_fold_image.md R135, spec/04_fold_image.md R140, spec/04_fold_image.md R141,
spec/04_fold_image.md R145. -/
def Obligations.StagingCommands : Prop :=
  (∀ (s : State) (m : RPort), s.reaches (.port m) (Reg.fldCmd.addr 0 0) true = true → s.sh.fld.state = .idle → s.sh.stageRangeOk = true →
    (s.sh.flag F.fldStat_IN_FORCE = true → s.sh.rd F.fldForceLen_LEN ≤ s.sh.fldByte) →
    ∃ t, exec (.pull m) s = .next t ∧ t.dp = s.dp ∧ t.pending = s.pending ∧ t.sh.regs = s.sh.regs ∧
      t.sh.fld = { s.sh.fld with
        state := .pull, port := m, ofs := s.sh.fldByte, len := s.sh.rd F.fldLen_LEN / 4, pen := 0, pos := 0, busyRefused := false } ∧
      t.sh.link.fifo = s.sh.link.fifo ++ [⟨m, true, false, Reg.fldStage.addr 0 0, 0xF, 0⟩]) ∧
  (∀ (s : State) (m : RPort), s.reaches (.port m) (Reg.fldCmd.addr 0 0) true = true → s.sh.fld.state = .idle → s.sh.stageRangeOk = true →
    ∃ t, exec (.peek m) s = .next t ∧ t.dp = s.dp ∧ t.pending = s.pending ∧ t.sh.regs = s.sh.regs ∧
      t.sh.fld = { s.sh.fld with
        state := .peek, port := m, ofs := s.sh.fldByte, len := s.sh.rd F.fldLen_LEN / 4, pen := 0, pos := 0, busyRefused := false } ∧
      t.sh.link.fifo = s.sh.link.fifo ++ [⟨m, true, true, Reg.fldStage.addr 0 0, 0xF,
        BitVec.ofNat 32 (leNat (s.sh.fld.store.reads s.sh.fldByte 4))⟩]) ∧
  (∀ (s : State) (m : RPort) (c : Instr), c = .pull m ∨ c = .peek m → s.reaches (.port m) (Reg.fldCmd.addr 0 0) true = true →
    s.sh.fld.state = .idle → s.sh.stageRangeOk = false →
    ∃ t, exec c s = .next t ∧ t.sh.fld.state = .idle ∧ t.sh.fld.store = s.sh.fld.store ∧ t.sh.rd F.fldStat_ERR = FE.stageRange ∧
      t.sh.rd F.fldEvt_ERROR = 1 ∧ t.dp.stage = s.dp.stage) ∧
  (∀ (s : State) (m : RPort), s.reaches (.port m) (Reg.fldCmd.addr 0 0) true = true → s.sh.fld.state = .idle → s.sh.stageRangeOk = true →
    s.sh.flag F.fldStat_IN_FORCE = true → s.sh.fldByte < s.sh.rd F.fldForceLen_LEN →
    ∃ t, exec (.pull m) s = .next t ∧ t.sh.fld.state = .idle ∧ t.sh.fld.store = s.sh.fld.store ∧
      t.sh.rd F.fldStat_ERR = FE.forceRegion ∧ t.sh.rd F.fldEvt_ERROR = 1) ∧
  (∀ (s : State) (m : RPort) (pen : Nat) (c : Instr), c ∈ [.pull m, .peek m, .check m, .apply m, .refold m pen] →
    s.reaches (.port m) (Reg.fldCmd.addr 0 0) true = true → s.sh.fld.state ≠ .idle →
    ∃ t, exec c s = .next t ∧ t.dp = s.dp ∧ t.sh.regs = s.sh.regs ∧ t.sh.fld = { s.sh.fld with busyRefused := true }) ∧
  (∀ s : State, s.sh.fld.state = .pull → s.sh.fld.len = s.sh.fld.pos + 1 →
    ∃ t, exec .pullEnd s = .next t ∧ t.dp = s.dp ∧ t.pending = s.pending ∧ t.sh.fld.state = .idle ∧
      t.sh.fld.store = s.sh.fld.store.writes (s.sh.fld.ofs + 4 * s.sh.fld.pos)
        (leBytes 4 (leNat (s.dp.stage.reads (4 * s.sh.fld.pos) 4) % 2 ^ 32)) ∧
      (s.sh.fld.busyRefused = false → t.sh.rd F.fldStat_ERR = 0) ∧ t.sh.rd F.fldEvt_DONE = 1) ∧
  (∀ s : State, s.sh.fld.state = .peek → s.sh.fld.len = s.sh.fld.pos + 1 →
    ∃ t, exec .peekEnd s = .next t ∧ t.pending = s.pending ∧ t.sh.fld.state = .idle ∧ t.sh.fld.store = s.sh.fld.store ∧
      t.dp = s.dp.writeStage s.sh.fld.pos 0xF
        (BitVec.ofNat 32 (leNat (s.sh.fld.store.reads (s.sh.fld.ofs + 4 * s.sh.fld.pos) 4))) ∧
      (s.sh.fld.busyRefused = false → t.sh.rd F.fldStat_ERR = 0) ∧ t.sh.rd F.fldEvt_DONE = 1)

/-- O27: CHECK and APPLY (CHECK, CHECK_END, APPLY, APPLY_END). A CHECK and an APPLY that reach FLD_CMD while the
loader is idle: CHECK starts on the image at offset 0. Its end sets STORED_OK, DONE and the digest of the image
where no check fails; else it clears STORED_OK, sets ERROR and reports the first failing check with its section
and its offset; the order among the header fields and among the content tests of a section is the model's choice
(log entry 41). APPLY fails with NOT_CHECKED while STORED_OK is 0, with IN_FORCE while an image is in force, and
with DIGEST_MISMATCH where DIGEST_LOCK is 1 and the digests differ, tested in this order (the model's choice,
log entry 43); else, with no POWER_PLAN section, it streams every section's words. Its end, once every word has
crossed, sets IN_FORCE, FLD_FORCE_ID, FLD_FORCE_LEN, CRUISE_OK and DONE, and an image without POWER_PLAN leaves
the power sequencer as it is unless the block is at the cruise point; the seeds of the tables that the image
does not define are 0 (R291). Rests on spec/04_fold_image.md R143, spec/04_fold_image.md R144,
spec/04_fold_image.md R146, spec/09_larder_tables.md R291, spec/22_power.md R613. -/
def Obligations.ChecksAndApplies : Prop :=
  (∀ (s : State) (m : RPort), s.reaches (.port m) (Reg.fldCmd.addr 0 0) true = true → s.sh.fld.state = .idle →
    ∃ t, exec (.check m) s = .next t ∧ t.dp = s.dp ∧ t.pending = s.pending ∧ t.sh.regs = s.sh.regs ∧
      t.sh.fld = { s.sh.fld with state := .check, port := m, ofs := 0, len := 0, pen := 0, pos := 0, busyRefused := false }) ∧
  (∀ s : State, s.sh.fld.state = .check → s.sh.fld.check 0 none = none →
    ∃ t, exec .checkEnd s = .next t ∧ t.dp = s.dp ∧ t.pending = s.pending ∧ t.sh.fld.state = .idle ∧
      t.sh.fld.store = s.sh.fld.store ∧ t.sh.rd F.fldStat_STORED_OK = 1 ∧ t.sh.rd F.fldEvt_DONE = 1 ∧
      t.sh.rd F.fldStat_IN_FORCE = s.sh.rd F.fldStat_IN_FORCE ∧
      ∀ i, i < 8 → t.sh.rd F.fldDigest_H i = (sha256 (s.sh.fld.image 0)).getD i 0 % 2 ^ 32) ∧
  (∀ (s : State) (e : FldErr), s.sh.fld.state = .check → s.sh.fld.check 0 none = some e →
    ∃ t, exec .checkEnd s = .next t ∧ t.pending = s.pending ∧ t.sh.fld.state = .idle ∧
      t.sh.fld.store = s.sh.fld.store ∧ t.sh.rd F.fldStat_STORED_OK = 0 ∧ t.sh.rd F.fldStat_ERR = e.code % 2 ^ 8 ∧
      t.sh.rd F.fldErrInfo_SECTION = e.sect % 2 ^ 10 ∧ t.sh.rd F.fldErrInfo_OFFSET = e.ofs % 2 ^ 20 ∧ t.sh.rd F.fldEvt_ERROR = 1) ∧
  (∀ (s : State) (m : RPort), s.reaches (.port m) (Reg.fldCmd.addr 0 0) true = true → s.sh.fld.state = .idle →
    ∃ t, exec (.apply m) s = .next t ∧ t.pending = s.pending ∧ t.sh.fld.store = s.sh.fld.store ∧
      (s.sh.flag F.fldStat_STORED_OK = false → t.sh.fld.state = .idle ∧ t.sh.rd F.fldStat_ERR = FE.notChecked ∧
        t.sh.rd F.fldEvt_ERROR = 1) ∧
      (s.sh.flag F.fldStat_STORED_OK = true → s.sh.flag F.fldStat_IN_FORCE = true → t.sh.fld.state = .idle ∧
        t.sh.rd F.fldStat_ERR = FE.inForce ∧ t.sh.rd F.fldEvt_ERROR = 1) ∧
      (s.sh.flag F.fldStat_STORED_OK = true → s.sh.flag F.fldStat_IN_FORCE = false → s.sh.flag F.fldCtl_DIGEST_LOCK = true →
        s.sh.digestOk = false → t.sh.fld.state = .idle ∧ t.sh.rd F.fldStat_ERR = FE.digestMismatch ∧
        t.sh.rd F.fldEvt_ERROR = 1) ∧
      (s.sh.flag F.fldStat_STORED_OK = true → s.sh.flag F.fldStat_IN_FORCE = false →
        (s.sh.flag F.fldCtl_DIGEST_LOCK = true → s.sh.digestOk = true) → powerPlanOf (s.sh.fld.sects 0) = none →
        t.dp = s.dp ∧ t.sh.regs = s.sh.regs ∧ t.sh.fld.state = .apply ∧ t.sh.fld.port = m ∧ t.sh.fld.pos = 0 ∧
        t.sh.fld.len = streamWords ((s.sh.fld.sects 0).filter (fun x => x.typ ≠ 1)))) ∧
  (∀ s : State, s.sh.fld.state = .apply → s.sh.fld.pos = s.sh.fld.len → powerPlanOf (s.sh.fld.sects 0) = none →
    ∃ t, exec .applyEnd s = .next t ∧ t.pending = s.pending ∧
      t.dp = ((s.onDp Datapath.structureSettled).seedsDefined (s.sh.fld.sects 0)).dp ∧
      t.sh.cseed = (s.seedsDefined (s.sh.fld.sects 0)).sh.cseed ∧ t.sh.fld.state = .idle ∧
      t.sh.fld.store = s.sh.fld.store ∧ (s.sh.seq.cruiseOn = false → t.sh.seq = s.sh.seq) ∧ t.sh.rd F.fldStat_IN_FORCE = 1 ∧ t.sh.rd F.fldEvt_DONE = 1 ∧
      t.sh.rd F.fldForceId_ID = le (s.sh.fld.image 0) 0x20 4 % 2 ^ 32 ∧
      t.sh.rd F.fldForceLen_LEN = (s.sh.fld.image 0).length % 2 ^ 32 ∧
      t.sh.rd F.fldStat_CRUISE_OK = b2n (cruiseOk (s.sh.fld.sects 0)))

/-- O28: REFOLD, its phases, ABORT and the end of a restore (REFOLD, REFOLD_HOLD_EMPTY, REFOLD_APPLY_END,
SPLICE_END, ABORT, RESTORE_END). A REFOLD that reaches FLD_CMD of a partial image that passes every test, with
DIGEST_LOCK 0, holds the pen. It is refused with DOMAIN_OFF where the pen's domain is off, whatever its image;
that this test comes before those of the image, and that HOLD begins at once, are the model's choice (log entry
43). When the held pen is empty the partial image streams; when it is applied the pen is no longer held, no port
of it is kept link-down any more, and the splice begins; at the splice's end, where the splice takes place (log
entry 48: the model's reading, DEDUCED), the store holds the spliced image from offset 0, FLD_FORCE_LEN is its
length, and no port discards for the re-fold. ABORT ends a running operation with ABORTED, but for SPLICE and
RESTORE, and does nothing while idle. A restore ends with RESTORED or RESTORE_ERR. Rests on
spec/04_fold_image.md R145, spec/04_fold_image.md R148, spec/04_fold_image.md R150, spec/04_fold_image.md R151,
spec/04_fold_image.md R152. -/
def Obligations.RefoldPhases : Prop :=
  (∀ (s : State) (m : RPort) (pen : Nat), pen < 64 → s.reaches (.port m) (Reg.fldCmd.addr 0 0) true = true → s.sh.fld.state = .idle →
    s.sh.flag F.fldStat_IN_FORCE = true → s.sh.domOn (penDomain pen) = true → s.sh.fld.check s.sh.fldByte (some pen) = none →
    s.sh.flag F.fldCtl_DIGEST_LOCK = false → up64 (s.sh.rd F.fldForceLen_LEN) ≤ s.sh.fldByte →
    s.sh.fldByte + up64 (s.sh.fld.lengthAt s.sh.fldByte) + (s.sh.fld.spliced s.sh.fldByte pen).length ≤ 1048576 →
    ∃ t, exec (.refold m pen) s = .next t ∧ t.dp = s.dp ∧ t.pending = s.pending ∧
      t.sh.fld = { s.sh.fld with
        state := .hold, port := m, ofs := s.sh.fldByte, len := 0, pen := pen, pos := 0, busyRefused := false }) ∧
  (∀ (s : State) (m : RPort) (pen : Nat), pen < 64 → s.reaches (.port m) (Reg.fldCmd.addr 0 0) true = true → s.sh.fld.state = .idle →
    s.sh.flag F.fldStat_IN_FORCE = true → s.sh.domOn (penDomain pen) = false →
    ∃ t, exec (.refold m pen) s = .next t ∧ t.sh.fld.state = .idle ∧ t.sh.fld.store = s.sh.fld.store ∧
      t.sh.rd F.fldStat_ERR = FE.domainOff ∧ t.sh.rd F.fldEvt_ERROR = 1) ∧
  (∀ s : State, s.sh.fld.state = .hold → s.dp.passesOf s.sh.fld.pen = [] →
    ∃ t, exec .refoldHoldEmpty s = .next t ∧ t.pending = s.pending ∧ t.sh.fld.state = .refold ∧ t.sh.fld.pos = 0 ∧
      t.sh.fld.len = streamWords (s.sh.fld.sects s.sh.fld.ofs) ∧ t.sh.fld.store = s.sh.fld.store ∧
      t.dp.cel.refold = s.refoldPorts ∧ t.dp.linkHeld = s.refoldPorts.filter (· < 512)) ∧
  (∀ s : State, s.sh.fld.state = .refold → s.sh.fld.pos = s.sh.fld.len →
    ∃ t, exec .refoldApplyEnd s = .next t ∧ t.pending = s.pending ∧ t.dp = { s.dp.structureSettled with linkHeld := [] } ∧ t.sh.fld.state = .splice ∧
      t.sh.fld.store = s.sh.fld.store ∧ t.sh.regs = s.sh.regs ∧ s.sh.fld.pen ∉ t.sh.fld.held) ∧
  (∀ s : State, s.sh.fld.state = .splice → s.sh.seq.cruiseOn = false →
    ∃ t, exec .spliceEnd s = .next t ∧ t.pending = s.pending ∧ t.sh.fld.state = .idle ∧ t.dp.cel.refold = [] ∧
      { t.dp with cel := s.dp.cel } = s.dp ∧ t.sh.rd F.fldEvt_DONE = 1 ∧
      t.sh.rd F.fldForceLen_LEN = (s.sh.fld.spliced s.sh.fld.ofs s.sh.fld.pen).length % 2 ^ 32 ∧
      ∃ st, t.sh.fld.store = URam.writes st 0 (s.sh.fld.spliced s.sh.fld.ofs s.sh.fld.pen)) ∧
  (∀ (s : State) (m : RPort), s.reaches (.port m) (Reg.fldCmd.addr 0 0) true = true →
    ∃ t, exec (.abort m) s = .next t ∧ t.pending = s.pending ∧ t.sh.fld.store = s.sh.fld.store ∧
      (s.sh.fld.state ∈ [.idle, .splice, .restore] → t.dp = s.dp ∧ t.sh.fld = s.sh.fld ∧ t.sh.regs = s.sh.regs) ∧
      (s.sh.fld.state ∉ [.idle, .splice, .restore] → t.sh.fld.state = .idle ∧ t.sh.rd F.fldStat_ERR = FE.aborted ∧
        t.sh.rd F.fldEvt_ERROR = 1 ∧ t.dp.linkHeld = [] ∧ t.dp.cel.refold = [])) ∧
  (∀ (s : State) (failed : Bool), s.sh.fld.state = .restore →
    ∃ t, exec (.restoreEnd failed) s = .next t ∧ t.pending = s.pending ∧
      (failed = true → t.sh.rd F.fldEvt_RESTORE_ERR = 1) ∧ (failed = false → t.sh.rd F.fldEvt_RESTORED = 1))

/-- O29: The link events (SIGNAL_DETECT_CHANGE, SIGNAL_PRESENT, LANES_LOCKED, DESKEW_*, UP_HOLD_EXPIRE, LANE_LOSS,
LOCK_LOSS, REMOTE_FAULT_*). On a carved and enabled port that no re-fold holds down: signal without lane loss
moves NO_SIGNAL to LOCKING with no lane locked; all lanes locked move LOCKING to ALIGNING; with no loss, a
deskew success moves ALIGNING to UP_HOLD, a failure on several lanes to LOCKING, counted in DESKEW_FAIL but in
far-end loopback, on one lane to nothing; the hold timer moves UP_HOLD to UP and records the entry; remote fault
moves UP to REMOTE_FAULT and back (outside near-end loopback), and reception goes on. A lane loss from LOCKING
on moves to NO_SIGNAL, HI_ERR from ALIGNING on to LOCKING. A signal detect change sets its lane slot's level
alone. No event changes the shepherd; a move between states that do not receive changes only registers. That
LANES_LOCKED clears HI_ERR, that LOCK reads 0 in NO_SIGNAL, and that a signal detect change moves its level
alone, the transition being a row of its own, are the model's reading (log entry 49, DEDUCED). Rests on
spec/06_lanes_pcs_fec.md R177, spec/06_lanes_pcs_fec.md R178, spec/06_lanes_pcs_fec.md R180,
spec/06_lanes_pcs_fec.md R181, spec/06_lanes_pcs_fec.md R184, spec/06_lanes_pcs_fec.md R185. -/
def Obligations.LinkStateMachine : Prop :=
  (∀ (s : State) (slot : Nat) (level : Bool),
    ∃ t, exec (.signalDetectChange slot level) s = .next t ∧ t.sh = s.sh ∧ t.pending = s.pending ∧
      { t.dp with sigDet := s.dp.sigDet } = s.dp ∧ Tab.get t.dp.sigDet slot false = level ∧
      ∀ k, k ≠ slot → Tab.get t.dp.sigDet k false = Tab.get s.dp.sigDet k false) ∧
  (∀ (s : State) (p : Nat), s.dp.hasLink p = true → s.dp.linkState p = LS.noSignal → s.dp.laneLoss p = false →
    ∃ t, exec (.signalPresent p) s = .next t ∧ t.sh = s.sh ∧ t.pending = s.pending ∧ { t.dp with regs := s.dp.regs } = s.dp ∧
      t.dp.linkState p = LS.locking ∧ t.dp.rd F.penLinkStat_LOCK (p / 16) (p % 16) = 0) ∧
  (∀ (s : State) (p : Nat), s.dp.hasLink p = true → s.dp.linkState p = LS.locking → s.dp.laneLoss p = false →
    ∃ t, exec (.lanesLocked p) s = .next t ∧ t.sh = s.sh ∧ t.pending = s.pending ∧ { t.dp with regs := s.dp.regs } = s.dp ∧
      t.dp.linkState p = LS.aligning ∧ t.dp.rd F.penLinkStat_LOCK (p / 16) (p % 16) = s.dp.allLanes p % 2 ^ 8 ∧
      t.dp.rd F.penLinkStat_HI_ERR (p / 16) (p % 16) = 0) ∧
  (∀ (s : State) (p : Nat), s.dp.linkSound p LS.aligning = true →
    ∃ t u, exec (.deskewSuccess p) s = .next t ∧ exec (.deskewFail p) s = .next u ∧ t.sh = s.sh ∧ u.sh = s.sh ∧
      t.pending = s.pending ∧ { t.dp with regs := s.dp.regs } = s.dp ∧ t.dp.linkState p = LS.upHold ∧
      (s.dp.width p = 1 → u = s) ∧ (s.dp.width p ≠ 1 → u.dp.linkState p = LS.locking ∧
        Tab.get u.dp.tally (128 * p + T.DESKEW_FAIL) 0 =
          (Tab.get s.dp.tally (128 * p + T.DESKEW_FAIL) 0 + s.dp.tallyStep p) % 2 ^ 56)) ∧
  (∀ (s : State) (p : Nat), s.dp.linkSound p LS.upHold = true →
    ∃ t, exec (.upHoldExpire p) s = .next t ∧ t.sh = s.sh ∧ t.pending = s.pending ∧ t.dp.linkState p = LS.up ∧
      t.dp.rdBit F.penLinkChg_CHG (p % 16) (p / 16) = true ∧ t.dp.frames = s.dp.frames ∧ t.dp.copies = s.dp.copies) ∧
  (∀ (s : State) (p : Nat), s.dp.hasLink p = true → LS.locking ≤ s.dp.linkState p → s.dp.laneLoss p = true →
    ∃ t, exec (.laneLoss p) s = .next t ∧ t.sh = s.sh ∧ t.pending = s.pending ∧ t.dp.linkState p = LS.noSignal ∧
      t.dp.rd F.penLinkStat_LOCK (p / 16) (p % 16) = 0) ∧
  (∀ (s : State) (p lost : Nat), s.dp.hasLink p = true → LS.aligning ≤ s.dp.linkState p → s.dp.laneLoss p = false →
    s.dp.flag F.penLinkStat_RX_LPI (p / 16) (p % 16) = false →
    ∃ t, exec (.lockLoss p lost true) s = .next t ∧ t.sh = s.sh ∧ t.pending = s.pending ∧ t.dp.linkState p = LS.locking) ∧
  (∀ (s : State) (p : Nat), s.dp.linkSound p LS.up = true → s.dp.loopMode p ≠ 1 →
    ∃ t, exec (.remoteFaultReceived p) s = .next t ∧ t.sh = s.sh ∧ t.pending = s.pending ∧
      t.dp.linkState p = LS.remoteFault ∧ t.dp.rx = s.dp.rx) ∧
  (∀ (s : State) (p : Nat), s.dp.linkSound p LS.remoteFault = true → s.dp.loopMode p ≠ 1 →
    ∃ t, exec (.remoteFaultCleared p) s = .next t ∧ t.sh = s.sh ∧ t.pending = s.pending ∧ t.dp.linkState p = LS.up ∧
      t.dp.rx = s.dp.rx)

/-- O30: Low-power idle (LPI_ENTER, LPI_WAKE, LPI_WAKE_DONE, LPI_REFRESH, RX_LPI_ENTER, RX_LPI_EXIT, RX_LPI_TIMEOUT,
RX_LPI_REFRESH). With every condition of R188, the transmitter enters low-power idle and drives tx_quiet of each
lane exactly in deep sleep; a frame that becomes ready ends it, and the port waits for its wake time; that
TX_LPI falls as the wake begins, and not at its end, is the model's reading (log entry 52, DEDUCED). A refresh
sets the level of tx_quiet. The receive path of a port in UP_HOLD, UP or REMOTE_FAULT follows the partner
likewise with rx_quiet; where neither refresh nor wake arrives RX_LPI clears, and a lane without signal then
takes the port to NO_SIGNAL. None of them changes the shepherd. Rests on spec/06_lanes_pcs_fec.md R180,
spec/06_lanes_pcs_fec.md R188, spec/06_lanes_pcs_fec.md R190, spec/06_lanes_pcs_fec.md R191. -/
def Obligations.LowPowerIdle : Prop :=
  (∀ (s : State) (p : Nat), s.dp.hasLink p = true → s.dp.pmLpiEn p = true → s.dp.lpiOf p ≠ .none → s.dp.pmGated p = false →
    s.dp.loopMode p = 0 → s.dp.linkState p = LS.up → s.dp.lpiBlocks p = false → s.dp.frameReady s.lead p = false →
    ∃ t, exec (.lpiEnter p) s = .next t ∧ t.sh = s.sh ∧ t.pending = s.pending ∧
      { t.dp with regs := s.dp.regs, txQuiet := s.dp.txQuiet } = s.dp ∧
      t.dp.rd F.penLinkStat_TX_LPI (p / 16) (p % 16) = 1 ∧
      ∀ k, k < s.dp.width p → Tab.get t.dp.txQuiet (p + k) false = decide (s.dp.lpiOf p = .deepSleep)) ∧
  (∀ (s : State) (p : Nat), s.dp.flag F.penLinkStat_TX_LPI (p / 16) (p % 16) = true → s.dp.frameReady s.lead p = true →
    ∃ t, exec (.lpiWake p) s = .next t ∧ t.sh = s.sh ∧ t.pending = s.pending ∧
      { t.dp with regs := s.dp.regs, txQuiet := s.dp.txQuiet, waking := s.dp.waking } = s.dp ∧
      t.dp.rd F.penLinkStat_TX_LPI (p / 16) (p % 16) = 0 ∧ p ∈ t.dp.waking ∧
      ∀ k, k < s.dp.width p → Tab.get t.dp.txQuiet (p + k) false = false) ∧
  (∀ (s : State) (p : Nat),
    ∃ t, exec (.lpiWakeDone p) s = .next t ∧ t.sh = s.sh ∧ t.pending = s.pending ∧ { t.dp with waking := s.dp.waking } = s.dp ∧
      ∀ q, q ∈ t.dp.waking ↔ q ∈ s.dp.waking ∧ q ≠ p) ∧
  (∀ (s : State) (p : Nat) (quiet : Bool), s.dp.flag F.penLinkStat_TX_LPI (p / 16) (p % 16) = true → s.dp.lpiOf p = .deepSleep →
    ∃ t, exec (.lpiRefresh p quiet) s = .next t ∧ t.sh = s.sh ∧ t.pending = s.pending ∧
      { t.dp with txQuiet := s.dp.txQuiet } = s.dp ∧ ∀ k, k < s.dp.width p → Tab.get t.dp.txQuiet (p + k) false = quiet) ∧
  (∀ (s : State) (p : Nat), s.dp.hasLink p = true → s.dp.lpiOf p ≠ .none → LS.upHold ≤ s.dp.linkState p →
    ∃ t, exec (.rxLpiEnter p) s = .next t ∧ t.sh = s.sh ∧ t.pending = s.pending ∧
      { t.dp with regs := s.dp.regs, rxQuiet := s.dp.rxQuiet } = s.dp ∧
      t.dp.rd F.penLinkStat_RX_LPI (p / 16) (p % 16) = 1 ∧
      ∀ k, k < s.dp.width p → Tab.get t.dp.rxQuiet (p + k) false = decide (s.dp.lpiOf p = .deepSleep)) ∧
  (∀ (s : State) (p : Nat),
    ∃ t, exec (.rxLpiExit p) s = .next t ∧ t.sh = s.sh ∧ t.pending = s.pending ∧
      { t.dp with regs := s.dp.regs, rxQuiet := s.dp.rxQuiet } = s.dp ∧
      t.dp.rd F.penLinkStat_RX_LPI (p / 16) (p % 16) = 0 ∧
      ∀ k, k < s.dp.width p → Tab.get t.dp.rxQuiet (p + k) false = false) ∧
  (∀ (s : State) (p : Nat), s.dp.flag F.penLinkStat_RX_LPI (p / 16) (p % 16) = true →
    ∃ t, exec (.rxLpiTimeout p) s = .next t ∧ t.sh = s.sh ∧ t.pending = s.pending ∧
      t.dp.rd F.penLinkStat_RX_LPI (p / 16) (p % 16) = 0 ∧
      (s.dp.hasLink p = true → LS.locking ≤ s.dp.linkState p → s.dp.sigOf p ≠ s.dp.allLanes p →
        s.dp.flag F.penLinkCtl_SIG_DET_IGNORE (p / 16) (p % 16) = false → t.dp.linkState p = LS.noSignal)) ∧
  (∀ (s : State) (p : Nat) (quiet : Bool), s.dp.flag F.penLinkStat_RX_LPI (p / 16) (p % 16) = true → s.dp.lpiOf p = .deepSleep →
    ∃ t, exec (.rxLpiRefresh p quiet) s = .next t ∧ t.sh = s.sh ∧ t.pending = s.pending ∧
      { t.dp with rxQuiet := s.dp.rxQuiet } = s.dp ∧ ∀ k, k < s.dp.width p → Tab.get t.dp.rxQuiet (p + k) false = quiet)

/-- O31: Writes of PEN_LINK_CTL, the patterns and their checkers (LINK_ADMIN_DOWN, LINK_ADMIN_UP, LINK_LOOP_CHANGE,
PATTERN_CHECKER_*). A write that reaches PEN_LINK_CTL of a carved port: one that leaves ADMIN 0 takes the port
to DISABLED; one that sets ADMIN takes a DISABLED port to NO_SIGNAL; a change of LOOP on a port with ADMIN 1
that is not DISABLED takes it to NO_SIGNAL. A running checker that sees 256 matching bits sets CHK_LOCK and adds
the errors since to PEN_LANE_ERRS, which stops at its highest value; one that sees 16 bad words adds their
errors and clears CHK_LOCK. The shepherd's registers stay. A lane of a DISABLED port sends the pattern that
TX_PAT names, or nothing; each bit of a PRBS, from the degree of its polynomial on, is the sum of the earlier
bits that the polynomial names (inverted for the degrees 15, 23 and 31: presumed, log entry 93), and the square
wave alternates 16 ones and 16 zeros. Rests on spec/06_lanes_pcs_fec.md R176, spec/06_lanes_pcs_fec.md R180,
spec/06_lanes_pcs_fec.md R182, spec/06_lanes_pcs_fec.md R194, spec/06_lanes_pcs_fec.md R195,
spec/06_lanes_pcs_fec.md R196. -/
def Obligations.LinkControlAndPatterns : Prop :=
  (∀ (s : State) (src : Src) (p : Nat) (be : BitVec 4) (data : Word),
    s.reaches src (Reg.penLinkCtl.addr (p / 16) (p % 16)) true = true → s.dp.carved p = true →
    ∃ t, exec (.linkAdminDown src p be data) s = .next t ∧ t.sh.regs = s.sh.regs ∧ t.pending = s.pending ∧
      t.dp.linkState p = LS.disabled ∧ t.dp.flag F.penLinkCtl_ADMIN (p / 16) (p % 16) = false) ∧
  (∀ (s : State) (src : Src) (p : Nat) (be : BitVec 4) (data : Word),
    s.reaches src (Reg.penLinkCtl.addr (p / 16) (p % 16)) true = true → s.dp.carved p = true → s.dp.linkState p = LS.disabled →
    ∃ t, exec (.linkAdminUp src p be data) s = .next t ∧ t.sh.regs = s.sh.regs ∧ t.pending = s.pending ∧
      { t.dp with regs := s.dp.regs } = s.dp ∧ t.dp.linkState p = LS.noSignal ∧
      t.dp.flag F.penLinkCtl_ADMIN (p / 16) (p % 16) = true) ∧
  (∀ (s : State) (src : Src) (p mode : Nat) (be : BitVec 4) (data : Word), mode < 3 →
    s.reaches src (Reg.penLinkCtl.addr (p / 16) (p % 16)) true = true → s.dp.carved p = true → s.dp.linkState p ≠ LS.disabled →
    s.dp.loopMode p ≠ mode →
    ∃ t, exec (.linkLoopChange src p mode be data) s = .next t ∧ t.sh.regs = s.sh.regs ∧ t.pending = s.pending ∧
      t.dp.linkState p = LS.noSignal ∧ t.dp.loopMode p = mode ∧ t.dp.flag F.penLinkCtl_ADMIN (p / 16) (p % 16) = true) ∧
  (∀ (s : State) (slot errs : Nat), s.dp.checkerRuns slot = true →
    ∃ t, exec (.patternCheckerLock slot errs) s = .next t ∧ t.sh = s.sh ∧ t.pending = s.pending ∧
      { t.dp with regs := s.dp.regs } = s.dp ∧ t.dp.rd F.penLaneTest_CHK_LOCK (slot / 16) (slot % 16) = 1 ∧
      t.dp.rd F.penLaneErrs_ERRS (slot / 16) (slot % 16) =
        min (s.dp.rd F.penLaneErrs_ERRS (slot / 16) (slot % 16) + errs) (2 ^ 32 - 1)) ∧
  (∀ (s : State) (slot errs : Nat), s.dp.checkerRuns slot = true → 256 ≤ errs →
    s.dp.flag F.penLaneTest_CHK_LOCK (slot / 16) (slot % 16) = true →
    ∃ t, exec (.patternCheckerUnlock slot errs) s = .next t ∧ t.sh = s.sh ∧ t.pending = s.pending ∧
      { t.dp with regs := s.dp.regs } = s.dp ∧ t.dp.rd F.penLaneTest_CHK_LOCK (slot / 16) (slot % 16) = 0 ∧
      t.dp.rd F.penLaneErrs_ERRS (slot / 16) (slot % 16) =
        min (s.dp.rd F.penLaneErrs_ERRS (slot / 16) (slot % 16) + errs) (2 ^ 32 - 1)) ∧
  (∀ (d : Datapath) (slot : Nat), d.slotUsed slot = true → d.linkState (d.portOfSlot slot) = LS.disabled →
    d.laneOut slot = (if d.txPat slot = 0 then .off else .pattern (d.txPat slot))) ∧
  (∀ (d : Datapath) (slot n k code x y : Nat),
    (code, x, y) ∈ [(1, 7, 6), (2, 9, 5), (4, 15, 14), (5, 23, 18), (6, 31, 28)] → x ≤ k → k < n →
    let b := d.patternBits slot code n
    b.getD k false = ((b.getD (k - x) false != b.getD (k - y) false) != decide (4 ≤ code))) ∧
  (∀ (d : Datapath) (slot n k : Nat), 13 ≤ k → k < n →
    let b := d.patternBits slot 3 n
    b.getD k false = (((b.getD (k - 13) false != b.getD (k - 12) false) != b.getD (k - 2) false) != b.getD (k - 1) false)) ∧
  (∀ (d : Datapath) (slot n k : Nat), k < n → (d.patternBits slot 7 n).getD k false = decide (k % 32 < 16))

/-- O32: A frame in reception (RX_FRAME_START, RX_ADDRESS_FILTER, RX_FRAME_READY, RX_FRAME_TRUNCATE,
FLOCK_HEADER_CHECK). On a port outside near-end loopback: a start delimiter on a port that receives takes a
staging entry and its reservation where the pen's staging accepts it, and a new frame record; else the frame is
not accepted and no record is made. At byte 5 a frame that the filter drops is counted in RX_ADDR_DROP and
leaves; one that was not accepted is counted in RX_OVERFLOW; another keeps its ADDR_HIT. The bytes passed on are
those up to the effective MAX_LEN, at 256 bytes the frame is ready on its pen (behind the frames ready before,
where none shares its clock), and one longer than MAX_LEN is marked. A flock frame's header makes it a transit,
local, control or dropped frame. Rests on spec/07_receive_mac.md R206, spec/07_receive_mac.md R213,
spec/07_receive_mac.md R214, spec/07_receive_mac.md R215, spec/07_receive_mac.md R216, spec/17_flock.md R518. -/
def Obligations.FrameStartsAndFilter : Prop :=
  (∀ (s : State) (p frag : Nat), s.dp.carved p = true → s.dp.rxOpen p = true → s.dp.loopMode p ≠ 1 →
    ∃ t, exec (.rxFrameStart p 0xD5 frag) s = .next t ∧ t.sh = s.sh ∧ t.pending = s.pending ∧ t.dp.copies = s.dp.copies ∧
      (∀ f, f ≠ s.dp.nextFrame → t.dp.frame f = s.dp.frame f) ∧
      (s.dp.stageAccepts (penOf p) (s.dp.reservation p) = true → t.dp.nextFrame = s.dp.nextFrame + 1 ∧
        (∃ x, t.dp.frame s.dp.nextFrame = some x ∧ x.port = p ∧ x.inPen = penOf p ∧ x.staged = true ∧ x.ended = false ∧
          x.bytes = [] ∧ x.resv = s.dp.reservation p) ∧
        ∃ y, (t.dp.rxPort p).express = some y ∧ y.fid = some s.dp.nextFrame ∧ y.accepted = true ∧ y.raw = []) ∧
      (s.dp.stageAccepts (penOf p) (s.dp.reservation p) = false → t.dp.frames = s.dp.frames ∧ t.dp.regs = s.dp.regs ∧
        ∃ y, (t.dp.rxPort p).express = some y ∧ y.fid = none ∧ y.accepted = false ∧ y.raw = [])) ∧
  (∀ (s : State) (p : Nat) (bs : List Byte) (y x : RxFrame), (s.dp.rxPort p).express = some y →
    y.frag = [] → s.dp.loopMode p ≠ 1 →
    x = { y with raw := y.raw ++ bs } → y.filtered = false → y.dropped = false → 6 ≤ x.raw.length → x.raw.length < 15 →
    ∃ t, exec (.rxAddressFilter p bs) s = .next t ∧ t.sh = s.sh ∧ t.pending = s.pending ∧ t.dp.copies = s.dp.copies ∧
      (s.dp.filterDrops p (daOf x.raw) = true →
        (t.dp.rxPort p).express = some { x with filtered := true, dropped := true, fid := none } ∧
        (∀ f, y.fid = some f → t.dp.frame f = none) ∧
        Tab.get t.dp.tally (128 * p + T.RX_ADDR_DROP) 0 = (Tab.get s.dp.tally (128 * p + T.RX_ADDR_DROP) 0 + s.dp.tallyStep p) % 2 ^ 56) ∧
      (s.dp.filterDrops p (daOf x.raw) = false → y.accepted = false → y.fid = none →
        (t.dp.rxPort p).express = some { x with filtered := true, dropped := true } ∧ t.dp.frames = s.dp.frames ∧
        Tab.get t.dp.tally (128 * p + T.RX_OVERFLOW) 0 = (Tab.get s.dp.tally (128 * p + T.RX_OVERFLOW) 0 + s.dp.tallyStep p) % 2 ^ 56) ∧
      (s.dp.filterDrops p (daOf x.raw) = false → y.accepted = true →
        (t.dp.rxPort p).express = some { x with filtered := true, addrHit := s.dp.addrHit p (daOf x.raw) } ∧
        t.dp.frames = s.dp.frames ∧ t.dp.tally = s.dp.tally)) ∧
  (∀ (s : State) (p f : Nat) (bs : List Byte) (y x : RxFrame) (z : Frame) (c : Instr),
    c = .rxFrameReady p bs ∨ c = .rxFrameTruncate p bs → (s.dp.rxPort p).express = some y →
    y.frag = [] → s.dp.loopMode p ≠ 1 →
    x = { y with raw := y.raw ++ bs } → y.filtered = true → y.fid = some f → y.flk = .plain → s.dp.frame f = some z →
    z.strip = none → z.ready = false → s.watching = false → s.dp.flkLinkOf p = none → 64 ≤ x.raw.length →
    s.dp.isControl (penOf p) x.raw = false →
    ∃ t z', exec c s = .next t ∧ t.sh = s.sh ∧ t.pending = s.pending ∧ t.dp.copies = s.dp.copies ∧ t.dp.regs = s.dp.regs ∧
      t.dp.frame f = some z' ∧ z'.bytes = x.raw.take (s.dp.effMaxLen p x.raw) ∧ z'.ready = decide (256 ≤ x.raw.length) ∧
      (256 ≤ x.raw.length → (∀ g ∈ s.dp.readyOf z.inPen, s.dp.meets .ready g = false) →
        t.dp.readyOf z.inPen = s.dp.readyOf z.inPen ++ [f]) ∧
      (t.dp.rxPort p).express = some { x with long := y.long || decide (s.dp.effMaxLen p x.raw < x.raw.length) } ∧
      ∀ g, g ≠ f → t.dp.frame g = s.dp.frame g) ∧
  (∀ (s : State) (p l f : Nat) (bs : List Byte) (y x : RxFrame) (z : Frame), (s.dp.rxPort p).express = some y →
    y.frag = [] → s.dp.loopMode p ≠ 1 →
    x = { y with raw := y.raw ++ bs } → y.filtered = true → y.fid = some f → y.flk = .plain → s.dp.frame f = some z →
    s.dp.flkLinkOf p = some l → s.watching = false → 18 ≤ x.raw.length → x.raw.length < 64 →
    s.dp.flkFrame (s.dp.tagsOf (penOf p) x.raw) x.raw = true →
    ∃ t y', exec (.flockHeaderCheck p bs) s = .next t ∧ t.sh = s.sh ∧ t.pending = s.pending ∧ t.dp.copies = s.dp.copies ∧
      (t.dp.rxPort p).express = some y' ∧ y'.flk = (s.dp.flkHeader l x.raw).1 ∧
      ((s.dp.flkHeader l x.raw).1 = .transit → t.dp.frame f = some { z with transit := true }) ∧
      ((s.dp.flkHeader l x.raw).1 = .local' → t.dp.frame f = some z) ∧
      ((s.dp.flkHeader l x.raw).1 = .control ∨ (s.dp.flkHeader l x.raw).1 = .bad → t.dp.frame f = none))

/-- O33: The end of a frame in reception (RX_FRAME_END, RX_FRAME_CUT, RX_FRAGMENT_END). On a port outside near-end
loopback: a complete good frame of allowed length that is no control frame is counted in RX_OK, ends with class
NONE and its bytes without FCS, and is ready; one of 63 bytes or fewer leaves the block. A frame that an error
character cuts leaves below 64 bytes and is counted in RX_FRAGMENT; from 64 bytes on it ends with class CUT and
is counted in RX_ERR_CHAR. A fragment whose check value is a good mCRC is counted in MM_FRAG_RX and the frame
waits for its continuation. None of them changes the shepherd. Rests on spec/07_receive_mac.md R205,
spec/07_receive_mac.md R208, spec/07_receive_mac.md R209, spec/07_receive_mac.md R218, spec/07_receive_mac.md
R228. -/
def Obligations.FrameEnds : Prop :=
  (∀ (s : State) (p f : Nat) (bs : List Byte) (y x : RxFrame) (z : Frame), (s.dp.rxPort p).express = some y →
    y.frag = [] → s.dp.loopMode p ≠ 1 →
    x = { y with raw := y.raw ++ bs } → y.filtered = true → y.dropped = false → y.accepted = true → y.fid = some f →
    y.flk = .plain → s.dp.frame f = some z → z.strip = none → s.watching = false → s.dp.flkLinkOf p = none →
    s.dp.isControl (penOf p) x.raw = false →
    ∃ t, exec (.rxFrameEnd p bs) s = .next t ∧ t.sh = s.sh ∧ t.pending = s.pending ∧ t.dp.copies = s.dp.copies ∧
      (t.dp.rxPort p).express = none ∧ (t.dp.rxPort p).pause = (s.dp.rxPort p).pause ∧
      (64 ≤ x.raw.length → x.raw.length ≤ s.dp.effMaxLen p x.raw → fcsKind x.raw = .good →
        Tab.get t.dp.tally (128 * p + T.RX_OK) 0 = (Tab.get s.dp.tally (128 * p + T.RX_OK) 0 + s.dp.tallyStep p) % 2 ^ 56 ∧
        ∃ w, t.dp.frame f = some w ∧ w.ended = true ∧ w.rxErr = RC.none ∧ w.len = x.raw.length ∧ w.ready = true ∧
          w.bytes = x.raw.take (x.raw.length - 4) ∧ w.addrHit = y.addrHit) ∧
      (x.raw.length ≤ 63 → t.dp.frame f = none ∧
        (fcsKind x.raw = .good →
          Tab.get t.dp.tally (128 * p + T.RX_UNDERSIZE) 0 = (Tab.get s.dp.tally (128 * p + T.RX_UNDERSIZE) 0 + s.dp.tallyStep p) % 2 ^ 56) ∧
        (fcsKind x.raw ≠ .good →
          Tab.get t.dp.tally (128 * p + T.RX_FRAGMENT) 0 = (Tab.get s.dp.tally (128 * p + T.RX_FRAGMENT) 0 + s.dp.tallyStep p) % 2 ^ 56))) ∧
  (∀ (s : State) (p f : Nat) (bs : List Byte) (y x : RxFrame) (z : Frame), (s.dp.rxPort p).express = some y →
    y.frag = [] → s.dp.loopMode p ≠ 1 →
    x = { y with raw := y.raw ++ bs } → y.filtered = true → y.dropped = false → y.fid = some f → y.flk = .plain →
    s.dp.frame f = some z → z.strip = none → s.watching = false → s.dp.flkLinkOf p = none → s.dp.isControl (penOf p) x.raw = false →
    ∃ t, exec (.rxFrameCut p bs) s = .next t ∧ t.sh = s.sh ∧ t.pending = s.pending ∧ t.dp.copies = s.dp.copies ∧
      (t.dp.rxPort p).express = none ∧
      (x.raw.length < 64 → t.dp.frame f = none ∧
        Tab.get t.dp.tally (128 * p + T.RX_FRAGMENT) 0 = (Tab.get s.dp.tally (128 * p + T.RX_FRAGMENT) 0 + s.dp.tallyStep p) % 2 ^ 56) ∧
      (64 ≤ x.raw.length → (∃ w, t.dp.frame f = some w ∧ w.ended = true ∧ w.rxErr = RC.cut) ∧
        Tab.get t.dp.tally (128 * p + T.RX_ERR_CHAR) 0 = (Tab.get s.dp.tally (128 * p + T.RX_ERR_CHAR) 0 + s.dp.tallyStep p) % 2 ^ 56)) ∧
  (∀ (s : State) (p : Nat) (bs : List Byte) (y x : RxFrame), (s.dp.rxPort p).express = none → (s.dp.rxPort p).mmFrame = none →
    (s.dp.rxPort p).pre = some y → y.inFrag = true → s.dp.loopMode p ≠ 1 → x = { y with frag := y.frag ++ bs } → y.filtered = true →
    y.flk = .plain → s.dp.flkLinkOf p = none → fcsKind (x.raw ++ x.frag) = .mcrc →
    ∃ t, exec (.rxFragmentEnd p bs) s = .next t ∧ t.sh = s.sh ∧ t.pending = s.pending ∧ t.dp.copies = s.dp.copies ∧
      (∀ g, y.fid ≠ some g → t.dp.frame g = s.dp.frame g) ∧
      Tab.get t.dp.tally (128 * p + T.MM_FRAG_RX) 0 = (Tab.get s.dp.tally (128 * p + T.MM_FRAG_RX) 0 + s.dp.tallyStep p) % 2 ^ 56 ∧
      ∃ b, (t.dp.rxPort p).pre = some { x with
        long := b, raw := (x.raw ++ x.frag).take ((x.raw ++ x.frag).length - 4), frag := [], inFrag := false, frags := y.frags + 1
        nextFrag := some (match y.nextFrag with
          | none => 0
          | some n => (n + 1) % 4) })

/-- O34: The pause timer, watchdog and restore counter of a class (PAUSE_TIMER_EXPIRE, PAUSE_WATCHDOG_EXPIRE,
STORM_RESTORE_EXPIRE, WATCHDOG_ENABLE_WRITE). The pause timer returns a PAUSED class to RUNNING. The watchdog
takes a PAUSED class whose WD_EN bit is set to STORM, sets the port's CHG and counts PAUSE_STORM; without the
bit the class stays PAUSED at the limit, from where a write of the bit as 1 takes it to STORM. The restore
counter, where no pausing frame of its clock meets it, or a write of the bit as 0 that reaches PEN_RX_CTL, ends
STORM in RUNNING and sets CHG. A timer or counter leaves the other classes; the shepherd's registers stay. Rests
on spec/07_receive_mac.md R221, spec/07_receive_mac.md R222, spec/07_receive_mac.md R223. -/
def Obligations.PauseAndStorm : Prop :=
  (∀ (s : State) (p c : Nat), c < (s.dp.rxPort p).pause.length → (s.dp.pauseOf p c).st = .paused →
    ∃ t, exec (.pauseTimerExpire p c) s = .next t ∧ t.sh = s.sh ∧ t.pending = s.pending ∧ { t.dp with rx := s.dp.rx } = s.dp ∧
      t.dp.pauseOf p c = {} ∧ ∀ k, k ≠ c → t.dp.pauseOf p k = s.dp.pauseOf p k) ∧
  (∀ (s : State) (p c : Nat), c < (s.dp.rxPort p).pause.length → (s.dp.pauseOf p c).st = .paused →
    ∃ t, exec (.pauseWatchdogExpire p c) s = .next t ∧ t.sh = s.sh ∧ t.pending = s.pending ∧ t.dp.frames = s.dp.frames ∧
      (∀ k, k ≠ c → t.dp.pauseOf p k = s.dp.pauseOf p k) ∧
      (s.dp.wdEn p c = true → (t.dp.pauseOf p c).st = .storm ∧ t.dp.rdBit F.penRxStormChg_CHG (slotOf p) (penOf p) = true ∧
        Tab.get t.dp.tally (128 * p + T.PAUSE_STORM) 0 = (Tab.get s.dp.tally (128 * p + T.PAUSE_STORM) 0 + s.dp.tallyStep p) % 2 ^ 56) ∧
      (s.dp.wdEn p c = false → t.dp.pauseOf p c = { s.dp.pauseOf p c with wLimit := true } ∧ t.dp.regs = s.dp.regs ∧
        t.dp.tally = s.dp.tally)) ∧
  (∀ (s : State) (p c : Nat), c < (s.dp.rxPort p).pause.length → (s.dp.pauseOf p c).st = .storm →
    s.dp.meets .pauseFrame (8 * p + c) = false →
    ∃ t, exec (.stormRestoreExpire p c) s = .next t ∧ t.sh = s.sh ∧ t.pending = s.pending ∧
      { t.dp with rx := s.dp.rx, regs := s.dp.regs } = s.dp ∧ t.dp.pauseOf p c = {} ∧
      t.dp.rdBit F.penRxStormChg_CHG (slotOf p) (penOf p) = true ∧ ∀ k, k ≠ c → t.dp.pauseOf p k = s.dp.pauseOf p k) ∧
  (∀ (s : State) (src : Src) (p c : Nat) (be : BitVec 4) (data : Word), c < 8 → (s.dp.rxPort p).pause.length = 8 →
    s.reaches src (Reg.penRxCtl.addr (penOf p) (slotOf p)) true = true → s.dp.carved p = true →
    ∃ t, exec (.watchdogEnableWrite src p be data) s = .next t ∧ t.sh.regs = s.sh.regs ∧ t.pending = s.pending ∧
      t.dp.frames = s.dp.frames ∧ t.dp.wdEn p c = data.getLsbD (8 + c) ∧
      (data.getLsbD (8 + c) = true → (s.dp.pauseOf p c).st = .paused → (s.dp.pauseOf p c).wLimit = true →
        (t.dp.pauseOf p c).st = .storm ∧ t.dp.rdBit F.penRxStormChg_CHG (slotOf p) (penOf p) = true) ∧
      (data.getLsbD (8 + c) = false → (s.dp.pauseOf p c).st = .storm →
        t.dp.pauseOf p c = {} ∧ t.dp.rdBit F.penRxStormChg_CHG (slotOf p) (penOf p) = true))

/-- O35: Pause, respond and verify frames that a port sends (PAUSE_REFRESH_EXPIRE, FC_MODE_WRITE,
CONTROL_FRAME_START). The refresh of an UP port with a flow control mode and a class in XOFF, and a write of
FC_MODE, make a pause or PFC frame pending. On a port that may send, outside near-end loopback and with nothing
in transmission, the pending control frame starts in the order pause or PFC, respond, verify: it is sent behind
seven bytes of 0x55 and its delimiter (0xD5, 0x19, 0x07), its tally counts, its request ends; a pause frame
records the XOFF set as announced, and one with nothing to announce is not sent. A pause frame carries opcode 1
and QUANTA. Rests on spec/13_transmit_mac.md R406, spec/13_transmit_mac.md R407, spec/13_transmit_mac.md R408,
spec/13_transmit_mac.md R412. -/
def Obligations.ControlFramesSent : Prop :=
  (∀ (s : State) (p : Nat), s.dp.fcMode p ≠ 0 → s.dp.rd F.celFcStat_XOFF p ≠ 0 → s.dp.linkState p = LS.up →
    ∃ t, exec (.pauseRefreshExpire p) s = .next t ∧ t.sh = s.sh ∧ t.pending = s.pending ∧ { t.dp with tx := s.dp.tx } = s.dp ∧
      t.dp.txPort p = { s.dp.txPort p with ctrlPend := true }) ∧
  (∀ (s : State) (src : Src) (n : Nat) (be : BitVec 4) (data : Word), n < 512 →
    s.reaches src (Reg.celPortCfg.addr n 0) true = true → s.dp.linkState n = LS.up →
    ∃ t, exec (.fcModeWrite src n be data) s = .next t ∧ t.sh.regs = s.sh.regs ∧ t.pending = s.pending ∧
      { t.dp with tx := s.dp.tx, regs := s.dp.regs } = s.dp ∧ (t.dp.txPort n).ctrlPend = true ∧
      t.dp.rd F.celPortCfg_FC_MODE n = F.celPortCfg_FC_MODE.of data) ∧
  (∀ (s : State) (p : Nat), s.dp.sendable p = true → (s.dp.txPort p).tail = none → s.dp.inService p true = none →
    s.dp.inService p false = none → s.dp.lpiBlocks p = false → s.dp.loopMode p ≠ 1 →
    ∃ t, exec (.controlFrameStart p) s = .next t ∧ t.sh = s.sh ∧ t.pending = s.pending ∧ t.dp.copies = s.dp.copies ∧
      t.dp.frames = s.dp.frames ∧
      ((s.dp.txPort p).ctrlPend = true → ∀ n bytes, s.dp.fcFrame p = some (n, bytes) →
        (t.dp.txPort p).ctrlPend = false ∧ (t.dp.txPort p).announced = s.dp.rd F.celFcStat_XOFF p ∧
        (t.dp.txPort p).last = [0x55, 0x55, 0x55, 0x55, 0x55, 0x55, 0x55, 0xD5] ++ bytes ∧ (t.dp.txPort p).lastErr = false ∧
        (t.dp.txPort p).respPend = (s.dp.txPort p).respPend ∧ (t.dp.txPort p).verPend = (s.dp.txPort p).verPend ∧
        Tab.get t.dp.tally (128 * p + n) 0 = (Tab.get s.dp.tally (128 * p + n) 0 + s.dp.tallyStep p) % 2 ^ 56) ∧
      ((s.dp.txPort p).ctrlPend = true → s.dp.fcFrame p = none →
        t.dp.txPort p = { s.dp.txPort p with ctrlPend := false } ∧ t.dp.tally = s.dp.tally) ∧
      ((s.dp.txPort p).ctrlPend = false → (s.dp.txPort p).respPend = true →
        (t.dp.txPort p).respPend = false ∧ (t.dp.txPort p).verPend = (s.dp.txPort p).verPend ∧
        (t.dp.txPort p).last = [0x55, 0x55, 0x55, 0x55, 0x55, 0x55, 0x55, 0x19] ++ mmFrameBytes ∧
        Tab.get t.dp.tally (128 * p + T.MM_RESPOND_TX) 0 =
          (Tab.get s.dp.tally (128 * p + T.MM_RESPOND_TX) 0 + s.dp.tallyStep p) % 2 ^ 56) ∧
      ((s.dp.txPort p).ctrlPend = false → (s.dp.txPort p).respPend = false → (s.dp.txPort p).verPend = true →
        (t.dp.txPort p).verPend = false ∧
        (t.dp.txPort p).last = [0x55, 0x55, 0x55, 0x55, 0x55, 0x55, 0x55, 0x07] ++ mmFrameBytes ∧
        Tab.get t.dp.tally (128 * p + T.MM_VERIFY_TX) 0 = (Tab.get s.dp.tally (128 * p + T.MM_VERIFY_TX) 0 + s.dp.tallyStep p) % 2 ^ 56)) ∧
  (∀ (d : Datapath) (p : Nat), d.fcMode p = 1 → d.rd F.celFcStat_XOFF p ≠ 0 →
    ∃ bytes, d.fcFrame p = some (T.TX_PAUSE, bytes) ∧ bytes.length = 64 ∧ be bytes 12 2 = 0x8808 ∧ be bytes 14 2 = 1 ∧
      be bytes 16 2 = d.quanta p)

/-- O36: Verification of the preemption ability (VERIFY_FRAME_RECEIVED, RESPOND_FRAME_RECEIVED, VERIFY_TIMER_EXPIRE,
VERIFY_RESTART, VERIFY_DISABLE). On a port outside near-end loopback: a valid verify frame makes a respond frame
pending where MM_RX_EN is 1; an invalid one is counted in MM_SMD_ERR. A valid respond frame in VERIFYING gives
SUCCEEDED and sets CHG. The verification timer sends another verify frame below the limit, else gives FAILED,
sets CHG and counts MM_VERIFY_FAIL. A write that reaches PEN_MM_CTL: with RESTART on an UP port with preemptable
classes begins VERIFYING with one try; with VERIFY_DIS it gives DISABLED. Rests on spec/07_receive_mac.md R230,
spec/13_transmit_mac.md R410, spec/13_transmit_mac.md R413, spec/13_transmit_mac.md R414. -/
def Obligations.MergeVerification : Prop :=
  (∀ (s : State) (p : Nat) (r bs : List Byte), (s.dp.rxPort p).mmFrame = some (0x07, r) → s.dp.loopMode p ≠ 1 →
    ∃ t, exec (.verifyFrameReceived p bs) s = .next t ∧ t.sh = s.sh ∧ t.pending = s.pending ∧ t.dp.frames = s.dp.frames ∧
      (t.dp.rxPort p).mmFrame = none ∧
      (mmValid (r ++ bs) = true → s.dp.flag F.penRxCtl_MM_RX_EN (penOf p) (slotOf p) = true →
        t.dp.txPort p = { s.dp.txPort p with respPend := true } ∧ t.dp.regs = s.dp.regs ∧ t.dp.tally = s.dp.tally) ∧
      (mmValid (r ++ bs) = false → t.dp.tx = s.dp.tx ∧
        Tab.get t.dp.tally (128 * p + T.MM_SMD_ERR) 0 = (Tab.get s.dp.tally (128 * p + T.MM_SMD_ERR) 0 + s.dp.tallyStep p) % 2 ^ 56)) ∧
  (∀ (s : State) (p : Nat) (r bs : List Byte), (s.dp.rxPort p).mmFrame = some (0x19, r) → mmValid (r ++ bs) = true →
    s.dp.verState p = VS.verifying → s.dp.loopMode p ≠ 1 →
    ∃ t, exec (.respondFrameReceived p bs) s = .next t ∧ t.sh = s.sh ∧ t.pending = s.pending ∧
      { t.dp with rx := s.dp.rx, regs := s.dp.regs } = s.dp ∧ (t.dp.rxPort p).mmFrame = none ∧
      t.dp.verState p = VS.succeeded ∧ t.dp.rdBit F.penMmChg_CHG (slotOf p) (penOf p) = true) ∧
  (∀ (s : State) (p : Nat), s.dp.verState p = VS.verifying →
    ∃ t, exec (.verifyTimerExpire p) s = .next t ∧ t.sh = s.sh ∧ t.pending = s.pending ∧
      (s.dp.rd F.penMmStat_TRIES (penOf p) (slotOf p) < max (s.dp.rd F.penMmCtl_VERIFY_LIMIT (penOf p) (slotOf p)) 1 →
        t.dp.verState p = VS.verifying ∧ t.dp.txPort p = { s.dp.txPort p with verPend := true } ∧
        t.dp.rd F.penMmStat_TRIES (penOf p) (slotOf p) = s.dp.rd F.penMmStat_TRIES (penOf p) (slotOf p) + 1 ∧
        { t.dp with tx := s.dp.tx, regs := s.dp.regs } = s.dp) ∧
      (max (s.dp.rd F.penMmCtl_VERIFY_LIMIT (penOf p) (slotOf p)) 1 ≤ s.dp.rd F.penMmStat_TRIES (penOf p) (slotOf p) →
        t.dp.verState p = VS.failed ∧ t.dp.rdBit F.penMmChg_CHG (slotOf p) (penOf p) = true ∧ t.dp.tx = s.dp.tx ∧
        Tab.get t.dp.tally (128 * p + T.MM_VERIFY_FAIL) 0 =
          (Tab.get s.dp.tally (128 * p + T.MM_VERIFY_FAIL) 0 + s.dp.tallyStep p) % 2 ^ 56)) ∧
  (∀ (s : State) (src : Src) (p : Nat) (be : BitVec 4) (data : Word),
    s.reaches src (Reg.penMmCtl.addr (penOf p) (slotOf p)) true = true → s.dp.carved p = true → s.dp.linkState p = LS.up →
    s.dp.pmPreemptTc p ≠ 0 → data.getLsbD 1 = false →
    ∃ t, exec (.verifyRestart src p be data) s = .next t ∧ t.sh.regs = s.sh.regs ∧ t.pending = s.pending ∧
      { t.dp with tx := s.dp.tx, regs := s.dp.regs } = s.dp ∧ t.dp.verState p = VS.verifying ∧
      t.dp.rd F.penMmStat_TRIES (penOf p) (slotOf p) = 1 ∧ (t.dp.txPort p).verPend = true) ∧
  (∀ (s : State) (src : Src) (p : Nat) (be : BitVec 4) (data : Word),
    s.reaches src (Reg.penMmCtl.addr (penOf p) (slotOf p)) true = true → s.dp.carved p = true →
    ∃ t, exec (.verifyDisable src p be data) s = .next t ∧ t.sh.regs = s.sh.regs ∧ t.pending = s.pending ∧
      { t.dp with tx := s.dp.tx, regs := s.dp.regs } = s.dp ∧ t.dp.verState p = VS.disabled ∧
      t.dp.flag F.penMmCtl_VERIFY_DIS (penOf p) (slotOf p) = true ∧ (t.dp.txPort p).verPend = false)

/-- O37: A copy on the wire of a line port (COPY_START, TX_UNDERRUN, TX_OVERSIZE_CUT, COPY_END, TX_FRAME_END). On a
port outside near-end loopback: the granted copy of a port that may send starts once the wire is free, enough is
read and its decrements can be judged; one whose frame has become bad (R210, R357), is known to be too long, or
that its edit drops (R319) ends unsent and counts BAD_DISCARD, TX_MTU_DROP or TTL_EXPIRED. That a granted copy
of a bad frame is still discarded here is the model's reading (log entry 60), as is the wait until its
decrements can be judged (log entry 87). A started copy whose next byte is missing ends with the stomp pattern
and counts TX_UNDERRUN; one that passes the length limit is cut with an error control character and counts
TX_OVERSIZE. A copy read to its end leaves its bytes to be sent and ends. The frame then ends, behind its
preamble and delimiter, with pad and its right FCS and counts TX_OK, or, where its data were bad, with the stomp
pattern and counts TX_STOMPED. None of them changes the shepherd. Rests on spec/13_transmit_mac.md R396,
spec/13_transmit_mac.md R397, spec/13_transmit_mac.md R398, spec/13_transmit_mac.md R400,
spec/13_transmit_mac.md R402, spec/13_transmit_mac.md R403, spec/13_transmit_mac.md R404, spec/07_receive_mac.md
R210, spec/11_cellar_and_lofts.md R357, spec/10_actions_edits_loop.md R319. -/
def Obligations.CopiesOnTheWire : Prop :=
  (∀ (s : State) (p cid : Nat) (express : Bool) (c : Copy) (x : Frame), s.dp.inService p express = some (cid, c) →
    s.dp.frame c.fid = some x → isLine p = true → c.started = false → s.dp.wireTaken p express = false →
    s.dp.lpiBlocks p = false → s.dp.sendable p = true → s.dp.dataReady c x = true → s.dp.tplReady c x = true →
    (express = false → s.dp.preHeld p = false) →
    ∃ t, exec (.copyStart p express) s = .next t ∧ t.sh = s.sh ∧ t.pending = s.pending ∧
      (c.isBad x = true → t.dp.copy cid = none ∧ (∀ k, k ≠ cid → t.dp.copy k = s.dp.copy k) ∧
        Tab.get t.dp.tally (128 * p + T.BAD_DISCARD) 0 = (Tab.get s.dp.tally (128 * p + T.BAD_DISCARD) 0 + s.dp.tallyStep p) % 2 ^ 56) ∧
      (c.isBad x = false → s.dp.mtuBad c x = true → t.dp.copy cid = none ∧ (∀ k, k ≠ cid → t.dp.copy k = s.dp.copy k) ∧
        Tab.get t.dp.tally (128 * p + T.TX_MTU_DROP) 0 = (Tab.get s.dp.tally (128 * p + T.TX_MTU_DROP) 0 + s.dp.tallyStep p) % 2 ^ 56) ∧
      (c.isBad x = false → s.dp.mtuBad c x = false →
        ∀ out, s.dp.outBytes { c with started := true, tplData := (c.tpl.map s.dp.line).getD [] } x = some out →
        t.dp.frames = s.dp.frames ∧ (∀ k, k ≠ cid → t.dp.copy k = s.dp.copy k) ∧
        ∃ c', t.dp.copy cid = some c' ∧ c'.started = true ∧ c'.fid = c.fid ∧ c'.q = c.q) ∧
      (c.isBad x = false → s.dp.mtuBad c x = false →
        s.dp.outBytes { c with started := true, tplData := (c.tpl.map s.dp.line).getD [] } x = none →
        t.dp.copy cid = none ∧ (∀ k, k ≠ cid → t.dp.copy k = s.dp.copy k) ∧
        Tab.get t.dp.tally (128 * p + T.TTL_EXPIRED) 0 = (Tab.get s.dp.tally (128 * p + T.TTL_EXPIRED) 0 + s.dp.tallyStep p) % 2 ^ 56)) ∧
  (∀ (s : State) (p cid n : Nat) (express : Bool) (c : Copy) (x : Frame), s.dp.inService p express = some (cid, c) →
    s.dp.frame c.fid = some x → c.started = true → c.kind ≠ 2 → readAll c x = false →
    (express = false → (s.dp.txPort p).away = false) → s.dp.loopMode p ≠ 1 →
    ∃ t, exec (.txUnderrun p express n) s = .next t ∧ t.sh = s.sh ∧ t.pending = s.pending ∧ t.dp.copy cid = none ∧
      (∀ k, k ≠ cid → t.dp.copy k = s.dp.copy k) ∧
      (t.dp.txPort p).last = preamble ((s.dp.txPort p).delim (!express)) ++
        s.dp.inFragment p c (frameOf (((s.dp.outBytes c x).getD []).take (min n (32 * c.read + s.dp.pushOf c x))) true) ∧
      (t.dp.txPort p).lastErr = false ∧
      Tab.get t.dp.tally (128 * p + T.TX_UNDERRUN) 0 = (Tab.get s.dp.tally (128 * p + T.TX_UNDERRUN) 0 + s.dp.tallyStep p) % 2 ^ 56) ∧
  (∀ (s : State) (p cid : Nat) (express : Bool) (c : Copy) (x : Frame), s.dp.inService p express = some (cid, c) →
    s.dp.frame c.fid = some x → c.started = true → c.kind ≠ 2 → c.flock = false →
    s.dp.flag F.penTxCtl_MTU_CHK (penOf p) (slotOf p) = true → (express = false → (s.dp.txPort p).away = false) →
    s.dp.loopMode p ≠ 1 → s.dp.effMaxLen p ((s.dp.outBytes c x).getD []) < max ((s.dp.outBytes c x).getD []).length 60 + 4 →
    ∃ t, exec (.txOversizeCut p express) s = .next t ∧ t.sh = s.sh ∧ t.pending = s.pending ∧ t.dp.copy cid = none ∧
      (t.dp.txPort p).lastErr = true ∧
      (∀ k, k ≠ cid → t.dp.copy k = s.dp.copy k) ∧
      Tab.get t.dp.tally (128 * p + T.TX_OVERSIZE) 0 = (Tab.get s.dp.tally (128 * p + T.TX_OVERSIZE) 0 + s.dp.tallyStep p) % 2 ^ 56) ∧
  (∀ (s : State) (p cid : Nat) (express : Bool) (c : Copy) (x : Frame), s.dp.inService p express = some (cid, c) →
    s.dp.frame c.fid = some x → isLine p = true → c.started = true → c.flock = false → readAll c x = true →
    (s.dp.txPort p).tail = none → (express = false → (s.dp.txPort p).away = false) →
    ∃ t w, exec (.copyEnd p express) s = .next t ∧ t.sh = s.sh ∧ t.pending = s.pending ∧ t.dp.copy cid = none ∧
      (∀ k, k ≠ cid → t.dp.copy k = s.dp.copy k) ∧ (t.dp.txPort p).tail = some w ∧
      w.bytes = (s.dp.outBytes c x).getD [] ∧ w.bad = decide (x.rxErr ≠ RC.none) ∧ w.flock = none ∧ w.pre = !express) ∧
  (∀ (s : State) (p : Nat) (w : TxTail), (s.dp.txPort p).tail = some w → w.flock = none → w.pre = false →
    s.dp.loopMode p ≠ 1 →
    ∃ t, exec (.txFrameEnd p) s = .next t ∧ t.sh = s.sh ∧ t.pending = s.pending ∧ t.dp.copies = s.dp.copies ∧
      t.dp.frames = s.dp.frames ∧ (t.dp.txPort p).tail = none ∧ 
      (t.dp.txPort p).last = [0x55, 0x55, 0x55, 0x55, 0x55, 0x55, 0x55, 0xD5] ++ frameOf w.bytes w.bad ∧
      (t.dp.txPort p).lastErr = false ∧
      (w.bad = false → Tab.get t.dp.tally (128 * p + T.TX_OK) 0 = (Tab.get s.dp.tally (128 * p + T.TX_OK) 0 + s.dp.tallyStep p) % 2 ^ 56) ∧
      (w.bad = true →
        Tab.get t.dp.tally (128 * p + T.TX_STOMPED) 0 = (Tab.get s.dp.tally (128 * p + T.TX_STOMPED) 0 + s.dp.tallyStep p) % 2 ^ 56)) ∧
  (∀ (bytes : List Byte) (stomp : Bool), (frameOf bytes stomp).length = max bytes.length 60 + 4 ∧
    (frameOf bytes stomp).take bytes.length = bytes)

/-- O38: A preemptable frame that makes way (FRAGMENT_END, PREEMPT_RESUME, PREEMPT_HOLD). Outside near-end loopback,
where preemption is active, the frame started with SMD-S, an express copy that is ready to start, a control
frame or a hold waits, the fragment would have 64 bytes and ADD_FRAG more and at least 60 known bytes stay, the
fragment ends after data byte k (that k is the first such byte is the command's to say, log entry 90), behind
preamble and delimiter, with its mCRC: its frame waits, and MM_PREEMPT and MM_FRAG_TX count. It resumes when no
express copy, control frame, tail or hold stands against it. The hold is taken for each express head copy whose
launch time is near and not due, and for none otherwise. The delimiter of a frame or fragment is SMD-E, SMD-S or
SMD-C with the fragment count (R227, R409, R416). Copies, frames and the shepherd stay. Rests on
spec/13_transmit_mac.md R415, spec/13_transmit_mac.md R416, spec/13_transmit_mac.md R417,
spec/13_transmit_mac.md R418, spec/13_transmit_mac.md R409, spec/07_receive_mac.md R227, spec/13_transmit_mac.md
R400. -/
def Obligations.Preemption : Prop :=
  (∀ (s : State) (p k cid : Nat) (c : Copy) (x : Frame), s.dp.inService p false = some (cid, c) →
    s.dp.frame c.fid = some x → s.dp.preemptActive p = true → (s.dp.txPort p).split = true → c.started = true →
    s.dp.loopMode p ≠ 1 →
    (s.dp.txPort p).away = false → (s.dp.txPort p).tail = none →
    s.dp.expressReady p = true ∨ s.dp.ctrlPending p = true ∨ s.dp.preHeld p = true → (s.dp.txPort p).sentTo ≤ k →
    64 * (1 + s.dp.rd F.penMmCtl_ADD_FRAG (penOf p) (slotOf p)) ≤ k + 1 - (s.dp.txPort p).sentTo + 4 →
    k + 1 + 60 ≤ s.dp.heldBytes c x → k + 1 ≤ ((s.dp.outBytes c x).getD []).length →
    ∃ t, exec (.fragmentEnd p k) s = .next t ∧ t.sh = s.sh ∧ t.pending = s.pending ∧ t.dp.copies = s.dp.copies ∧
      t.dp.frames = s.dp.frames ∧
      (t.dp.txPort p).away = true ∧ (t.dp.txPort p).sentTo = k + 1 ∧ (t.dp.txPort p).frags = (s.dp.txPort p).frags + 1 ∧
      (t.dp.txPort p).last = preamble ((s.dp.txPort p).delim true) ++
        (((s.dp.outBytes c x).getD []).take (k + 1)).drop (s.dp.txPort p).sentTo ++
        leBytes 4 (crc32 (((s.dp.outBytes c x).getD []).take (k + 1)) ^^^ 0x0000FFFF) ∧
      Tab.get t.dp.tally (128 * p + T.MM_PREEMPT) 0 = (Tab.get s.dp.tally (128 * p + T.MM_PREEMPT) 0 + s.dp.tallyStep p) % 2 ^ 56 ∧
      Tab.get t.dp.tally (128 * p + T.MM_FRAG_TX) 0 = (Tab.get s.dp.tally (128 * p + T.MM_FRAG_TX) 0 + s.dp.tallyStep p) % 2 ^ 56) ∧
  (∀ (s : State) (p : Nat), (s.dp.txPort p).away = true → s.dp.inService p true = none → s.dp.ctrlPending p = false →
    (s.dp.txPort p).tail = none → s.dp.preHeld p = false →
    ∃ t, exec (.preemptResume p) s = .next t ∧ t.sh = s.sh ∧ t.pending = s.pending ∧ { t.dp with tx := s.dp.tx } = s.dp ∧
      t.dp.txPort p = { s.dp.txPort p with away := false }) ∧
  (∀ (s : State) (p : Nat), s.dp.preemptActive p = true → s.dp.nearLaunch s.lead p ≠ [] →
    ∃ t, exec (.preemptHold p) s = .next t ∧ t.sh = s.sh ∧ t.pending = s.pending ∧ { t.dp with tx := s.dp.tx } = s.dp ∧
      (∀ n, n ∈ (t.dp.txPort p).hold ↔ n ∈ (s.dp.txPort p).hold ∨ n ∈ s.dp.nearLaunch s.lead p) ∧
      ({ t.dp.txPort p with hold := (s.dp.txPort p).hold } : TxPort) = s.dp.txPort p) ∧
  (∀ (s : State) (p : Nat), s.dp.nearLaunch s.lead p = [] → exec (.preemptHold p) s = .next s) ∧
  (∀ t : TxPort, (t.split = false → t.delim true = [0xD5]) ∧ t.delim false = [0xD5] ∧
    (t.split = true → t.frags = 0 → t.delim true = [byteAt [0xE6, 0x4C, 0x7F, 0xB3] ((t.smd + 3) % 4)]) ∧
    (t.split = true → t.frags ≠ 0 → t.delim true = [byteAt [0x61, 0x52, 0x2A, 0x9E] ((t.smd + 3) % 4),
      byteAt [0xE6, 0x4C, 0x7F, 0xB3] ((t.frags + 3) % 4)]))

/-- O39: A pass up to its verdict (PARSE_START, GRAZE_BLOCK_SCAN, GRAZE_DEADLINE, LOOKUP_ISSUE, LOOKUP_RESULT). A
parse slot takes the pen's earliest ready frame, stamps it with the verdict epoch and starts a pass with the
selected profile's key vector; where no profile is selected and DEF_MODE is 0 the frame leaves, counted in
PARSE_NO_PROFILE and PARSE_DEF_DROP. A held or gated pen, one whose pipeline holds, and a block that is quiet or
has no image in force start none; slot 1 takes a frame only behind one that slot 0 took in the same clock. The
grazer scans the next block of the oldest window that has one; the deadline of the oldest pass closes its window
once the bytes have arrived and its lookups are done, with the result of the blocks scanned. A lookup alone in a
clock reads its two buckets in the copy its pass sees, and delivers their hit or miss. None changes the
shepherd. Rests on spec/08_parser_and_grazer.md R236, spec/08_parser_and_grazer.md R242,
spec/08_parser_and_grazer.md R247, spec/08_parser_and_grazer.md R251, spec/08_parser_and_grazer.md R260,
spec/08_parser_and_grazer.md R262, spec/09_larder_tables.md R273, spec/09_larder_tables.md R274. -/
def Obligations.ParsePasses : Prop :=
  (∀ (s : State) (pen slot f : Nat) (rest : List Nat) (x : Frame), s.quiet = false → s.forwards = true → s.penHeld pen = false →
    pen ∉ s.dp.gated → s.dp.pipeHolds pen = false → s.dp.readyOf pen = f :: rest → f ∉ rest → s.dp.frame f = some x →
    x.inPen = pen → x.transit = false → x.info.pass = 1 → isLoop x.info.port = false →
    ∃ t, exec (.parseStart pen slot) s = .next t ∧ t.sh = s.sh ∧ t.pending = s.pending ∧ t.dp.copies = s.dp.copies ∧
      t.dp.readyOf pen = rest ∧
      (∀ prof kv sv, s.dp.sortSelect pen (s.dp.sortKey pen { x with epoch := s.dp.rd F.larEpoch_CUR, inside := true }
          (s.dp.hintOf x) (dataEndOf x)) = some prof →
        s.dp.runProfile pen prof { x with epoch := s.dp.rd F.larEpoch_CUR, inside := true } (s.dp.hintOf x) (dataEndOf x) =
          .ok prof kv sv →
        t.dp.frame f = some { x with epoch := s.dp.rd F.larEpoch_CUR, inside := true } ∧
        ∃ p, t.dp.passesOf pen = s.dp.passesOf pen ++ [p] ∧ p.fid = f ∧ p.slot = s.dp.slotFor pen slot ∧ p.profile = prof ∧ p.kv = kv ∧
          p.live = s.dp.lar.live ∧ p.failed = false) ∧
      (s.dp.sortSelect pen (s.dp.sortKey pen { x with epoch := s.dp.rd F.larEpoch_CUR, inside := true }
          (s.dp.hintOf x) (dataEndOf x)) = none → s.dp.defMode x.info.port = 0 →
        t.dp.frame f = none ∧ t.dp.passes = s.dp.passes ∧
        Tab.get t.dp.tally (128 * x.info.port + T.PARSE_NO_PROFILE) 0 =
          (Tab.get s.dp.tally (128 * x.info.port + T.PARSE_NO_PROFILE) 0 + s.dp.tallyStep x.info.port) % 2 ^ 56 ∧
        Tab.get t.dp.tally (128 * x.info.port + T.PARSE_DEF_DROP) 0 =
          (Tab.get s.dp.tally (128 * x.info.port + T.PARSE_DEF_DROP) 0 + s.dp.tallyStep x.info.port) % 2 ^ 56)) ∧
  (∀ (s : State) (pen slot : Nat), s.quiet = true ∨ s.forwards = false ∨ s.penHeld pen = true ∨ pen ∈ s.dp.gated ∨ s.dp.pipeHolds pen = true →
    exec (.parseStart pen slot) s = .next s) ∧
  (∀ (s : State) (pen : Nat) (p : Pass) (rest : List Pass) (x : Frame) (w : Window), s.dp.passesOf pen = p :: rest →
    s.dp.frame p.fid = some x → scannable x p = true → p.window = some w →
    ∃ t, exec (.grazeBlockScan pen) s = .next t ∧ t.sh = s.sh ∧ t.pending = s.pending ∧ t.dp.frames = s.dp.frames ∧
      t.dp.passesOf pen = { p with window := some { w with blocks := w.blocks + 1 } } :: rest) ∧
  (∀ (s : State) (pen : Nat) (p : Pass) (rest : List Pass) (x : Frame) (w : Window), s.dp.passesOf pen = p :: rest →
    s.dp.frame p.fid = some x → p.window = some w → w.closed = false → (windowBytes x p w).2 = true → p.lookupsDone = true →
    ∃ t, exec (.grazeDeadline pen 0) s = .next t ∧ t.sh = s.sh ∧ t.pending = s.pending ∧ t.dp.frames = s.dp.frames ∧
      t.dp.passesOf pen = { p with
        window := some { w with closed := true }
        graze := grazeResult (s.dp.patternsOf pen) (windowBytes x p w).1
          (min (64 * w.blocks) (windowBytes x p w).1.length) } :: rest) ∧
  (∀ (s : State) (w : Waiter) (p : Pass) (l : Lookup), s.dp.waiters = [w] → (s.dp.passesOf w.pen)[w.idx]? = some p →
    p.lookups[w.pos]? = some l → s.dp.lar.eng = none →
    ∃ t p' l', exec .lookupIssue s = .next t ∧ t.sh = s.sh ∧ t.pending = s.pending ∧ t.dp.lar = s.dp.lar ∧
      t.dp.frames = s.dp.frames ∧ (t.dp.passesOf w.pen)[w.idx]? = some p' ∧ p'.lookups[w.pos]? = some l' ∧
      l'.st = .reading (s.dp.lookup l.table (p.copyOf l.table) l.key).1 (s.dp.lookup l.table (p.copyOf l.table) l.key).2 ∧
      l'.key = l.key) ∧
  (∀ (s : State) (pen idx pos : Nat) (p : Pass) (l : Lookup) (hit : Bool) (r : List Byte),
    (s.dp.passesOf pen)[idx]? = some p → p.lookups[pos]? = some l → l.st = .reading hit r →
    ∃ t p', exec (.lookupResult pen idx pos) s = .next t ∧ t.sh = s.sh ∧ t.pending = s.pending ∧ t.dp.lar = s.dp.lar ∧
      t.dp.frames = s.dp.frames ∧ (t.dp.passesOf pen)[idx]? = some p' ∧
      p'.lookups[pos]? = some { l with st := .done hit r })

/-- O40: The merge of the head pass of a pen, and the meter refresh (VERDICT_MERGE, METER_REFRESH). Of a pass on a
line or client port whose lookups are done: one whose merge gives DROP leaves with its frame, counted. One whose
merge forwards its frame to one valid line port, and asks for nothing else, ends: where no test of admission
refuses it, the frame is admitted with a frame record and a new copy of its class and colour waits in the port's
class queue; where the target is not valid the frame leaves, FWD_BAD_TARGET counts and TARGET_ERR is set. The
refresh updates every meter to the present tick, as a frame of no bytes would. Rests on
spec/10_actions_edits_loop.md R304, spec/10_actions_edits_loop.md R307, spec/11_cellar_and_lofts.md R345,
spec/10_actions_edits_loop.md R315. -/
def Obligations.VerdictMergeForwards : Prop :=
  (∀ (s : State) (pen len : Nat) (p : Pass) (rest : List Pass) (x : Frame) (m : Merged), s.dp.passesOf pen = p :: rest →
    s.dp.frame p.fid = some x → Datapath.mergeReady p x = true → isLoop x.info.port = false → p.failed = false → p.window = none → p.graze.state ≠ 2 →
    s.dp.merge pen x p = m → m.drop = some T.VERDICT_DROP → m.default' = false → m.ckBad = false → m.v.count = none →
    m.v.sample = none →
    ∃ t, exec (.verdictMerge pen len) s = .next t ∧ t.sh = s.sh ∧ t.pending = s.pending ∧ t.dp.copies = s.dp.copies ∧
      t.dp.passesOf pen = rest ∧ t.dp.frame p.fid = none ∧
      Tab.get t.dp.tally (128 * x.info.port + T.VERDICT_DROP) 0 =
        (Tab.get s.dp.tally (128 * x.info.port + T.VERDICT_DROP) 0 + s.dp.tallyStep x.info.port) % 2 ^ 56) ∧
  (∀ (s : State) (pen len port queue : Nat) (qvalid : Bool) (p : Pass) (rest : List Pass) (x : Frame) (m : Merged)
    (d : Datapath), s.dp.passesOf pen = p :: rest → s.dp.frame p.fid = some x → Datapath.mergeReady p x = true →
    isLoop x.info.port = false → p.failed = false → p.window = none → p.graze.state ≠ 2 → x.strip = none → x.tx = none → s.dp.merge pen x p = m →
    m.drop = none → m.default' = false → m.ckBad = false → m.v.fwd = some ⟨0, port, queue, qvalid⟩ → m.v.edit = none →
    m.v.loop = none → m.v.meter = none → m.v.count = none → m.v.sample = none → m.v.ts = none → m.v.tc < 8 → m.v.colour < 3 → port < 512 →
    d = (s.dp.setPasses pen rest).setFrame p.fid x →
    ∃ t, exec (.verdictMerge pen len) s = .next t ∧ t.sh = s.sh ∧ t.pending = s.pending ∧ t.dp.passesOf pen = rest ∧
      (s.dp.validTarget port = true → d.discarding (8 * port + m.v.tc) = false → d.noRecord = false →
        d.noLanding x = false → d.overThreshold (8 * port + m.v.tc) (d.rd F.celQCfg_POOL (8 * port + m.v.tc))
          (d.rd F.celQCfg_MIN (8 * port + m.v.tc)) = false →
        d.flag F.celRedLo_EN (3 * d.rd F.celQCfg_RED (8 * port + m.v.tc) + m.v.colour) = false →
        (d.pmExpressTc port).testBit m.v.tc = false →
        (∃ c, t.dp.copy s.dp.nextCopy = some c ∧ c.fid = p.fid ∧ c.q = 8 * port + m.v.tc ∧ c.colour = m.v.colour ∧
          c.granted = false) ∧ t.dp.nextCopy = s.dp.nextCopy + 1 ∧
        ∃ y, t.dp.frame p.fid = some y ∧ y.admitted = true ∧ y.record = true ∧ y.queue = 8 * port + m.v.tc ∧
          y.bytes = x.bytes) ∧
      (s.dp.validTarget port = false → t.dp.frame p.fid = none ∧ t.dp.copies = s.dp.copies ∧ t.dp.rd F.actEvt_TARGET_ERR = 1 ∧
        Tab.get t.dp.tally (128 * x.info.port + T.FWD_BAD_TARGET) 0 =
          (Tab.get s.dp.tally (128 * x.info.port + T.FWD_BAD_TARGET) 0 + s.dp.tallyStep x.info.port) % 2 ^ 56)) ∧
  (∀ s : State, Tab.rising s.dp.meters = true →
    ∃ t, exec .meterRefresh s = .next t ∧ t.sh = s.sh ∧ t.pending = s.pending ∧
      { t.dp with meters := s.dp.meters, meterLast := s.dp.meterLast } = s.dp ∧
      ∀ k, t.dp.meterRec k = (meterStep (s.dp.meterRec k) s.sh.tick 0 0 false).1)

/-- O41: The commands of ACT_CMD and the samplers (LOOKUP_LINE_READ, LINE_WRITE, METER_READ, METER_WRITE, FC_READ,
FC_READ_CLEAR, FC_WRITE, SAMPLER_CONFIG). Each command that reaches ACT_CMD, on an index within its range,
reports OK. LINE_READ loads the line into ACT_DATA, LINE_WRITE stores ACT_DATA in that line alone; METER_READ
and METER_WRITE do so for a meter's record, FC_READ and FC_WRITE for a flow counter, and FC_READ_CLEAR also
clears it. An index beyond the range reports BAD_INDEX and nothing else changes. A write of ACT_SAMP_CFG loads
the countdown with N - 1 modulo 2^24. Rests on spec/10_actions_edits_loop.md R321, spec/10_actions_edits_loop.md
R328. -/
def Obligations.ActTableCommands : Prop :=
  (∀ (s : State) (src : Src) (i : Nat), s.reaches src (Reg.actCmd.addr 0 0) true = true → i < 4096 →
    ∃ t u, exec (.lookupLineRead src i) s = .next t ∧ exec (.lineWrite src i) s = .next u ∧ t.sh.regs = s.sh.regs ∧
      t.pending = s.pending ∧ u.pending = s.pending ∧ { t.dp with regs := s.dp.regs } = s.dp ∧ t.dp.rd F.actStat_CODE = 0 ∧
      (∀ w, w < 32 → t.dp.rd F.actData_DATA w = le (s.dp.line i) (4 * w) 4) ∧
      { u.dp with regs := s.dp.regs, lines := s.dp.lines } = s.dp ∧ u.dp.rd F.actStat_CODE = 0 ∧ u.dp.line i = s.dp.actData ∧
      ∀ k, k ≠ i → u.dp.line k = s.dp.line k) ∧
  (∀ (s : State) (src : Src) (i : Nat), s.reaches src (Reg.actCmd.addr 0 0) true = true → i < 16384 →
    ∃ t u, exec (.meterRead src i) s = .next t ∧ exec (.meterWrite src i) s = .next u ∧ t.sh.regs = s.sh.regs ∧
      t.pending = s.pending ∧ u.pending = s.pending ∧ { t.dp with regs := s.dp.regs } = s.dp ∧ t.dp.rd F.actStat_CODE = 0 ∧
      (∀ w, w < (s.dp.meterRec i).length / 4 → w < 32 → t.dp.rd F.actData_DATA w = le (s.dp.meterRec i) (4 * w) 4) ∧
      { u.dp with regs := s.dp.regs, meters := s.dp.meters } = s.dp ∧ u.dp.rd F.actStat_CODE = 0 ∧
      u.dp.meterRec i = s.dp.actData.take 32 ∧ ∀ k, k ≠ i → u.dp.meterRec k = s.dp.meterRec k) ∧
  (∀ (s : State) (src : Src) (i : Nat), s.reaches src (Reg.actCmd.addr 0 0) true = true → i < 131072 →
    ∃ t u v, exec (.fcRead src i) s = .next t ∧ exec (.fcReadClear src i) s = .next u ∧ exec (.fcWrite src i) s = .next v ∧
      t.pending = s.pending ∧ u.pending = s.pending ∧ v.pending = s.pending ∧ { t.dp with regs := s.dp.regs } = s.dp ∧
      { u.dp with regs := s.dp.regs, flow := s.dp.flow } = s.dp ∧ u.dp.regs = t.dp.regs ∧ t.dp.rd F.actStat_CODE = 0 ∧
      (∀ w, w < 2 → t.dp.rd F.actData_DATA w = (Tab.get s.dp.flow i (0, 0)).1 / 2 ^ (32 * w) % 2 ^ 32 ∧
        t.dp.rd F.actData_DATA (2 + w) = (Tab.get s.dp.flow i (0, 0)).2 / 2 ^ (32 * w) % 2 ^ 32) ∧
      Tab.get u.dp.flow i (0, 0) = (0, 0) ∧ (∀ k, k ≠ i → Tab.get u.dp.flow k (0, 0) = Tab.get s.dp.flow k (0, 0)) ∧
      { v.dp with regs := s.dp.regs, flow := s.dp.flow } = s.dp ∧ v.dp.rd F.actStat_CODE = 0 ∧
      Tab.get v.dp.flow i (0, 0) = (le s.dp.actData 0 8, le s.dp.actData 8 8) ∧
      ∀ k, k ≠ i → Tab.get v.dp.flow k (0, 0) = Tab.get s.dp.flow k (0, 0)) ∧
  (∀ (s : State) (src : Src) (i : Nat) (c : Instr), s.reaches src (Reg.actCmd.addr 0 0) true = true → i < 131072 →
    (4096 ≤ i ∧ (c = .lookupLineRead src i ∨ c = .lineWrite src i)) ∨
    (16384 ≤ i ∧ (c = .meterRead src i ∨ c = .meterWrite src i)) →
    ∃ t, exec c s = .next t ∧ t.dp = s.dp.wr F.actStat_CODE 1 ∧ t.pending = s.pending) ∧
  (∀ (s : State) (src : Src) (k : Nat) (be : BitVec 4) (data : Word), s.reaches src (Reg.actSampCfg.addr k 0) true = true →
    ∃ t, exec (.samplerConfig src k be data) s = .next t ∧ t.sh.regs = s.sh.regs ∧ t.pending = s.pending ∧
      { t.dp with regs := s.dp.regs } = s.dp ∧
      t.dp.rd F.actSampLeft_C k = (t.dp.rd F.actSampCfg_N k + 2 ^ 24 - 1) % 2 ^ 24)

/-- O42: The command engine (INSERT, DELETE, FIND, WRITE_AT, READ_AT, HASH, LAR_COMMAND_ACCEPT, LAR_COMMAND_TIMEOUT,
LAR_COMMAND_END). An idle engine takes the command with LAR_STAGE and LAR_LOC as they stand, behind the seed
writes that wait for its copy; a busy one holds the write. A held write is taken when the engine is idle, or
answered with BUSY and ERROR after its limit. A command that a test of R282 is against ends with that test's
code and ERROR, with DOMAIN_OFF where PD16 is off and it is not HASH, and the tables stay. One that waits for
its copy or whose reads are not all done goes on. Else it ends: INSERT updates the entry of its key, or places
it in the free slot, or gives NO_ROOM; DELETE clears the entries of its key, or gives NOT_FOUND; FIND in the
first candidate and READ_AT load the entry into LAR_STAGE; WRITE_AT stores a valid staged entry; HASH gives the
two candidates. Each end frees the engine. Rests on spec/09_larder_tables.md R281, spec/09_larder_tables.md
R282, spec/09_larder_tables.md R283, spec/09_larder_tables.md R284, spec/09_larder_tables.md R285. -/
def Obligations.LarderEngine : Prop :=
  (∀ (s : State) (src : Src) (op table copy : Nat) (c : Instr), s.reaches src (Reg.larCmd.addr 0 0) true = true →
    (op, c) ∈ [(1, .insert src table copy), (2, .delete src table copy), (3, .find src table copy),
      (4, .writeAt src table copy), (5, .readAt src table copy), (6, .hash src table copy)] →
    ∃ t, exec c s = .next t ∧ t.pending = s.pending ∧ t.sh.regs = s.sh.regs ∧
      { t.dp with lar := s.dp.lar } = s.dp ∧
      (s.dp.lar.eng = none → t.dp.lar = { s.dp.lar with eng := some {
        op := op
        table := table % 16
        copy := copy % 2
        loc := (RegFile.word s.dp.regs .larLoc 0 0).toNat
        stage := s.dp.larStage
        behind := s.dp.seedWaits (table % 16) (copy % 2) } }) ∧
      (s.dp.lar.eng ≠ none → t.sh = s.sh ∧ t.dp.lar = { s.dp.lar with
        cmdWait := s.dp.lar.cmdWait ++ [(src, copy % 2 * 2 ^ 12 + table % 16 * 2 ^ 8 + op)] })) ∧
  (∀ (s : State) (src : Src) (w : Nat) (rest : List (Src × Nat)), s.dp.lar.cmdWait = (src, w) :: rest → s.dp.lar.eng = none →
    s.dp.hdm.run = none →
    ∃ t, exec .larCommandAccept s = .next t ∧ t.pending = s.pending ∧ { t.dp with lar := s.dp.lar } = s.dp ∧
      t.dp.lar = { s.dp.lar with
        cmdWait := rest
        eng := some {
          op := fieldOf w 3 0
          table := fieldOf w 11 8
          copy := fieldOf w 12 12
          loc := (RegFile.word s.dp.regs .larLoc 0 0).toNat
          stage := s.dp.larStage
          behind := s.dp.seedWaits (fieldOf w 11 8) (fieldOf w 12 12) } }) ∧
  (∀ (s : State) (m : RPort) (w : Nat), (Src.port m, w) ∈ s.dp.lar.cmdWait →
    ∃ t, exec (.larCommandTimeout m) s = .next t ∧ t.pending = s.pending ∧ t.dp.lar.eng = s.dp.lar.eng ∧
      t.dp.lar.cmdWait = s.dp.lar.cmdWait.filter (fun x => x.1 ≠ Src.port m) ∧ t.dp.rd F.larStat_CODE = LC.busy ∧
      t.dp.rd F.larEvt_ERROR = 1) ∧
  (∀ (s : State) (e : LarCmd) (g : Geom), s.dp.lar.eng = some e → s.dp.larTest e (s.sh.domOn 16) = none →
    s.dp.geom e.table = some g → s.dp.larWaits e = false → (s.dp.larReads e).length ≤ e.reads →
    ∃ t, exec .larCommandEnd s = .next t ∧ t.sh = s.sh ∧ t.pending = s.pending ∧ t.dp.lar.eng = none ∧
      (e.op = 1 → ∀ b k i, s.dp.insertPlan e.table e.copy g (slice e.stage 4 g.kw) = .update b k i →
        t.dp.lar = { s.dp.lar.putEntry g b (g.phys e.copy k) i (entryWith true (slice e.stage 0 g.es)) with eng := none } ∧
        t.dp.rd F.larStat_CODE = LC.updated ∧ t.dp.rd F.larEvt_DONE = 1) ∧
      (e.op = 1 → ∀ n, s.dp.insertPlan e.table e.copy g (slice e.stage 4 g.kw) = .fail n →
        t.dp.lar = { s.dp.lar with eng := none } ∧ t.dp.rd F.larStat_CODE = LC.noRoom ∧ t.dp.rd F.larEvt_ERROR = 1) ∧
      (e.op = 1 → ∀ b k i, s.dp.insertPlan e.table e.copy g (slice e.stage 4 g.kw) = .place b k i →
        t.dp.lar = { s.dp.lar.putEntry g b (g.phys e.copy k) i (entryWith true (slice e.stage 0 g.es)) with eng := none } ∧
        t.dp.rd F.larStat_CODE = LC.ok ∧ t.dp.rd F.larEvt_DONE = 1 ∧ t.dp.rd F.larLoc_BANK = b % 2 ^ 8 ∧
        t.dp.rd F.larLoc_BUCKET = k % 2 ^ 10 ∧ t.dp.rd F.larLoc_SLOT = i % 2 ^ 2) ∧
      (e.op = 2 → ∀ c0 c1, s.dp.candidate e.table e.copy g (slice e.stage 4 g.kw) 0 = c0 →
        s.dp.candidate e.table e.copy g (slice e.stage 4 g.kw) 1 = c1 →
        (s.dp.lookup e.table e.copy (slice e.stage 4 g.kw)).1 = true →
        t.dp.lar = { ((s.dp.larClearKey e.copy g (slice e.stage 4 g.kw) c0).larClearKey e.copy g (slice e.stage 4 g.kw) c1).lar with
          eng := none } ∧ t.dp.rd F.larStat_CODE = LC.ok ∧ t.dp.rd F.larEvt_DONE = 1) ∧
      (e.op = 2 → (s.dp.lookup e.table e.copy (slice e.stage 4 g.kw)).1 = false →
        t.dp.lar = { s.dp.lar with eng := none } ∧ t.dp.rd F.larStat_CODE = LC.notFound ∧ t.dp.rd F.larEvt_ERROR = 1) ∧
      (e.op = 3 → ∀ q k, s.dp.candidate e.table e.copy g (slice e.stage 4 g.kw) 0 = q →
        g.matchSlot (s.dp.lar.bucket q.1 (g.phys e.copy q.2)) (slice e.stage 4 g.kw) = some k →
        t.dp.lar = { s.dp.lar with eng := none } ∧ t.dp.rd F.larStat_CODE = LC.ok ∧ t.dp.rd F.larEvt_DONE = 1 ∧
        ∀ w, w < 16 → t.dp.rd F.larStage_DATA w =
          le (g.entry (s.dp.lar.bucket q.1 (g.phys e.copy q.2)) k) (4 * w) 4) ∧
      (e.op = 4 ∨ e.op = 5 → t.dp.rd F.larStat_CODE = LC.ok ∧ t.dp.rd F.larEvt_DONE = 1 ∧
        (e.op = 5 → t.dp.lar.buckets = s.dp.lar.buckets ∧ ∀ w, w < 16 → t.dp.rd F.larStage_DATA w =
          le (g.entry (s.dp.lar.bucket (fieldOf e.loc 23 16) (g.phys e.copy (fieldOf e.loc 11 2))) (fieldOf e.loc 1 0))
            (4 * w) 4) ∧
        (e.op = 4 → entryValid (slice e.stage 0 g.es) = true →
          t.dp.lar = { s.dp.lar.putEntry g (fieldOf e.loc 23 16) (g.phys e.copy (fieldOf e.loc 11 2)) (fieldOf e.loc 1 0)
            (entryWith true (slice e.stage 0 g.es)) with eng := none })) ∧
      (e.op = 6 → ∀ c, c < 2 →
        t.dp.rd F.larCand_BANK c = (s.dp.candidate e.table e.copy g (slice e.stage 4 g.kw) c).1 % 2 ^ 8 ∧
        t.dp.rd F.larCand_BUCKET c = (s.dp.candidate e.table e.copy g (slice e.stage 4 g.kw) c).2 % 2 ^ 10)) ∧
  (∀ (s : State) (e : LarCmd) (c : Nat), s.dp.lar.eng = some e → s.dp.larTest e (s.sh.domOn 16) = some c →
    ∃ t, exec .larCommandEnd s = .next t ∧ t.sh = s.sh ∧ t.pending = s.pending ∧
      t.dp.lar = { s.dp.lar with eng := none } ∧ t.dp.rd F.larStat_CODE = c ∧ t.dp.rd F.larEvt_ERROR = 1) ∧
  (∀ (s : State) (e : LarCmd), s.dp.lar.eng = some e → s.dp.larTest e (s.sh.domOn 16) = none →
    s.dp.larWaits e = true ∨ e.reads < (s.dp.larReads e).length → exec .larCommandEnd s = .next s) ∧
  (∀ (s : State) (e : LarCmd), s.dp.lar.eng = some e → s.sh.domOn 16 = false → 1 ≤ e.op → e.op < 6 →
    ∃ t, exec .larCommandEnd s = .next t ∧ t.sh = s.sh ∧ t.pending = s.pending ∧
      t.dp.lar = { s.dp.lar with eng := none } ∧ t.dp.rd F.larStat_CODE = LC.domainOff ∧ t.dp.rd F.larEvt_ERROR = 1)

/-- O43: Attic, copies, seeds, epoch (ATTIC_PUSH, ATTIC_PUSH_TIMEOUT, ATTIC_WRITE, LIVE_WRITE, FLIP, COPY_SETTLE,
CSEED_WRITE, EPOCH_REQUEST, EPOCH_ADVANCE). A push of a record for a copy that is not live, of a table with an
attic, in a bank and bucket of it, enters the FIFO; any other sets ATTIC_REJECT; with 64 records it is held, and
discarded with ATTIC_REJECT after its limit. The loader, whose head record's bank the engine does not write in
the clock, writes it as one bucket, and the push held first then enters; a settling copy holds it. A LAR_LIVE
write waits for its flip, which makes its value live and begins the settling of each copy that was live; a copy
settles when no pass from before the flip still waits. A seed of a copy that is not live and has settled takes
effect, and of one that settles it waits; of a live copy, or of a table without an attic, it is refused with
ATTIC_REJECT. An epoch request waits its turn and then advances CUR, or is refused with EPOCH_REFUSED at 15
epochs. Rests on spec/09_larder_tables.md R287, spec/09_larder_tables.md R288, spec/09_larder_tables.md R289,
spec/09_larder_tables.md R290, spec/09_larder_tables.md R291, spec/09_larder_tables.md R296. -/
def Obligations.AtticLiveAndEpoch : Prop :=
  (∀ (s : State) (src : Src) (be : BitVec 4) (data : Word) (d : Datapath), s.reaches src (Reg.larAttic.addr 15 0) true = true →
    d = s.dp.writeAtticWord .larAttic 15 be data →
    ∃ t, exec (.atticPush src be data) s = .next t ∧ t.pending = s.pending ∧ t.sh.regs = s.sh.regs ∧
      (64 ≤ s.dp.lar.fifo.length → t.sh = s.sh ∧ t.dp.lar = { s.dp.lar with pushWait := s.dp.lar.pushWait ++ [(src, d.atticRecord)] }) ∧
      (s.dp.lar.fifo.length < 64 → ∀ g, s.dp.geom d.atticRecord.table = some g →
        (g.attic = true ∧ b2n (s.dp.lar.live.testBit d.atticRecord.table) ≠ d.atticRecord.copy ∧
          g.hasBank d.atticRecord.bank = true ∧ d.atticRecord.bucket < g.rows →
          t.dp.lar = { s.dp.lar with fifo := s.dp.lar.fifo ++ [d.atticRecord] }) ∧
        (g.attic = false ∨ b2n (s.dp.lar.live.testBit d.atticRecord.table) = d.atticRecord.copy ∨
          g.hasBank d.atticRecord.bank = false ∨ g.rows ≤ d.atticRecord.bucket →
          t.dp.lar = s.dp.lar ∧ t.dp.rd F.larEvt_ATTIC_REJECT = 1)) ∧
      (s.dp.lar.fifo.length < 64 → s.dp.geom d.atticRecord.table = none →
        t.dp.lar = s.dp.lar ∧ t.dp.rd F.larEvt_ATTIC_REJECT = 1)) ∧
  (∀ (s : State) (m : RPort) (r : AtticRec), (Src.port m, r) ∈ s.dp.lar.pushWait →
    ∃ t, exec (.atticPushTimeout m) s = .next t ∧ t.pending = s.pending ∧ t.dp.rd F.larEvt_ATTIC_REJECT = 1 ∧
      t.dp.lar = { s.dp.lar with pushWait := s.dp.lar.pushWait.filter (fun w => w.1 ≠ Src.port m) }) ∧
  (∀ (s : State) (r : AtticRec) (rest : List AtticRec) (g : Geom), s.dp.lar.fifo = r :: rest →
    s.dp.settlingCopy r.table r.copy = false → s.dp.geom r.table = some g → s.dp.meets .engineWrite r.bank = false →
    ∃ t, exec .atticWrite s = .next t ∧ t.pending = s.pending ∧
      (s.dp.lar.pushWait = [] → s.dp.hdm.run = none → t.sh = s.sh ∧
        t.dp.lar = { s.dp.lar.writeBucket g r.bank (g.phys r.copy r.bucket) r.bytes with
          fifo := rest, headWait := 0, draws := s.dp.lar.draws + 1 }) ∧
      (∀ src q waits h, s.dp.lar.pushWait = (src, q) :: waits → s.dp.hdm.run = none → s.dp.geom q.table = some h → rest.length < 64 →
        h.attic = true → b2n (s.dp.lar.live.testBit q.table) ≠ q.copy → h.hasBank q.bank = true → q.bucket < h.rows →
        t.dp.lar = { s.dp.lar.writeBucket g r.bank (g.phys r.copy r.bucket) r.bytes with
          fifo := rest ++ [q], pushWait := waits, headWait := 0, draws := s.dp.lar.draws + 1 })) ∧
  (∀ (s : State) (r : AtticRec) (rest : List AtticRec), s.dp.lar.fifo = r :: rest → s.dp.lar.pushWait = [] →
    s.dp.settlingCopy r.table r.copy = true → exec .atticWrite s = .next s) ∧
  (∀ (s : State) (src : Src) (be : BitVec 4) (data : Word), s.reaches src (Reg.larLive.addr 0 0) true = true →
    ∃ t, exec (.liveWrite src be data) s = .next t ∧ t.pending = s.pending ∧ t.sh.regs = s.sh.regs ∧
      t.dp.lar = { s.dp.lar with flips := s.dp.lar.flips ++
        [some ((mergeBytes be data (RegFile.word s.dp.regs .larLive 0 0)).toNat &&& s.dp.liveMask)] } ∧
      t.sh.live = t.dp.rd F.larLive_COPY) ∧
  (∀ (s : State) (v : Nat) (rest : List (Option Nat)), s.dp.lar.flips = some v :: rest →
    (∀ r, r ∈ s.dp.lar.fifo → v.testBit r.table = s.dp.lar.live.testBit r.table) →
    ∃ t, exec .flip s = .next t ∧ t.sh = s.sh ∧ t.pending = s.pending ∧ t.dp.lar.live = v ∧ t.dp.lar.flips = rest ∧
      { t.dp with lar := s.dp.lar } = s.dp ∧ t.dp.lar.buckets = s.dp.lar.buckets ∧ t.dp.lar.fifo = s.dp.lar.fifo ∧
      ∀ k, k < 16 → (v.testBit k ≠ s.dp.lar.live.testBit k →
        Tab.find t.dp.lar.settling (2 * k + b2n (s.dp.lar.live.testBit k)) = some s.dp.waitingFrames ∧
        Tab.find t.dp.lar.settling (2 * k + (1 - b2n (s.dp.lar.live.testBit k))) = none)) ∧
  (∀ (s : State) (k x : Nat) (ws : List Nat), Tab.find s.dp.lar.settling (2 * k + x) = some ws →
    (∀ f, f ∈ ws → f ∉ s.dp.waitingFrames) →
    ∃ t, exec (.copySettle k x) s = .next t ∧ t.sh = s.sh ∧ t.pending = s.pending ∧
      Tab.find t.dp.lar.settling (2 * k + x) = none ∧ t.dp.lar.live = s.dp.lar.live ∧ t.dp.regs = s.dp.regs) ∧
  (∀ (s : State) (src : Src) (n : Nat) (be : BitVec 4) (data : Word) (g : Geom),
    s.reaches src (Reg.larCseed.addr n 0) true = true → s.dp.geom (n / 4) = some g → g.attic = true → s.dp.lar.seedWait = [] →
    ∃ t, exec (.cseedWrite src n be data) s = .next t ∧ t.pending = s.pending ∧ t.sh.regs = s.sh.regs ∧
      ((s.dp.rd F.larLive_COPY).testBit (n / 4) ≠ decide (n / 2 % 2 = 1) → s.dp.copyFree (n / 4) (n / 2 % 2) = true →
        Tab.get t.dp.lar.cseed n 0 = (mergeBytes be data (BitVec.ofNat 32 (Tab.get s.dp.lar.cseed n 0))).toNat ∧
        (∀ k, k ≠ n → Tab.get t.dp.lar.cseed k 0 = Tab.get s.dp.lar.cseed k 0) ∧ t.dp.lar.seedWait = []) ∧
      ((s.dp.rd F.larLive_COPY).testBit (n / 4) ≠ decide (n / 2 % 2 = 1) → s.dp.copyFree (n / 4) (n / 2 % 2) = false →
        t.dp.lar.cseed = s.dp.lar.cseed ∧
        t.dp.lar.seedWait = [(n, (mergeBytes be data (BitVec.ofNat 32 (Tab.get s.dp.lar.cseed n 0))).toNat)]) ∧
      ((s.dp.rd F.larLive_COPY).testBit (n / 4) = decide (n / 2 % 2 = 1) → t.dp.lar = s.dp.lar ∧
        t.dp.rd F.larEvt_ATTIC_REJECT = 1)) ∧
  (∀ (s : State) (src : Src) (n : Nat) (be : BitVec 4) (data : Word), s.reaches src (Reg.larCseed.addr n 0) true = true →
    (∀ g, s.dp.geom (n / 4) = some g → g.attic = false) →
    ∃ t, exec (.cseedWrite src n be data) s = .next t ∧ t.pending = s.pending ∧ t.sh.regs = s.sh.regs ∧ t.dp.lar = s.dp.lar ∧
      t.dp.rd F.larEvt_ATTIC_REJECT = 1) ∧
  (∀ (s : State) (src : Src), s.reaches src (Reg.larEpochReq.addr 0 0) true = true →
    ∃ t, exec (.epochRequest src) s = .next t ∧ t.pending = s.pending ∧
      t.dp = { s.dp with lar := { s.dp.lar with flips := s.dp.lar.flips ++ [none] } }) ∧
  (∀ (s : State) (rest : List (Option Nat)), s.dp.lar.flips = none :: rest →
    ∃ t, exec .epochAdvance s = .next t ∧ t.sh = s.sh ∧ t.pending = s.pending ∧
      t.dp.lar = { s.dp.lar with flips := rest } ∧ { t.dp with lar := s.dp.lar, regs := s.dp.regs } = s.dp ∧
      ((s.dp.epochCur + 65536 - s.dp.epochOldest) % 65536 < 15 → t.dp.epochCur = (s.dp.epochCur + 1) % 65536) ∧
      (15 ≤ (s.dp.epochCur + 65536 - s.dp.epochOldest) % 65536 → t.dp.epochCur = s.dp.epochCur ∧
        t.dp.rd F.larEvt_EPOCH_REFUSED = 1))

/-- O44: Storing, sinking and reading sectors (BEAT_WRITE, LOFT_SINK_START, SINK_MOVE, SINK_END, SECTOR_READ). A
beat of an admitted frame outside the lofts fills the input pen's open cell, up to its eight sectors, and the
frame's sectors lie there; a second writer of a bank presents nothing where its holder writes, and sets
WRITE_STALL. A loft in which a written sector waits begins to sink: its frame, whose reading has not begun,
takes a frame record, frees its loft record and is to be moved, counted in LOFT_SINK; one without such a sector,
or that sinks already, does not begin. A move that takes a frame's last sectors out of its loft ends its stay
there. A sink ends when no frame remains unmoved, and its engine closes its cell. A granted copy with one unread
sector of its frame, in the cellar or in a loft and not to be moved, reads it. Rests on
spec/11_cellar_and_lofts.md R330, spec/11_cellar_and_lofts.md R331, spec/11_cellar_and_lofts.md R332,
spec/11_cellar_and_lofts.md R333, spec/11_cellar_and_lofts.md R337, spec/11_cellar_and_lofts.md R338,
spec/11_cellar_and_lofts.md R339. -/
def Obligations.CellarSectors : Prop :=
  (∀ (s : State) (f c : Nat) (stall : Bool) (x : Frame) (y : Cell'), s.dp.frame f = some x → x.admitted = true →
    x.loft = none → x.written < x.available → Tab.find s.dp.cel.openCell x.inPen = some c →
    Tab.get s.dp.cel.cells c {} = y → y.fill < 8 →
    ∃ t, exec (.beatWrite f stall) s = .next t ∧ t.sh = s.sh ∧ t.pending = s.pending ∧ t.dp.copies = s.dp.copies ∧
      (∀ k, k ≠ f → t.dp.frame k = s.dp.frame k) ∧
      (stall = false ∨ s.dp.cel.second.contains x.inPen = false → ∀ m,
        m = min (min 8 (x.available - x.written)) (8 - y.fill) →
        (∃ z, t.dp.frame f = some z ∧ z.written = x.written + m ∧ z.record = true ∧ z.bytes = x.bytes ∧
          z.locs = x.locs ++ (List.range m).map (fun i => 2 * (8 * c + y.fill + i) + 1)) ∧
        Tab.get t.dp.cel.cells c {} = ⟨y.live + m, y.fill + m, decide (y.fill + m < 8)⟩) ∧
      (stall = true → s.dp.cel.second.contains x.inPen = true →
        t.dp.frames = s.dp.frames ∧ t.dp.cel = s.dp.cel ∧ t.dp.rd F.celEvt_WRITE_STALL = 1)) ∧
  (∀ (s : State) (a b f cid : Nat) (c : Copy) (rest : List (Nat × Copy)) (x : Frame),
    (s.dp.loft (40 * a + b)).sinking = false → s.dp.loftFree (40 * a + b) ≠ 256 → (s.dp.loft (40 * a + b)).frames = [f] → s.dp.frame f = some x →
    s.dp.copiesOf f = (cid, c) :: rest → c.read = 0 → c.ahead = [] →
    ∃ t, exec (.loftSinkStart a b) s = .next t ∧ t.sh = s.sh ∧ t.pending = s.pending ∧ t.dp.copies = s.dp.copies ∧
      t.dp.loft (40 * a + b) = { s.dp.loft (40 * a + b) with sinking := true, frames := [], moving := [f] } ∧
      t.dp.cel.sinkOrder = s.dp.cel.sinkOrder ++ [40 * a + b] ∧ t.dp.frame f = some { x with record := true, moving := true } ∧
      Tab.get t.dp.tally (128 * portOfQ c.q + T.LOFT_SINK) 0 =
        (Tab.get s.dp.tally (128 * portOfQ c.q + T.LOFT_SINK) 0 + s.dp.tallyStep (portOfQ c.q)) % 2 ^ 56) ∧
  (∀ (s : State) (a b : Nat), (s.dp.loft (40 * a + b)).sinking = true ∨ s.dp.loftFree (40 * a + b) = 256 →
    exec (.loftSinkStart a b) s = .next s) ∧
  (∀ (s : State) (e n f c : Nat) (x : Frame) (y : Cell'), s.dp.sinkLoft e = some n → s.dp.nextMoving n = some f →
    s.dp.frame f = some x → Tab.find s.dp.cel.openCell (40 + e) = some c → Tab.get s.dp.cel.cells c {} = y →
    s.dp.cel.second.contains (40 + e) = false →
    ((List.range x.locs.length).filter (fun j => x.locs.getD j 1 % 2 = 0)).length ≤ 8 - y.fill →
    ∃ t, exec (.sinkMove e) s = .next t ∧ t.sh = s.sh ∧ t.pending = s.pending ∧ t.dp.copies = s.dp.copies ∧
      (∃ z, t.dp.frame f = some z ∧ z.loft = none ∧ z.moving = false ∧ z.written = x.written ∧
        z.locs.length = x.locs.length ∧ ∀ v, v ∈ z.locs → v % 2 = 1) ∧
      f ∉ (t.dp.loft n).moving ∧ (t.dp.loft n).engine = some e) ∧
  (∀ (s : State) (a b : Nat), (s.dp.loft (40 * a + b)).sinking = true → (s.dp.loft (40 * a + b)).frames = [] →
    (s.dp.loft (40 * a + b)).moving = [] →
    ∃ t, exec (.sinkEnd a b) s = .next t ∧ t.sh = s.sh ∧ t.pending = s.pending ∧ { t.dp with cel := s.dp.cel } = s.dp ∧
      (t.dp.loft (40 * a + b)).sinking = false ∧ (t.dp.loft (40 * a + b)).engine = none ∧
      40 * a + b ∉ t.dp.cel.sinkOrder ∧
      (∀ e, (s.dp.loft (40 * a + b)).engine = some e → Tab.find t.dp.cel.openCell (40 + e) = none)) ∧
  (∀ (s : State) (cid : Nat) (c : Copy) (x : Frame), s.dp.copy cid = some c → s.dp.frame c.fid = some x → c.granted = true →
    c.next = none → c.ahead = [] → x.written = c.read + 1 → c.read < x.locs.length →
    x.moving = false ∨ x.locs.getD c.read 0 % 2 = 1 →
    ∃ t, exec (.sectorRead [cid]) s = .next t ∧ t.sh = s.sh ∧ t.pending = s.pending ∧ t.dp.frames = s.dp.frames ∧
      t.dp.copy cid = some { c with read := c.read + 1 } ∧ ∀ k, k ≠ cid → t.dp.copy k = s.dp.copy k)

/-- O45: Bad copies, flush, random early drop seeds and queue limits (BAD_COPY_DISCARD, FLUSH_COMMAND, FLUSH_REMOVE,
RED_SEED_WRITE, QUEUE_CONFIG_WRITE). In RUN and TRIM, the first copy of a class queue that has not begun to
leave ends where its frame is bad, and BAD_DISCARD counts. A flush command puts each named class queue of the
port that holds a copy into the set that discards, and drops no other that holds one; where none is left,
FLUSH_DONE is set. The flush engine ends a copy of a discarding queue that has not begun, and Q_DROP_FLUSH
counts. A seed write loads every pen's generator with SEED xor the pen, 1 for 0. A MIN that would take the sum
above MIN_RESERVE stays as it was and sets MIN_REFUSED. Rests on spec/11_cellar_and_lofts.md R353,
spec/11_cellar_and_lofts.md R357, spec/11_cellar_and_lofts.md R358, spec/11_cellar_and_lofts.md R359,
spec/11_cellar_and_lofts.md R362. -/
def Obligations.DiscardsAndQueues : Prop :=
  (∀ (s : State) (q cid : Nat) (c : Copy) (x : Frame), s.sh.seq.state = .run ∨ s.sh.seq.state = .trim →
    ((s.dp.classQueue q).filter (fun c => c.2.rxq.isNone)).find? (fun c => c.2.notLeft) = some (cid, c) →
    s.dp.frame c.fid = some x → x.ended = true → x.rxErr ≠ RC.none →
    ∃ t, exec (.badCopyDiscard false q) s = .next t ∧ t.sh = s.sh ∧ t.pending = s.pending ∧ t.dp.copy cid = none ∧
      (∀ k, k ≠ cid → t.dp.copy k = s.dp.copy k) ∧
      Tab.get t.dp.tally (128 * portOfQ c.q + T.BAD_DISCARD) 0 =
        (Tab.get s.dp.tally (128 * portOfQ c.q + T.BAD_DISCARD) 0 + s.dp.tallyStep (portOfQ c.q)) % 2 ^ 56) ∧
  (∀ (s : State) (src : Src) (port tcs : Nat), s.reaches src (Reg.celFlushCmd.addr 0 0) true = true → port < 520 → tcs < 256 →
    ∃ t, exec (.flushCommand src port tcs) s = .next t ∧ t.sh.regs = s.sh.regs ∧ t.pending = s.pending ∧
      t.dp.copies = s.dp.copies ∧ t.dp.frames = s.dp.frames ∧
      (∀ q, q ∈ t.dp.cel.sw ↔ s.dp.classQueue q ≠ [] ∧
        (q ∈ s.dp.cel.sw ∨ ∃ c, c < 8 ∧ tcs.testBit c = true ∧ q = 8 * port + c)) ∧
      ((∀ c, c < 8 → s.dp.classQueue (8 * port + c) = []) → s.dp.cel.sw = [] → tcs ≠ 0 → t.dp.rd F.celEvt_FLUSH_DONE = 1)) ∧
  (∀ (s : State) (cid : Nat) (c : Copy), s.dp.copies.filter (fun c => s.dp.flushable c.2) = [(cid, c)] →
    ∃ t, exec .flushRemove s = .next t ∧ t.sh = s.sh ∧ t.pending = s.pending ∧ t.dp.copy cid = none ∧
      (∀ k, k ≠ cid → t.dp.copy k = s.dp.copy k) ∧ t.dp.cel.flushPtr = c.q + 1 ∧
      Tab.get t.dp.tally (128 * portOfQ c.q + T.Q_DROP_FLUSH) 0 =
        (Tab.get s.dp.tally (128 * portOfQ c.q + T.Q_DROP_FLUSH) 0 + s.dp.tallyStep (portOfQ c.q)) % 2 ^ 56) ∧
  (∀ (s : State) (src : Src) (be : BitVec 4) (data : Word), s.reaches src (Reg.celRedSeed.addr 0 0) true = true →
    ∃ t, exec (.redSeedWrite src be data) s = .next t ∧ t.sh.regs = s.sh.regs ∧ t.pending = s.pending ∧
      { t.dp with regs := s.dp.regs, cel := { t.dp.cel with rng := s.dp.cel.rng } } = s.dp ∧
      ∀ p, p < 40 → t.dp.rngOf p =
        if t.dp.rd F.celRedSeed_SEED ^^^ p = 0 then 1 else t.dp.rd F.celRedSeed_SEED ^^^ p) ∧
  (∀ (s : State) (src : Src) (n : Nat) (be : BitVec 4) (data : Word) (d : Datapath),
    s.reaches src (Reg.celQCfg.addr n 0) true = true → d = s.dp.writeReg .celQCfg false be data n →
    ∃ t, exec (.queueConfigWrite src n be data) s = .next t ∧ t.sh.regs = s.sh.regs ∧ t.pending = s.pending ∧
      { t.dp with regs := s.dp.regs } = s.dp ∧
      (s.dp.rd F.celQCfg_MIN n < d.rd F.celQCfg_MIN n → s.dp.minReserve < d.minSum →
        t.dp.rd F.celQCfg_MIN n = s.dp.rd F.celQCfg_MIN n ∧ t.dp.rd F.celEvt_MIN_REFUSED = 1 ∧
        t.dp.rd F.celQCfg_POOL n = d.rd F.celQCfg_POOL n) ∧
      (d.rd F.celQCfg_MIN n ≤ s.dp.rd F.celQCfg_MIN n ∨ d.minSum ≤ s.dp.minReserve → t.dp = d))

/-- O46: Grants, launch times and gate lists (COPY_GRANT, LAUNCH_JUDGE, LAUNCH_DUE, GATE_COMMIT, GATE_DISCARD,
GATE_ENTRY_WRITE, GATE_SWITCH, GATE_CYCLE_START). The drover of a pen grants the head copy of the highest strict
class that is eligible on the next port, or, with none strict, of the round robin's current class while its
deficit is above 0; one too long for its port is dropped with TX_MTU_DROP instead. A quiet block, one that does
not forward yet, a gated pen and a held loop pen grant none. A launch time ahead by up to 2^30 ns is held, one
passed by up to LATE_LIMIT is due and LT_LATE counts, one further off, or no time, drops the copy with LT_DROP
or LT_FAR; a held copy is due at its LEAD. A valid commit makes the list pending from the next cycle start of
its base; a bad one sets GATE_ERR. RUN 0 discards both lists; an entry in a list's range takes no write and sets
GATE_WR_REFUSED, another takes it; a switch puts the pending list in force, a cycle start ends WAITING. Rests on
spec/12_drover_and_gates.md R366, spec/12_drover_and_gates.md R369, spec/12_drover_and_gates.md R370,
spec/12_drover_and_gates.md R376, spec/12_drover_and_gates.md R377, spec/12_drover_and_gates.md R382,
spec/12_drover_and_gates.md R383, spec/12_drover_and_gates.md R388. -/
def Obligations.DroverAndGates : Prop :=
  (∀ (s : State) (pen p c cid : Nat) (rest cand : List Nat) (y : Copy) (x : Frame), s.grantsCopies pen = true →
    s.dp.portOrder pen = p :: rest → s.dp.sendable p = true → s.dp.streamFree p true = true →
    s.dp.candidates s.lead p true = cand → c ∈ cand →
    ((s.dp.strict (8 * p + c) = true ∧ ∀ k, k ∈ cand → s.dp.strict (8 * p + k) = true → k ≤ c) ∨
      ((∀ k, k ∈ cand → s.dp.strict (8 * p + k) = false) ∧ c = Tab.get s.dp.drv.cur p 0 ∧
        0 < Tab.get s.dp.drv.deficit (8 * p + c) 0)) →
    s.dp.ctrlHead (8 * p + c) = none → s.dp.headCopy (8 * p + c) = some (cid, y) → s.dp.frame y.fid = some x →
    ∃ t, exec (.copyGrant pen) s = .next t ∧ t.sh = s.sh ∧ t.pending = s.pending ∧
      (∀ k, k ≠ cid → t.dp.copy k = s.dp.copy k) ∧
      (s.dp.mtuBad y x = false → t.dp.frames = s.dp.frames ∧ t.dp.drv.deficit = s.dp.drv.deficit ∧
        t.dp.copy cid = some { y with granted := true, expressStream := true, timed := s.dp.timedCopy y }) ∧
      (s.dp.mtuBad y x = true → t.dp.copy cid = none ∧ Tab.get t.dp.tally (128 * p + T.TX_MTU_DROP) 0 =
        (Tab.get s.dp.tally (128 * p + T.TX_MTU_DROP) 0 + s.dp.tallyStep p) % 2 ^ 56)) ∧
  (∀ (s : State) (pen : Nat), s.quiet = true ∨ s.forwards = false ∨ pen ∈ s.dp.gated ∨ (38 ≤ pen ∧ s.penHeld pen = true) →
    exec (.copyGrant pen) s = .next s) ∧
  (∀ (s : State) (p c cid : Nat) (y : Copy) (w : Time) (x : Frame) (dif : Int), s.sh.seq.state = .run ∨ s.sh.seq.state = .trim → c < 8 →
    s.dp.headCopy (8 * p + c) = some (cid, y) → y.launch = some w → s.dp.frame y.fid = some x →
    s.dp.launchActs y = true → y.judge = .not → dif = compactDiff w (s.dp.tbNow (s.dp.pmTb p)) →
    ∃ t, exec (.launchJudge p c) s = .next t ∧ t.sh = s.sh ∧ t.pending = s.pending ∧ (∀ k, k ≠ cid → t.dp.copy k = s.dp.copy k) ∧
      (w.ns < 1000000000 → 0 < dif → dif ≤ 2 ^ 30 → t.dp.copy cid = some { y with judge := .held } ∧ t.dp.frames = s.dp.frames ∧
        t.dp.tally = s.dp.tally) ∧
      (w.ns < 1000000000 → dif = 0 → t.dp.copy cid = some { y with judge := .due } ∧ t.dp.frames = s.dp.frames ∧ t.dp.tally = s.dp.tally) ∧
      (w.ns < 1000000000 → dif < 0 → -dif ≤ s.dp.pmLateLimit p → t.dp.copy cid = some { y with judge := .due } ∧ t.dp.frames = s.dp.frames ∧
        Tab.get t.dp.tally (128 * p + T.LT_LATE) 0 = (Tab.get s.dp.tally (128 * p + T.LT_LATE) 0 + s.dp.tallyStep p) % 2 ^ 56) ∧
      (w.ns < 1000000000 → s.dp.pmLateLimit p < -dif → t.dp.copy cid = none ∧ t.dp.rd F.drvEvt_LT_DROP = 1 ∧
        Tab.get t.dp.tally (128 * portOfQ y.q + T.LT_DROP) 0 =
          (Tab.get s.dp.tally (128 * portOfQ y.q + T.LT_DROP) 0 + s.dp.tallyStep (portOfQ y.q)) % 2 ^ 56) ∧
      (1000000000 ≤ w.ns ∨ 2 ^ 30 < dif → t.dp.copy cid = none ∧ t.dp.rd F.drvEvt_LT_DROP = 1 ∧
        Tab.get t.dp.tally (128 * portOfQ y.q + T.LT_FAR) 0 =
          (Tab.get s.dp.tally (128 * portOfQ y.q + T.LT_FAR) 0 + s.dp.tallyStep (portOfQ y.q)) % 2 ^ 56)) ∧
  (∀ (s : State) (p c cid : Nat) (y : Copy) (w : Time), s.sh.seq.state = .run ∨ s.sh.seq.state = .trim → c < 8 →
    s.dp.headCopy (8 * p + c) = some (cid, y) → y.launch = some w → y.judge = .held →
    compactDiff w (s.dp.tbNow (s.dp.pmTb p)) ≤ s.lead →
    ∃ t, exec (.launchDue p c) s = .next t ∧ t.sh = s.sh ∧ t.pending = s.pending ∧
      t.dp = s.dp.setCopy cid { y with judge := .due }) ∧
  (∀ (s : State) (src : Src) (n start len cyc ns base now first : Nat) (g : GatePort),
    s.reaches src (Reg.drvGateCtl.addr n 0) true = true → start < 256 → len < 512 →
    cyc = s.dp.rd F.drvGateCycle_CYCLE n → ns = s.dp.rd F.drvGateBaseNs_NS n → g = s.dp.gates n →
    base = (s.dp.rd F.drvGateBaseSh_SEC n * 2 ^ 32 + s.dp.rd F.drvGateBaseSl_SEC n) * 1000000000 + ns →
    now = (s.dp.tbNow (s.dp.pmTb n)).abs → first = (if now ≤ base then base else base + ceilDiv (now - base) cyc * cyc) →
    ∃ t, exec (.gateCommit src n start len) s = .next t ∧ t.pending = s.pending ∧ t.sh.regs = s.sh.regs ∧
      t.dp.frames = s.dp.frames ∧ t.dp.copies = s.dp.copies ∧
      (0 < len → start + len ≤ 256 → 1000 ≤ cyc → ns < 1000000000 → gateOverlap start len g.inForce = false →
        gateOverlap start len g.pending = false →
        t.dp.gates n = { g with pending := some ⟨start, len, cyc, base, first⟩ } ∧ t.dp.rd F.drvGateStat_PENDING n = 1) ∧
      (len = 0 ∨ 256 < start + len ∨ cyc < 1000 ∨ 1000000000 ≤ ns ∨ gateOverlap start len g.inForce = true ∨
        gateOverlap start len g.pending = true → t.dp.drv = s.dp.drv ∧ t.dp.rd F.drvEvt_GATE_ERR = 1)) ∧
  (∀ (s : State) (src : Src) (n : Nat), s.reaches src (Reg.drvGateCtl.addr n 0) true = true →
    ∃ t, exec (.gateDiscard src n) s = .next t ∧ t.pending = s.pending ∧ t.sh.regs = s.sh.regs ∧ t.dp.gates n = {} ∧
      t.dp.rd F.drvGateStat_PENDING n = 0 ∧ t.dp.gateMode n = GM.recovery ∧ t.dp.rd F.drvGateCtl_RUN n = 0) ∧
  (∀ (s : State) (src : Src) (hi : Bool) (m : Nat) (be : BitVec 4) (data : Word) (r : Reg),
    r = (if hi then .drvGclHi else .drvGclLo) → s.reaches src (r.addr m 0) true = true →
    ∃ t, exec (.gateEntryWrite src hi m be data) s = .next t ∧ t.pending = s.pending ∧ t.sh.regs = s.sh.regs ∧
      { t.dp with regs := s.dp.regs } = s.dp ∧
      (gateOverlap (m % 256) 1 (s.dp.gates (m / 256)).inForce = true ∨
        gateOverlap (m % 256) 1 (s.dp.gates (m / 256)).pending = true →
        t.dp = s.dp.wr F.drvEvt_GATE_WR_REFUSED 1) ∧
      (gateOverlap (m % 256) 1 (s.dp.gates (m / 256)).inForce = false →
        gateOverlap (m % 256) 1 (s.dp.gates (m / 256)).pending = false →
        RegFile.word t.dp.regs r m 0 = r.writeWord false be data (RegFile.word s.dp.regs r m 0))) ∧
  (∀ (s : State) (p : Nat) (l : GateList), (s.dp.gates p).pending = some l →
    ∃ t, exec (.gateSwitch p) s = .next t ∧ t.sh = s.sh ∧ t.pending = s.pending ∧
      { t.dp with regs := s.dp.regs, drv := s.dp.drv } = s.dp ∧ t.dp.gates p = ⟨some l, none⟩ ∧
      t.dp.rd F.drvGateStat_PENDING p = 0 ∧ t.dp.rd F.drvEvt_GATE_SWITCH = 1 ∧
      (s.dp.gateMode p = GM.waiting → t.dp.gateMode p = GM.normal) ∧
      (s.dp.gateMode p ≠ GM.waiting → t.dp.gateMode p = s.dp.gateMode p)) ∧
  (∀ (s : State) (p : Nat), s.dp.gateMode p = GM.waiting → (s.dp.gates p).inForce.isSome = true →
    s.dp.holdover (s.dp.pmTb p) = false →
    ∃ t, exec (.gateCycleStart p) s = .next t ∧ t.sh = s.sh ∧ t.pending = s.pending ∧
      { t.dp with regs := s.dp.regs } = s.dp ∧ t.dp.gateMode p = GM.normal)

/-- O47: Time base commands, samples, watchdog and measuring windows (STEP, OFFSET, HOLD, TIME_COMMAND_APPLY,
TIME_SAMPLE, CORR_WD_EXPIRE, AON_WINDOW_END). A command joins the base's pending commands with the operands of
its arrival, and PENDING is set. The next tick applies it: a STEP takes its time and an OFFSET adds its value
where the base is VIRGIN, FORCE is given or the correction lies within THRESH, and the base is then in TRACKING;
else REFUSED is set and the time stays; HOLD gives HOLDOVER. A sample answers NS and keeps the seconds in the
reader's shadow. The watchdog, where it runs on a base in TRACKING and its limit of WD times 400,000 ticks has
passed with no command pending, gives HOLDOVER with CORR_WD and HOLD_CHG; else it changes no base. A clean
window's measure within tolerance becomes AON_NS, another sets AON_ODD, and the next window starts. Rests on
spec/16_time_bases.md R486, spec/16_time_bases.md R487, spec/16_time_bases.md R488, spec/16_time_bases.md R489,
spec/16_time_bases.md R490, spec/16_time_bases.md R493. -/
def Obligations.TimeBaseCommands : Prop :=
  (∀ (s : State) (src : Src) (b cmd : Nat) (force : Bool) (c : Instr), s.reaches src (Reg.timCtl.addr b 0) true = true → b < 8 →
    b < s.dp.tim.bases.length →
    (cmd, c) ∈ [(1, .step src b force), (2, .offset src b force)] ∨ (cmd = 3 ∧ force = false ∧ c = .hold src b) →
    ∃ t, exec c s = .next t ∧ t.pending = s.pending ∧ t.sh.regs = s.sh.regs ∧
      { t.dp with regs := s.dp.regs, tim := s.dp.tim } = s.dp ∧ t.dp.rd F.timStat_PENDING b = 1 ∧
      t.dp.rd F.timCtl_AON_MEAS b = s.dp.rd F.timCtl_AON_MEAS b ∧
      t.dp.tb b = { s.dp.tb b with
        cmds := (s.dp.tb b).cmds ++ [⟨cmd, s.dp.rd F.timSetSh_SEC b * 2 ^ 32 + s.dp.rd F.timSetSl_SEC b,
          s.dp.rd F.timSetNs_NS b, s.dp.rd F.timOfs_OFS b, force⟩]
        clean := (s.dp.tb b).clean && s.dp.flag F.timCtl_AON_MEAS b } ∧
      ∀ k, k ≠ b → t.dp.tb k = s.dp.tb k) ∧
  (∀ (s : State) (b : Nat) (c : TbCmd) (free : Bool) (th dlt ofs : Int), b < 8 → b < s.dp.tim.bases.length →
    (s.dp.tb b).cmds = [c] → free = (s.dp.flag F.timStat_VIRGIN b || c.force) → th = s.dp.rd F.timThresh_THRESH b →
    dlt = ((c.setSec * 1000000000 + c.setNs : Nat) : Int) - ((s.dp.tbNow b).abs : Int) → ofs = signed 32 c.ofs →
    ∃ t, exec (.timeCommandApply b) s = .next t ∧ t.sh = s.sh ∧ t.pending = s.pending ∧
      { t.dp with regs := s.dp.regs, tim := s.dp.tim } = s.dp ∧ t.dp.rd F.timStat_PENDING b = 0 ∧
      (∀ k, k ≠ b → t.dp.tb k = s.dp.tb k) ∧
      (c.cmd = 1 → c.setNs < 1000000000 → free = true ∨ (-th ≤ dlt ∧ dlt ≤ th) →
        t.dp.tb b = { s.dp.tb b with sec := c.setSec, ns := c.setNs, frac := 0, cmds := [], clean := false, since := 0 } ∧
        t.dp.holdover b = false ∧ t.dp.rd F.timStat_VIRGIN b = 0 ∧
        (s.dp.holdover b = true → t.dp.rd F.timEvt_HOLD_CHG = 1)) ∧
      (c.cmd = 1 → 1000000000 ≤ c.setNs ∨ (free = false ∧ (dlt < -th ∨ th < dlt)) →
        t.dp.tb b = { s.dp.tb b with cmds := [] } ∧ t.dp.rd F.timStat_REFUSED b = 1 ∧ t.dp.rd F.timEvt_REFUSED = 1) ∧
      (c.cmd = 2 → free = true ∨ (-th ≤ ofs ∧ ofs ≤ th) →
        t.dp.tb b = { s.dp.tb b with
          sec := (Time.ofNs ((s.dp.tbNow b).abs + ofs)).sec
          ns := (Time.ofNs ((s.dp.tbNow b).abs + ofs)).ns
          cmds := []
          clean := false
          since := 0 } ∧
        t.dp.holdover b = false ∧ t.dp.rd F.timStat_VIRGIN b = 0) ∧
      (c.cmd = 2 → free = false → ofs < -th ∨ th < ofs →
        t.dp.tb b = { s.dp.tb b with cmds := [] } ∧ t.dp.rd F.timStat_REFUSED b = 1 ∧ t.dp.rd F.timEvt_REFUSED = 1) ∧
      (c.cmd = 3 → t.dp.tb b = { s.dp.tb b with cmds := [], clean := false } ∧ t.dp.holdover b = true ∧
        (s.dp.holdover b = false → t.dp.rd F.timEvt_HOLD_CHG = 1))) ∧
  (∀ (s : State) (src : Src) (b : Nat), s.reaches src (Reg.timNowNs.addr b 0) false = true →
    ∃ t, exec (.timeSample src b) s = .next t ∧ t.pending = s.pending ∧ t.sh.regs = s.sh.regs ∧
      t.dp = { s.dp with tim := { s.dp.tim with
        shadow := Tab.put s.dp.tim.shadow (8 * readerOf src + b) (s.dp.tbNow b).sec 0 } } ∧
      (∀ m x r, src = .port m → (s.sh.port m).acc = some x → x.is false (Reg.timNowNs.addr b 0) = true →
        x.stage = .inFlight → (s.sh.link.slot m).dp = some r → r.req.loader = false → r.done = none →
        (t.sh.link.slot m).dp = some { r with done := some (BitVec.ofNat 32 (s.dp.tbNow b).ns) })) ∧
  (∀ (s : State) (b : Nat), b < 8 → b < s.dp.tim.bases.length → s.dp.holdover b = false → s.dp.rd F.timCorrWd_WD b ≠ 0 →
    (s.dp.tb b).cmds = [] → s.dp.rd F.timCorrWd_WD b * 400000 ≤ (s.dp.tb b).since →
    ∃ t, exec (.corrWdExpire b) s = .next t ∧ t.sh = s.sh ∧ t.pending = s.pending ∧
      { t.dp with regs := s.dp.regs, tim := s.dp.tim } = s.dp ∧ t.dp.tb b = { s.dp.tb b with clean := false } ∧
      t.dp.holdover b = true ∧ t.dp.rd F.timEvt_CORR_WD = 1 ∧ t.dp.rd F.timEvt_HOLD_CHG = 1) ∧
  (∀ (s : State) (b : Nat), (s.dp.tb b).cmds = [] → s.dp.holdover b = true ∨ s.dp.rd F.timCorrWd_WD b = 0 ∨
      (s.dp.tb b).since < s.dp.rd F.timCorrWd_WD b * 400000 →
    ∃ t, exec (.corrWdExpire b) s = .next t ∧ t.sh = s.sh ∧ t.pending = s.pending ∧ t.dp.tim = s.dp.tim ∧
      t.dp.holdover b = s.dp.holdover b ∧ t.dp.rd F.timEvt_CORR_WD = s.dp.rd F.timEvt_CORR_WD) ∧
  (∀ (s : State) (b : Nat) (m : Int) (tol : Nat), b < 8 → b < s.dp.tim.bases.length →
    m = (((s.dp.tb b).fine : Int) - (s.dp.tb b).winStart) / 2 ^ 28 →
    tol = 2 * (20 * s.dp.rd F.timAonTol_PPB * 2 ^ 24 / 1000000000) →
    ∃ t, exec (.aonWindowEnd b) s = .next t ∧ t.sh = s.sh ∧ t.pending = s.pending ∧
      { t.dp with regs := s.dp.regs, tim := s.dp.tim } = s.dp ∧
      t.dp.tb b = { s.dp.tb b with
        winStart := (s.dp.tb b).fine
        clean := s.dp.flag F.timCtl_AON_MEAS b && !s.dp.holdover b } ∧
      ((s.dp.tb b).clean = false → t.dp.regs = s.dp.regs) ∧
      ((s.dp.tb b).clean = true → -(tol : Int) ≤ m - 0x14000000 → m - 0x14000000 ≤ (tol : Int) →
        (t.dp.rd F.timAonNs_AON_NS b : Int) = m) ∧
      ((s.dp.tb b).clean = true → m - 0x14000000 < -(tol : Int) ∨ (tol : Int) < m - 0x14000000 →
        t.dp.rd F.timStat_AON_ODD b = 1 ∧ t.dp.rd F.timEvt_AON_ODD = 1 ∧
        t.dp.rd F.timAonNs_AON_NS b = s.dp.rd F.timAonNs_AON_NS b))

/-- O48: Timestamp logs and pulse pins (TX_LOG_POP, RX_LOG_POP, PULSE_INPUT_EDGE, PULSE_OUTPUT_EDGE, POUT_CONFIG). A
pop drops the oldest record of its log, and does nothing to an empty one. A wanted edge on an enabled pulse
input captures its base's time less 5 ns with its direction and sets NEW; while NEW is set, or in the tick of
its clear, it counts in MISSED and NEW stays set. The pulse output of an enabled pin is high for WIDTH of each
PERIOD from START on, WIDTH and PERIOD brought within their limits, and low while HOLD_MUTE holds it in
HOLDOVER. A configuration write that enables the output brings START, PERIOD and WIDTH into force. Rests on
spec/16_time_bases.md R502, spec/16_time_bases.md R503, spec/16_time_bases.md R504. -/
def Obligations.LogsAndPulses : Prop :=
  (∀ (s : State) (src : Src), s.reaches src (Reg.timLogPop.addr 0 0) true = true →
    (∃ t, exec (.txLogPop src) s = .next t ∧ t.pending = s.pending ∧ t.sh.regs = s.sh.regs ∧
      t.dp = { s.dp with tim := { s.dp.tim with txLog := s.dp.tim.txLog.drop 1 } }) ∧
    (∃ t, exec (.rxLogPop src) s = .next t ∧ t.pending = s.pending ∧ t.sh.regs = s.sh.regs ∧
      t.dp = { s.dp with tim := { s.dp.tim with rxLog := s.dp.tim.rxLog.drop 1 } })) ∧
  (∀ (s : State) (i : Nat) (rise : Bool) (w : Time), i < 4 → s.dp.flag F.timPinCfg_EN i = true →
    (if rise then s.dp.rd F.timPinCfg_EDGE i ≠ 1 else s.dp.rd F.timPinCfg_EDGE i = 1 ∨ s.dp.rd F.timPinCfg_EDGE i = 2) →
    w = Time.ofNs (((s.dp.tbNow (s.dp.rd F.timPinCfg_TB i)).abs : Int) - 5) →
    ∃ t, exec (.pulseInputEdge i rise) s = .next t ∧ t.sh = s.sh ∧ t.pending = s.pending ∧
      { t.dp with regs := s.dp.regs } = s.dp ∧ t.dp.rd F.timPinNs_NEW i = 1 ∧
      (s.dp.rd F.timPinNs_NEW i = 0 → s.dp.meets .pinNew i = false → t.dp.rd F.timPinNs_RISE i = b2n rise ∧ t.dp.rd F.timPinNs_NS i = w.ns ∧
        t.dp.rd F.timPinSl_SEC i = w.sec % 2 ^ 32 ∧ t.dp.rd F.timPinSh_SEC i = w.sec / 2 ^ 32 ∧
        t.dp.rd F.timPinMiss_MISSED i = s.dp.rd F.timPinMiss_MISSED i) ∧
      (s.dp.rd F.timPinNs_NEW i = 0 → s.dp.meets .pinNew i = true →
        t.dp = (s.dp.wr F.timPinNs_NEW 1 i).count F.timPinMiss_MISSED 1 i) ∧
      (s.dp.rd F.timPinNs_NEW i ≠ 0 → t.dp = s.dp.count F.timPinMiss_MISSED 1 i)) ∧
  (∀ (s : State) (o p w now : Nat) (x : PulseOut), o < s.dp.tim.level.length → x = Tab.get s.dp.tim.pout o {} →
    p = max x.period 10 → w = min (max x.width 5) (p - 5) → now = (s.dp.tbNow (s.dp.rd F.timPoutCfg_TB o)).abs →
    ∃ t, exec (.pulseOutputEdge o) s = .next t ∧ t.sh = s.sh ∧ t.pending = s.pending ∧
      { t.dp with tim := { t.dp.tim with level := s.dp.tim.level } } = s.dp ∧
      (∀ k, k ≠ o → t.dp.tim.level[k]? = s.dp.tim.level[k]?) ∧
      (s.dp.flag F.timPoutCfg_EN o = true → s.dp.flag F.timPoutCfg_HOLD_MUTE o = false → x.start ≤ now →
        t.dp.tim.level[o]? = some (decide ((now - x.start) % p < w))) ∧
      (s.dp.flag F.timPoutCfg_EN o = false ∨ now < x.start ∨ (s.dp.flag F.timPoutCfg_HOLD_MUTE o = true ∧
        s.dp.holdover (s.dp.rd F.timPoutCfg_TB o) = true) → t.dp.tim.level[o]? = some false)) ∧
  (∀ (s : State) (src : Src) (o : Nat) (be : BitVec 4) (data : Word) (d : Datapath),
    s.reaches src (Reg.timPoutCfg.addr o 0) true = true → o < 4 → d = s.dp.writeReg .timPoutCfg false be data o →
    ∃ t, exec (.poutConfig src o be data) s = .next t ∧ t.pending = s.pending ∧ t.sh.regs = s.sh.regs ∧
      (d.flag F.timPoutCfg_EN o = false ∨ be.getLsbD 3 = false → t.dp = d) ∧
      (d.flag F.timPoutCfg_EN o = true → be.getLsbD 3 = true → t.dp = { d with tim := { s.dp.tim with
        pout := Tab.set s.dp.tim.pout o
          ⟨(s.dp.rd F.timPoutStartSh_SEC o * 2 ^ 32 + s.dp.rd F.timPoutStartSl_SEC o) * 1000000000 +
            min (s.dp.rd F.timPoutStartNs_NS o) 999999999, s.dp.rd F.timPoutPeriod_PERIOD o, s.dp.rd F.timPoutWidth_WIDTH o⟩ } }))

/-- O49: Descriptor polling (POLL_DUE, POLL_ISSUE, POLL_RESULT, HOT_IDLE_EXPIRE). A running queue that falls due
joins its pen's due queues; another does not. A poll opportunity reads, for the first kicked queue where it is
pollable, the beat at FETCH, where that lies in a window of its tenant (R429); outside, the queue enters ERROR
with code 2, WINDOW (log entry 67: the model's reading, DEDUCED); none is issued while intake is stopped. A
result for a queue that no longer runs is discarded (log entry 64: the model's reading). A result whose slot at
FETCH has the other phase is a miss that leaves FETCH. A hit takes the valid slots from FETCH on, advances FETCH
and the phase and puts the queue into the hot list where it has room; where a buffer is shorter than 64 bytes or
a chain longer than 8, the queue enters ERROR with code 3, DESC_BAD (R458). A hot running queue whose idle time
ends leaves the hot list and falls due. Rests on spec/14_troughs.md R432, spec/14_troughs.md R441,
spec/14_troughs.md R442, spec/14_troughs.md R443, spec/14_troughs.md R444, spec/14_troughs.md R457,
spec/14_troughs.md R429, spec/14_troughs.md R458, spec/14_troughs.md R464. -/
def Obligations.QueuePolls : Prop :=
  (∀ (s : State) (rx : Bool) (q k : Nat) (x : QRef), x = ⟨rx, q⟩ → s.dp.qPort x = some k →
    (s.dp.qSt x = QS.running → x ∉ (s.dp.trgPen k).due →
      ∃ t, exec (.pollDue rx q) s = .next t ∧ t.sh = s.sh ∧ t.pending = s.pending ∧
        t.dp = s.dp.setTrgPen k { s.dp.trgPen k with due := (s.dp.trgPen k).due ++ [x] }) ∧
    (s.dp.qSt x ≠ QS.running → exec (.pollDue rx q) s = .next s)) ∧
  (∀ (s : State) (k a : Nat) (late : Bool) (x : QRef) (rest : List QRef), s.quiet = false →
    (s.dp.trgPen k).kicks = x :: rest → s.dp.pollable k x = true → x.rx = true ∨ s.penHeld (32 + k) = false →
    x.q < 32768 → a = s.dp.qBase x + s.dp.qFetch x / 8 * 256 → (s.dp.srp k).grant = none →
    ∃ t, exec (.pollIssue k late) s = .next t ∧ t.sh = s.sh ∧ t.pending = s.pending ∧ t.dp.frames = s.dp.frames ∧
      t.dp.copies = s.dp.copies ∧ x ∉ (t.dp.trgPen k).kicks ∧
      (s.dp.windowOk (s.dp.qTenant x) 15 a 256 = true → t.dp.qRt x = { s.dp.qRt x with waiting := true } ∧
        t.dp.qFetch x = s.dp.qFetch x ∧ ∃ w, (t.dp.srp k).want = (s.dp.srp k).want ++ [w] ∧ w.write = false ∧ w.addr = a ∧
          w.len = 1 ∧ w.tenant = s.dp.qTenant x ∧ w.job = .poll x.rx x.q ∧ w.r = (if x.rx then 1 else 2)) ∧
      (s.dp.windowOk (s.dp.qTenant x) 15 a 256 = false → t.dp.qSt x = QS.error ∧
        t.dp.rd (x.f F.trgTxqCtl_ERR F.trgRxqCtl_ERR) x.q = 2 ∧ t.dp.rd F.trgEvt_QUEUE_ERR = 1)) ∧
  (∀ (s : State) (k : Nat) (late : Bool), s.quiet = true → exec (.pollIssue k late) s = .next s) ∧
  (∀ (s : State) (k n : Nat) (x : QRef) (beat : List Byte) (rest : List (QRef × List Byte)) (r : List Desc × Nat × Nat),
    (s.dp.trgPen k).polls = (x, beat) :: rest → x.q < 32768 →
    n = (if x.rx then 8 - (s.dp.qRt x).descs.length else 8) →
    r = takeSlots (2 ^ s.dp.qLog x) beat n (s.dp.qFetch x) (s.dp.qPhase x) →
    ∃ t, exec (.pollResult k) s = .next t ∧ t.sh = s.sh ∧ t.pending = s.pending ∧ t.dp.frames = s.dp.frames ∧
      t.dp.copies = s.dp.copies ∧
      (s.dp.qSt x ≠ QS.running ∨ phaseOf (slice beat (32 * (s.dp.qFetch x % 8)) 32) ≠ s.dp.qPhase x →
        t.dp.qRt x = { s.dp.qRt x with waiting := false } ∧ t.dp.regs = s.dp.regs ∧ (t.dp.trgPen k).polls = rest) ∧
      (s.dp.qSt x = QS.running → r.1 ≠ [] → (x.rx = true → ∀ e, e ∈ r.1 → 64 ≤ e.len) →
        (x.rx = false → longChain 8 [] ((s.dp.qRt x).descs ++ r.1) 0 = none) →
        t.dp.qRt x = { s.dp.qRt x with descs := (s.dp.qRt x).descs ++ r.1, waiting := false } ∧
        t.dp.qFetch x = r.2.1 % 2 ^ 16 ∧ t.dp.qPhase x = r.2.2 % 2 ∧ (t.dp.trgPen k).polls = rest ∧
        ((s.dp.trgPen k).hot.length < 512 → x ∈ (t.dp.trgPen k).hot)) ∧
      (s.dp.qSt x = QS.running → (x.rx = true ∧ ∃ e, e ∈ r.1 ∧ e.len < 64) ∨
          (x.rx = false ∧ r.1 ≠ [] ∧ longChain 8 [] ((s.dp.qRt x).descs ++ r.1) 0 ≠ none) →
        t.dp.qSt x = QS.error ∧ t.dp.rd (x.f F.trgTxqCtl_ERR F.trgRxqCtl_ERR) x.q = 3 ∧ t.dp.rd F.trgEvt_QUEUE_ERR = 1)) ∧
  (∀ (s : State) (rx : Bool) (q k : Nat) (x : QRef), x = ⟨rx, q⟩ → s.dp.qPort x = some k → x ∈ (s.dp.trgPen k).hot →
    s.dp.qSt x = QS.running →
    ∃ t, exec (.hotIdleExpire rx q) s = .next t ∧ t.sh = s.sh ∧ t.pending = s.pending ∧ x ∉ (t.dp.trgPen k).hot ∧
      x ∈ (t.dp.trgPen k).due ∧ t.dp.regs = s.dp.regs ∧ t.dp.qRt x = s.dp.qRt x)

/-- O50: Fetches and completions (TX_FETCH_START, TX_COMPLETION_PLACE, RX_COPY_WRITE_START, RX_COMPLETION_PLACE,
HOLD_RELEASE, CI_POLL_EXPIRE, HOLD_FULL_EXPIRE). The next frame of the next queue reserves a completion place in
its ring and, where staging has room, becomes a staged frame, or is rejected by its check with TX_REJECT
counted. A due completion, none held before it, takes the slot at PI with the ring's phase, PI advances, FRAMES
counts and the record goes. A receive copy that may start does so once its descriptors cover its data, or 8 are
ready; its completion, with status 0 on a running queue, uses its descriptors, takes the slot at PI, ends the
copy and counts FRAMES and TX_OK. With one slot free the first held completion leaves for it; a full ring's
consumer index is read; a full holding store sets HOLD_FULL, another does not. Rests on spec/14_troughs.md R434,
spec/14_troughs.md R435, spec/14_troughs.md R439, spec/14_troughs.md R445, spec/14_troughs.md R446,
spec/14_troughs.md R447, spec/14_troughs.md R450, spec/14_troughs.md R453, spec/14_troughs.md R454,
spec/14_troughs.md R455, spec/14_troughs.md R456. -/
def Obligations.FetchesAndCompletions : Prop :=
  (∀ (s : State) (k q n c : Nat) (rest : List Nat) (fr ds : List Desc) (code : Option Nat) (e : Desc) (es : List Desc),
    q < 32768 → s.dp.txTurns k = q :: rest → splitFrame (s.dp.qRt ⟨false, q⟩).descs = some (fr, ds) → fr = e :: es →
    s.dp.txCheck q fr = (n, code) → c = s.dp.qCq ⟨false, q⟩ → s.dp.ringRuns c = true → 0 < s.dp.ringFree c →
    ∃ t, exec (.txFetchStart k) s = .next t ∧ t.sh = s.sh ∧ t.pending = s.pending ∧ t.dp.copies = s.dp.copies ∧
      (code = none → s.dp.txRoom k (max n 60) = true →
        (t.dp.qRt ⟨false, q⟩).descs = ds ∧ (t.dp.ring c).resv = (s.dp.ring c).resv + 1 ∧
        t.dp.nextFrame = s.dp.nextFrame + 1 ∧
        (∃ x, t.dp.frame s.dp.nextFrame = some x ∧ x.pen = 32 + k ∧ x.port = 512 + k ∧ x.staged = true ∧ x.bytes = [] ∧
          x.len = max n 60) ∧
        ∃ r, Tab.find t.dp.trg.txRecs s.dp.trg.nextRec = some r ∧ r.q = q ∧ r.slot = e.slot ∧ r.cookie = e.cookie ∧
          r.dlen = max n 60 ∧ r.ndesc = fr.length ∧ r.code = none ∧ r.fid = some s.dp.nextFrame) ∧
      (∀ v, code = some v → t.dp.frames = s.dp.frames ∧ (t.dp.qRt ⟨false, q⟩).descs = ds ∧
        Tab.get t.dp.tally (128 * (512 + k) + T.TX_REJECT) 0 =
          (Tab.get s.dp.tally (128 * (512 + k) + T.TX_REJECT) 0 + 1) % 2 ^ 56 ∧
        ∃ r, Tab.find t.dp.trg.txRecs s.dp.trg.nextRec = some r ∧ r.q = q ∧ r.slot = e.slot ∧ r.code = some v ∧ r.fid = none) ∧
      (code = some 0x13 → s.dp.canFail ⟨false, q⟩ = true → t.dp.qSt ⟨false, q⟩ = QS.error)) ∧
  (∀ (s : State) (n c k a pi : Nat) (r : TxRec), Tab.find s.dp.trg.txRecs n = some r → s.dp.txPoint n r = true →
    r.q < 32768 → r.dlen < 2 ^ 15 → c = s.dp.qCq ⟨false, r.q⟩ → s.dp.ringRuns c = true → r.inRing = true →
    (s.dp.ring c).resv ≠ 0 → (s.dp.ring c).held = [] → s.dp.ringPort c = some k → pi = s.dp.rd F.trgCqIdx_PI c →
    a = s.dp.ringBase c + 32 * pi → s.dp.windowOk (s.dp.rd F.trgCqCfg_TENANT c) 15 a 32 = true →
    (s.dp.srp k).want = [] → (s.dp.srp k).grant = none →
    ∃ t w, exec (.txCompletionPlace n) s = .next t ∧ t.sh = s.sh ∧ t.pending = s.pending ∧ t.dp.copies = s.dp.copies ∧
      Tab.find t.dp.trg.txRecs n = none ∧ (t.dp.ring c).resv = (s.dp.ring c).resv - 1 ∧
      t.dp.rd F.trgCqIdx_PI c = (if pi + 1 = s.dp.ringSize c then 0 else pi + 1) % 2 ^ 16 ∧
      (t.dp.srp k).want = [w] ∧ w.write = true ∧ w.addr = a / 256 * 256 ∧ w.lo = a % 256 ∧
      w.data = withPhase (Cpl.bytes ⟨r.cookie, ⟨false, r.q⟩, r.slot, r.dlen, 0, 0, if r.code.isSome then 0 else r.aux,
        s.dp.txStatus r, 0, false, r.late, r.ndesc, r.tc⟩) (s.dp.rd F.trgCqIdx_PHASE c) ∧
      t.dp.rd F.trgTxqFrames_FRAMES r.q = min (s.dp.rd F.trgTxqFrames_FRAMES r.q + 1) (2 ^ 32 - 1)) ∧
  (∀ (s : State) (q k c cid n : Nat) (y z : Copy) (fr : Frame) (out : List Byte), q < 32768 → s.dp.rxRecOf q = none →
    (s.dp.rxList q).head? = some (cid, y) → s.dp.qPort ⟨true, q⟩ = some k → s.dp.frame y.fid = some fr → fr.ended = true →
    y.started = false → fr.rxErr = RC.none ∨ s.dp.flag F.trgRxqCfg_DELIVER_BAD q = true → n = s.dp.loutOf y fr →
    (s.dp.qRt ⟨true, q⟩).descs ≠ [] →
    n ≤ bufBytes (s.dp.qRt ⟨true, q⟩).descs ∨ (s.dp.qRt ⟨true, q⟩).descs.length = 8 → s.dp.mayStart y fr = true →
    z = { y with started := true, tplData := (y.tpl.map s.dp.line).getD [] } → s.dp.outBytes z fr = some out →
    c = s.dp.qCq ⟨true, q⟩ → s.dp.ringRuns c = true → 0 < s.dp.ringFree c →
    ∃ t r, exec (.rxCopyWriteStart q) s = .next t ∧ t.sh = s.sh ∧ t.pending = s.pending ∧ t.dp.frames = s.dp.frames ∧
      t.dp.copy cid = some z ∧ (∀ j, j ≠ cid → t.dp.copy j = s.dp.copy j) ∧
      Tab.find t.dp.trg.rxRecs s.dp.trg.nextRec = some r ∧ r.q = q ∧ r.cid = cid ∧
      r.descs = covering n (s.dp.qRt ⟨true, q⟩).descs ∧ r.read = false ∧
      t.dp.qRt ⟨true, q⟩ = s.dp.qRt ⟨true, q⟩ ∧
      (t.dp.ring c).resv = (s.dp.ring c).resv + 1) ∧
  (∀ (s : State) (q c k a pi n : Nat) (r : RxRec) (y : Copy), q < 32768 → s.dp.rxRecOf q = some (n, r) → r.read = true →
    s.dp.qSt ⟨true, q⟩ = QS.running → r.left = 0 → r.status = 0 → r.inRing = true → c = s.dp.qCq ⟨true, q⟩ → s.dp.ringRuns c = true → (s.dp.ring c).resv ≠ 0 →
    (s.dp.ring c).held = [] → s.dp.ringPort c = some k → pi = s.dp.rd F.trgCqIdx_PI c → a = s.dp.ringBase c + 32 * pi →
    s.dp.windowOk (s.dp.rd F.trgCqCfg_TENANT c) 15 a 32 = true → s.dp.copy r.cid = some y →
    ∃ t, exec (.rxCompletionPlace q) s = .next t ∧ t.sh = s.sh ∧ t.pending = s.pending ∧ t.dp.copy r.cid = none ∧
      (∀ j, j ≠ r.cid → t.dp.copy j = s.dp.copy j) ∧ Tab.find t.dp.trg.rxRecs n = none ∧
      (t.dp.qRt ⟨true, q⟩).descs = (s.dp.qRt ⟨true, q⟩).descs.drop (if r.own then r.descs.length else 0) ∧
      t.dp.rd F.trgCqIdx_PI c = (if pi + 1 = s.dp.ringSize c then 0 else pi + 1) % 2 ^ 16 ∧
      t.dp.rd F.trgRxqFrames_FRAMES q = min (s.dp.rd F.trgRxqFrames_FRAMES q + 1) (2 ^ 32 - 1) ∧
      Tab.get t.dp.tally (128 * portOfQ y.q + T.TX_OK) 0 =
        (Tab.get s.dp.tally (128 * portOfQ y.q + T.TX_OK) 0 + s.dp.tallyStep (portOfQ y.q)) % 2 ^ 56) ∧
  (∀ (s : State) (c k a pi : Nat) (h : List Byte) (hs : List (List Byte)), c < 4096 → (s.dp.ring c).held = h :: hs →
    s.dp.ringFree c = 1 → s.dp.ringRuns c = true → s.dp.ringPort c = some k → pi = s.dp.rd F.trgCqIdx_PI c →
    a = s.dp.ringBase c + 32 * pi → s.dp.windowOk (s.dp.rd F.trgCqCfg_TENANT c) 15 a 32 = true →
    (s.dp.srp k).want = [] → (s.dp.srp k).grant = none →
    ∃ t w, exec (.holdRelease c) s = .next t ∧ t.sh = s.sh ∧ t.pending = s.pending ∧
      t.dp.ring c = { s.dp.ring c with held := hs } ∧ (t.dp.srp k).want = [w] ∧ w.write = true ∧
      w.addr = a / 256 * 256 ∧ w.lo = a % 256 ∧ w.data = withPhase h (s.dp.rd F.trgCqIdx_PHASE c) ∧
      t.dp.rd F.trgCqIdx_PI c = (if pi + 1 = s.dp.ringSize c then 0 else pi + 1) % 2 ^ 16) ∧
  (∀ (s : State) (c k a : Nat), s.dp.ringRuns c = true → s.dp.ringFree c = 0 → (s.dp.ring c).ciWait = false →
    s.dp.ringPort c = some k → a = s.dp.rd F.trgCqCiHi_ADDR c * 2 ^ 32 + s.dp.rd F.trgCqCiLo_ADDR c * 8 →
    s.dp.windowOk (s.dp.rd F.trgCqCfg_TENANT c) 15 a 4 = true → (s.dp.srp k).grant = none →
    ∃ t w, exec (.ciPollExpire c) s = .next t ∧ t.sh = s.sh ∧ t.pending = s.pending ∧ t.dp.regs = s.dp.regs ∧
      t.dp.ring c = { s.dp.ring c with ciWait := true } ∧ (t.dp.srp k).want = (s.dp.srp k).want ++ [w] ∧ w.write = false ∧
      w.addr = a / 256 * 256 ∧ w.job = .ci c (a % 256)) ∧
  (∀ (s : State) (k : Nat), (2048 ≤ s.dp.holdUsed k →
      ∃ t, exec (.holdFullExpire k) s = .next t ∧ t.sh = s.sh ∧ t.pending = s.pending ∧
        t.dp = s.dp.wr F.trgEvt_HOLD_FULL 1 ∧ t.dp.rd F.trgEvt_HOLD_FULL = 1) ∧
    (s.dp.holdUsed k < 2048 → exec (.holdFullExpire k) s = .next s))

/-- O51: Queues and rings (QUEUE_ENABLE, QUEUE_STOP, QUEUE_DISABLE, QUEUE_FLUSH, QUEUE_KICK, QUEUE_DRAINED,
RING_ENABLE, RING_DISABLE, RING_KICK, CONTEXT_WRITE). ENABLE takes a DISABLED queue that passes its checks, or a
STOPPED one, to RUNNING; one that fails enters ERROR with code 1, CFG (R464). STOP takes RUNNING, where no ready
descriptor is to be returned now, to STOPPING; DISABLE takes STOPPED or ERROR to DISABLED; FLUSH in STOPPING or
ERROR removes the one copy of a receive queue that has not begun; KICK puts a running queue among the kicked.
Each in another state, and FLUSH of a transmit queue, sets CTX_REFUSED and changes nothing else. A drained
STOPPING queue is STOPPED, another stays. A ring's ENABLE resets its indices, or puts a ring that does not fit
into ERROR with code 1; DISABLE needs that no live queue names it; KICK of a running ring reads its consumer
index; in other states they set CTX_REFUSED. That a ring's ENABLE and KICK out of state set it too (R460 says it
of DISABLE), and that STOP drops the poll that is outstanding, are the model's reading (log entry 66, DEDUCED).
Base and CFG2 of a transmit queue take a write while it is DISABLED; else a write that would change them is
refused. Rests on spec/14_troughs.md R456, spec/14_troughs.md R457, spec/14_troughs.md R458, spec/14_troughs.md
R459, spec/14_troughs.md R460, spec/14_troughs.md R461, spec/14_troughs.md R464. -/
def Obligations.QueueAndRingCommands : Prop :=
  (∀ (s : State) (src : Src) (rx : Bool) (q : Nat) (x : QRef), x = ⟨rx, q⟩ → q < 32768 →
    s.reaches src ((if rx then Reg.trgRxqCtl else Reg.trgTxqCtl).addr q 0) true = true →
    (∃ t, exec (.queueEnable src rx q) s = .next t ∧ t.pending = s.pending ∧ t.sh.regs = s.sh.regs ∧
      t.dp.frames = s.dp.frames ∧ t.dp.copies = s.dp.copies ∧
      (s.dp.qSt x = QS.disabled → s.dp.queueOk x = true → t.dp.qSt x = QS.running ∧ t.dp.qFetch x = 0 ∧ t.dp.qPhase x = 1 ∧
        ∀ k, s.dp.qPort x = some k → x ∈ (t.dp.trgPen k).due) ∧
      (s.dp.qSt x = QS.disabled → s.dp.queueOk x = false → t.dp.qSt x = QS.error ∧ t.dp.rd F.trgEvt_QUEUE_ERR = 1 ∧
        t.dp.rd (x.f F.trgTxqCtl_ERR F.trgRxqCtl_ERR) q = 1 ∧ t.dp.trg = s.dp.trg) ∧
      (s.dp.qSt x = QS.stopped → t.dp.qSt x = QS.running ∧ t.dp.qFetch x = s.dp.qFetch x ∧ t.dp.qPhase x = s.dp.qPhase x) ∧
      (s.dp.qSt x ≠ QS.disabled → s.dp.qSt x ≠ QS.stopped → t.dp = s.dp.wr F.trgEvt_CTX_REFUSED 1)) ∧
    (∃ t, exec (.queueStop src rx q) s = .next t ∧ t.pending = s.pending ∧ t.sh.regs = s.sh.regs ∧
      (s.dp.qSt x = QS.running → rx = false ∨ (s.dp.qRt x).descs = [] ∨ (s.dp.rxRecOf q).isSome = true → t.dp.qSt x = QS.stopping ∧
        t.dp.frames = s.dp.frames ∧ t.dp.copies = s.dp.copies ∧ (t.dp.qRt x).descs = (s.dp.qRt x).descs ∧
        (t.dp.qRt x).waiting = false ∧ ∀ k, s.dp.qPort x = some k → x ∉ (t.dp.trgPen k).due ∧ x ∉ (t.dp.trgPen k).hot ∧
          x ∉ (t.dp.trgPen k).kicks) ∧
      (s.dp.qSt x ≠ QS.running → t.dp = s.dp.wr F.trgEvt_CTX_REFUSED 1)) ∧
    (∃ t, exec (.queueDisable src rx q) s = .next t ∧ t.pending = s.pending ∧ t.sh.regs = s.sh.regs ∧
      (s.dp.qSt x = QS.stopped ∨ s.dp.qSt x = QS.error → t.dp.qSt x = QS.disabled ∧ t.dp.qFetch x = 0 ∧
        t.dp.qPhase x = 0 ∧ (t.dp.qRt x).descs = [] ∧ t.dp.frames = s.dp.frames ∧ t.dp.copies = s.dp.copies) ∧
      (s.dp.qSt x ≠ QS.stopped → s.dp.qSt x ≠ QS.error → t.dp = s.dp.wr F.trgEvt_CTX_REFUSED 1)) ∧
    (∃ t, exec (.queueFlush src rx q) s = .next t ∧ t.pending = s.pending ∧ t.sh.regs = s.sh.regs ∧
      (∀ cid c, rx = true → s.dp.qSt x = QS.stopping ∨ s.dp.qSt x = QS.error →
        (s.dp.rxList q).filter (fun c => c.2.notBegun) = [(cid, c)] → t.dp.copy cid = none ∧
        (∀ j, j ≠ cid → t.dp.copy j = s.dp.copy j) ∧ Tab.get t.dp.tally (128 * portOfQ c.q + T.RXQ_FLUSH) 0 =
          (Tab.get s.dp.tally (128 * portOfQ c.q + T.RXQ_FLUSH) 0 + s.dp.tallyStep (portOfQ c.q)) % 2 ^ 56) ∧
      (rx = false ∨ (s.dp.qSt x ≠ QS.stopping ∧ s.dp.qSt x ≠ QS.error) → t.dp = s.dp.wr F.trgEvt_CTX_REFUSED 1)) ∧
    (∃ t, exec (.queueKick src rx q) s = .next t ∧ t.pending = s.pending ∧ t.sh.regs = s.sh.regs ∧
      (∀ k, s.dp.qSt x = QS.running → s.dp.qPort x = some k → x ∈ (t.dp.trgPen k).kicks ∧ t.dp.regs = s.dp.regs ∧
        (t.dp.trgPen k).due = (s.dp.trgPen k).due) ∧
      (s.dp.qSt x ≠ QS.running → t.dp = s.dp.wr F.trgEvt_CTX_REFUSED 1)) ∧
    (∃ t, exec (.queueDrained rx q) s = .next t ∧ t.pending = s.pending ∧ t.sh = s.sh ∧
      (s.dp.qSt x = QS.stopping → s.dp.drained x = true → { t.dp with regs := s.dp.regs } = s.dp ∧ t.dp.qSt x = QS.stopped) ∧
      (s.dp.qSt x ≠ QS.stopping ∨ s.dp.drained x = false → t = s))) ∧
  (∀ (s : State) (src : Src) (r : Nat), r < 4096 → s.reaches src (Reg.trgCqCtl.addr r 0) true = true →
    (∃ t, exec (.ringEnable src r) s = .next t ∧ t.pending = s.pending ∧ t.sh.regs = s.sh.regs ∧
      (s.dp.rd F.trgCqCtl_STATE r = QS.disabled → (s.dp.ringPort r).isSome = true →
        s.dp.ringFits (s.dp.rd F.trgCqCfg_TENANT r) (s.dp.ringBase r) (s.dp.rd F.trgCqCfg_SIZE_LOG2 r) = true →
        t.dp.ringRuns r = true ∧ t.dp.rd F.trgCqIdx_PI r = 0 ∧ t.dp.rd F.trgCqIdx_PHASE r = 1 ∧
        t.dp.rd F.trgCqStat_CI r = 0 ∧ t.dp.rd F.trgCqStat_CI_PHASE r = 1 ∧ t.dp.ring r = {} ∧ t.dp.ringUsed r = 0) ∧
      (s.dp.rd F.trgCqCtl_STATE r = QS.disabled → s.dp.ringPort r = none ∨
        s.dp.ringFits (s.dp.rd F.trgCqCfg_TENANT r) (s.dp.ringBase r) (s.dp.rd F.trgCqCfg_SIZE_LOG2 r) = false →
        t.dp.rd F.trgCqCtl_STATE r = QS.error ∧ t.dp.rd F.trgCqCtl_ERR r = 1 ∧ t.dp.rd F.trgEvt_CQ_ERR = 1) ∧
      (s.dp.rd F.trgCqCtl_STATE r ≠ QS.disabled → t.dp = s.dp.wr F.trgEvt_CTX_REFUSED 1)) ∧
    (∃ t, exec (.ringDisable src r) s = .next t ∧ t.pending = s.pending ∧ t.sh.regs = s.sh.regs ∧
      ((∀ x, x ∈ s.dp.liveQueues → s.dp.qCq x ≠ r) → t.dp.rd F.trgCqCtl_STATE r = QS.disabled ∧ (t.dp.ring r).held = []) ∧
      (∀ x, x ∈ s.dp.liveQueues → s.dp.qCq x = r → t.dp = s.dp.wr F.trgEvt_CTX_REFUSED 1)) ∧
    (∃ t, exec (.ringKick src r) s = .next t ∧ t.pending = s.pending ∧ t.sh.regs = s.sh.regs ∧
      (∀ k a, s.dp.ringRuns r = true → (s.dp.ring r).ciWait = false → s.dp.ringPort r = some k →
        a = s.dp.rd F.trgCqCiHi_ADDR r * 2 ^ 32 + s.dp.rd F.trgCqCiLo_ADDR r * 8 →
        s.dp.windowOk (s.dp.rd F.trgCqCfg_TENANT r) 15 a 4 = true → t.dp.ring r = { s.dp.ring r with ciWait := true } ∧
        t.dp.regs = s.dp.regs) ∧
      (s.dp.ringRuns r = false → t.dp = s.dp.wr F.trgEvt_CTX_REFUSED 1))) ∧
  (∀ (s : State) (src : Src) (addr q : Nat) (be : BitVec 4) (data : Word) (r : Reg), q < 32768 →
    r ∈ [Reg.trgTxqBaseLo, Reg.trgTxqBaseHi, Reg.trgTxqCfg2] → Reg.ofAddr addr = some (r, q, 0) → s.reaches src addr true = true →
    ∃ t, exec (.contextWrite src addr be data) s = .next t ∧ t.pending = s.pending ∧ t.sh.regs = s.sh.regs ∧
      { t.dp with regs := s.dp.regs } = s.dp ∧
      (s.dp.qSt ⟨false, q⟩ = QS.disabled →
        RegFile.word t.dp.regs r q 0 = r.writeWord false be data (RegFile.word s.dp.regs r q 0)) ∧
      (s.dp.qSt ⟨false, q⟩ ≠ QS.disabled → RegFile.word t.dp.regs r q 0 = RegFile.word s.dp.regs r q 0 ∧
        (r.writeWord false be data (RegFile.word s.dp.regs r q 0) ≠ RegFile.word s.dp.regs r q 0 →
          t.dp.rd F.trgEvt_CTX_REFUSED = 1)))

/-- O52: Store-room ports (ARBITRATION, GRANT_RELEASE, HOLD_CUT, QUOTA_WINDOW_START, SRP_REQUEST_TRANSFER,
SRP_WRITE_BEAT_TRANSFER, READ_BEAT, WRITE_RESPONSE). A free port grants the ready requester of the highest
effective class, then the oldest, then the lowest number, and presents the first of its requests that may be
issued (log entry 68: the model's reading, DEDUCED), a read with the lowest free tag. A holder with nothing to
present releases, another keeps its grant; one at the hold limit is cut off and counted, or releases. A quota
window clears the class counts. A transferred request becomes an outstanding read or write and adds its beats to
its class. The last beat of a consumer-index read that a running ring asked for retires it and loads the index;
a write response retires the oldest write: of a completion write with an error code, RESP_ERR is set, the error
is captured while NEW is 0 (R477) and a ring that is not DISABLED enters ERROR (that one already in ERROR meets
it again is log entry 66, the model's reading). A beat of a free tag or an unasked response stops the port with
PROTO. While rst_blk_n is low, beats and responses are discarded: only the tracker follows them (R42). Rests on
spec/02_block_boundary.md R63, spec/02_block_boundary.md R66, spec/02_block_boundary.md R67,
spec/02_block_boundary.md R70, spec/15_store_room_ports.md R468, spec/15_store_room_ports.md R469,
spec/15_store_room_ports.md R470, spec/15_store_room_ports.md R472, spec/15_store_room_ports.md R473,
spec/15_store_room_ports.md R476, spec/15_store_room_ports.md R477, spec/02_block_boundary.md R42. -/
def Obligations.StoreRoomArbiter : Prop :=
  (∀ (s : State) (k r : Nat) (q : SReq), k < 6 → r < 6 → (s.dp.srp k).grant = none → (s.dp.srp k).presented = none →
    s.dp.srpReady k r = true → s.dp.srpNext k r = some q →
    (∀ o, o < 6 → o ≠ r → s.dp.srpReady k o = true → s.dp.effClass k o < s.dp.effClass k r ∨
      (s.dp.effClass k o = s.dp.effClass k r ∧ ((s.dp.srp k).age o < (s.dp.srp k).age r ∨
        ((s.dp.srp k).age o = (s.dp.srp k).age r ∧ r < o)))) →
    ∃ t, exec (.arbitration k) s = .next t ∧ t.sh = s.sh ∧ t.pending = s.pending ∧ { t.dp with stp := s.dp.stp } = s.dp ∧
      (∀ j, j ≠ k → t.dp.srp j = s.dp.srp j) ∧ (t.dp.srp k).grant = some (r, s.dp.srpClass k r) ∧
      (t.dp.srp k).presented = some (q, if q.write then 0 else (s.dp.srp k).freeTag) ∧
      (t.dp.srp k).want = (s.dp.srp k).want.erase q ∧ (t.dp.srp k).reads = (s.dp.srp k).reads) ∧
  (∀ (s : State) (k r c : Nat), k < 6 → (s.dp.srp k).grant = some (r, c) → (s.dp.srp k).presented = none →
    (s.dp.srpReady k r = false ∨ (s.dp.srp k).cut = true →
      ∃ t, exec (.grantRelease k) s = .next t ∧ t.sh = s.sh ∧ t.pending = s.pending ∧ { t.dp with stp := s.dp.stp } = s.dp ∧
        (t.dp.srp k).grant = none ∧ (t.dp.srp k).want = (s.dp.srp k).want) ∧
    (s.dp.srpReady k r = true → (s.dp.srp k).cut = false → exec (.grantRelease k) s = .next s)) ∧
  (∀ (s : State) (k r c : Nat), k < 6 → r < 6 → (s.dp.srp k).grant = some (r, c) → (s.dp.srp k).cut = false →
    ∃ t, exec (.holdCut k) s = .next t ∧ t.sh = s.sh ∧ t.pending = s.pending ∧
      (∀ q, (s.dp.srp k).presented = some q → t.dp.srp k = { s.dp.srp k with cut := true } ∧ t.dp.rd F.stpEvt_HOLD_CUT = 1 ∧
        t.dp.rd F.stpReqCuts_CUTS (8 * k + r) = min (s.dp.rd F.stpReqCuts_CUTS (8 * k + r) + 1) (2 ^ 32 - 1)) ∧
      ((s.dp.srp k).presented = none → (t.dp.srp k).grant = none ∧
        (s.dp.srpReady k r = false → t.dp.regs = s.dp.regs) ∧
        (s.dp.srpReady k r = true → t.dp.rd F.stpEvt_HOLD_CUT = 1))) ∧
  (∀ (s : State) (k : Nat), ∃ t, exec (.quotaWindowStart k) s = .next t ∧ t.sh = s.sh ∧ t.pending = s.pending ∧
    { t.dp with stp := s.dp.stp } = s.dp ∧ t.dp.srp k = { s.dp.srp k with used := [] } ∧ ∀ j, j ≠ k → t.dp.srp j = s.dp.srp j) ∧
  (∀ (s : State) (k r c tag : Nat) (q : SReq), k < 6 → (s.dp.srp k).presented = some (q, tag) →
    (s.dp.srp k).grant = some (r, c) →
    ∃ t, exec (.srpRequestTransfer k) s = .next t ∧ t.sh = s.sh ∧ t.pending = s.pending ∧ t.dp.regs = s.dp.regs ∧
      (q.write = false → (t.dp.srp k).reads = Tab.set (s.dp.srp k).reads tag { req := q } ∧
        (t.dp.srp k).writes = (s.dp.srp k).writes ∧ (t.dp.srp k).wbeats = (s.dp.srp k).wbeats) ∧
      (q.write = true → (t.dp.srp k).writes = (s.dp.srp k).writes ++ [q] ∧
        (t.dp.srp k).wbeats = (s.dp.srp k).wbeats ++ q.beats ∧ (t.dp.srp k).reads = (s.dp.srp k).reads) ∧
      (c ≠ 0 → Tab.get (t.dp.srp k).used c 0 = Tab.get (s.dp.srp k).used c 0 + q.len) ∧
      ((s.dp.srp k).cut = true → (t.dp.srp k).grant = none) ∧
      ((s.dp.srp k).want = [] → (t.dp.srp k).presented = none)) ∧
  (∀ (s : State) (k : Nat) (b : WBeat) (bs : List WBeat), k < 6 → (s.dp.srp k).wbeats = b :: bs →
    ∃ t, exec (.srpWriteBeatTransfer k) s = .next t ∧ t.sh = s.sh ∧ t.pending = s.pending ∧
      t.dp.srp k = { s.dp.srp k with wbeats := bs } ∧ t.dp.trg = s.dp.trg ∧ ∀ j, j ≠ k → t.dp.srp j = s.dp.srp j) ∧
  (∀ (s : State) (k tag : Nat) (data : List Byte) (resp : Nat) (last : Bool), k < 6 → s.sh.blkN = true →
    ∃ t, exec (.readBeat k tag data resp last) s = .next t ∧ t.pending = s.pending ∧
      (Tab.find (s.dp.srp k).reads tag = none → t.sh = s.sh ∧ (t.dp.srp k).stopped = true ∧
        t.dp.rd F.stpPortStat_PROTO k = 1 ∧ t.dp.trg = s.dp.trg) ∧
      (∀ r, Tab.find (s.dp.srp k).reads tag = some r → last = false → r.got + 1 ≠ r.req.len → t.sh = s.sh ∧
        t.dp.trg = s.dp.trg ∧ Tab.find (t.dp.srp k).reads tag = some { r with
          got := r.got + 1
          err := if r.err = 0 then respCode resp else r.err
          bytes := r.bytes ++ slice data 0 256 }) ∧
      (∀ r c ofs, Tab.find (s.dp.srp k).reads tag = some r → last = true → r.got + 1 = r.req.len → r.err = 0 →
        respCode resp = 0 → r.req.job = .ci c ofs → r.req.orphan = false → c < 4096 → s.dp.ringRuns c = true → t.sh = s.sh ∧
        Tab.find (t.dp.srp k).reads tag = none ∧ (t.dp.ring c).ciWait = false ∧
        t.dp.rd F.trgCqStat_CI c = le (r.bytes ++ slice data 0 256) ofs 4 % 2 ^ 16 ∧
        t.dp.rd F.trgCqStat_CI_PHASE c = le (r.bytes ++ slice data 0 256) ofs 4 / 2 ^ 31)) ∧
  (∀ (s : State) (k resp : Nat), k < 6 → s.sh.blkN = true →
    ∃ t, exec (.writeResponse k resp) s = .next t ∧ t.pending = s.pending ∧
      ((s.dp.srp k).writes = [] → t.sh = s.sh ∧ (t.dp.srp k).stopped = true ∧ t.dp.rd F.stpPortStat_PROTO k = 1) ∧
      (∀ q ws c, (s.dp.srp k).writes = q :: ws → q.job = .cpl c → c < 4096 → t.sh = s.sh ∧ (t.dp.srp k).writes = ws ∧
        (respCode resp = 0 → t.dp.regs = s.dp.regs ∧ t.dp.trg = s.dp.trg) ∧
        (respCode resp ≠ 0 → t.dp.rd F.stpEvt_RESP_ERR = 1 ∧
          (q.orphan = false → s.dp.rd F.trgCqCtl_STATE c ≠ QS.disabled → t.dp.rd F.trgCqCtl_STATE c = QS.error ∧ t.dp.rd F.trgCqCtl_ERR c = 7) ∧
          (s.dp.rd F.stpErrCtl_NEW k = 0 → s.dp.meets .storeNew k = false → t.dp.rd F.stpErrCtl_NEW k = 1 ∧ t.dp.rd F.stpErrCtl_CODE k = respCode resp ∧
            t.dp.rd F.stpErrCtl_DIR k = b2n q.write)))) ∧
  (∀ (s : State) (k tag : Nat) (data : List Byte) (resp : Nat) (last : Bool), s.sh.blkN = false →
    ∃ t u, exec (.readBeat k tag data resp last) s = .next t ∧ exec (.writeResponse k resp) s = .next u ∧ t.sh = s.sh ∧
      u.sh = s.sh ∧ t.pending = s.pending ∧ u.pending = s.pending ∧ { t.dp with stp := s.dp.stp } = s.dp ∧
      { u.dp with stp := s.dp.stp } = s.dp ∧ (Tab.find (s.dp.srp k).reads tag = none → t.dp = s.dp) ∧
      ((t.dp.srp k).stopped = (s.dp.srp k).stopped) ∧ (u.dp.srp k).stopped = (s.dp.srp k).stopped ∧
      (last = true → Tab.find (t.dp.srp k).reads tag = none) ∧ (u.dp.srp k).writes = (s.dp.srp k).writes.drop 1)

/-- O53: The contexts of the check-value units (CONTEXT_INIT, CONTEXT_FEED, CONTEXT_STATE_WRITE). INIT sets S to the
initial value of the context's algorithm, 0xFFFF for CRC-16 and all ones for the others, and COUNT to 0. A feed
runs the enabled bytes, lowest first or with SWAP highest first, through the algorithm and adds their number to
COUNT. A state write takes the enabled bytes, for CRC-16 the two low ones only. INIT and a state write cost the
context one core clock and a feed one for each byte, during which BUSY reads 1; no other context owes more
(R546). That the values change at once, and the clocks owed show in BUSY alone, is the model's reading (log
entry 74). Rests on spec/18_check_value_units.md R535, spec/18_check_value_units.md R536,
spec/18_check_value_units.md R544, spec/18_check_value_units.md R545, spec/18_check_value_units.md R546,
spec/18_check_value_units.md R547. -/
def Obligations.CheckValueContexts : Prop :=
  (∀ (s : State) (src : Src) (c : Nat), c < 16 → s.reaches src (Reg.cvuCtxCmd.addr c 0) true = true →
    ∃ t, exec (.contextInit src c) s = .next t ∧ t.pending = s.pending ∧ t.sh.regs = s.sh.regs ∧
      { t.dp with regs := s.dp.regs, cvu := s.dp.cvu } = s.dp ∧ t.dp.rd F.cvuCtxCount_COUNT c = 0 ∧
      Tab.get t.dp.cvu.owed c 0 = Tab.get s.dp.cvu.owed c 0 + 1 ∧ (t.dp.cvuCfgWord c).getLsbD 31 = true ∧
      (∀ e, e ≠ c → Tab.get t.dp.cvu.owed e 0 = Tab.get s.dp.cvu.owed e 0) ∧
      (s.dp.rd F.cvuCtxCfg_ALG c = 2 → t.dp.rd F.cvuCtxState_S c = 0xFFFF) ∧
      (s.dp.rd F.cvuCtxCfg_ALG c ≠ 2 → t.dp.rd F.cvuCtxState_S c = 0xFFFFFFFF)) ∧
  (∀ (s : State) (src : Src) (c : Nat) (be : BitVec 4) (data : Word) (bs : List Byte), c < 16 →
    s.reaches src (Reg.cvuCtxFeed.addr c 0) true = true →
    bs = (if s.dp.flag F.cvuCtxCfg_SWAP c then List.reverse else id)
      (((List.range 4).filter (fun i => be.getLsbD i)).map (fun i => BitVec.ofNat 8 (data.toNat / 2 ^ (8 * i)))) →
    ∃ t, exec (.contextFeed src c be data) s = .next t ∧ t.pending = s.pending ∧ t.sh.regs = s.sh.regs ∧
      { t.dp with regs := s.dp.regs, cvu := s.dp.cvu } = s.dp ∧
      Tab.get t.dp.cvu.owed c 0 = Tab.get s.dp.cvu.owed c 0 + bs.length ∧ (bs ≠ [] → (t.dp.cvuCfgWord c).getLsbD 31 = true) ∧
      (∀ e, e ≠ c → Tab.get t.dp.cvu.owed e 0 = Tab.get s.dp.cvu.owed e 0) ∧
      t.dp.rd F.cvuCtxCount_COUNT c = (s.dp.rd F.cvuCtxCount_COUNT c + bs.length) % 2 ^ 32 ∧
      t.dp.rd F.cvuCtxState_S c = bs.foldl (cvuByte (s.dp.cvuAlg c)) (s.dp.rd F.cvuCtxState_S c) % 2 ^ 32 ∧
      t.dp.rd F.cvuCtxCfg_ALG c = s.dp.rd F.cvuCtxCfg_ALG c) ∧
  (∀ (s : State) (src : Src) (c : Nat) (be : BitVec 4) (data : Word), c < 16 →
    s.reaches src (Reg.cvuCtxState.addr c 0) true = true →
    ∃ t, exec (.contextStateWrite src c be data) s = .next t ∧ t.pending = s.pending ∧ t.sh.regs = s.sh.regs ∧
      { t.dp with regs := s.dp.regs, cvu := s.dp.cvu } = s.dp ∧
      Tab.get t.dp.cvu.owed c 0 = Tab.get s.dp.cvu.owed c 0 + 1 ∧ (t.dp.cvuCfgWord c).getLsbD 31 = true ∧
      (∀ e, e ≠ c → Tab.get t.dp.cvu.owed e 0 = Tab.get s.dp.cvu.owed e 0) ∧ t.dp.rd F.cvuCtxCount_COUNT c = s.dp.rd F.cvuCtxCount_COUNT c ∧
      RegFile.word t.dp.regs .cvuCtxState c 0 =
        mergeBytes (if s.dp.rd F.cvuCtxCfg_ALG c = 2 then be &&& 3 else be) data (RegFile.word s.dp.regs .cvuCtxState c 0))

/-- O54: Triggers, runs and records of the housekeeping DMA (HDMA_START, HDMA_TIMER, HDMA_SELECT, HDMA_COMPLETE,
HDMA_RSP_TIMEOUT, HDMA_DISABLE, HDMA_RESUME, HDMA_POP). A software or timer trigger makes an idle enabled
channel PENDING, else counts as OVERRUN (where none came before it in its clock: which triggers share a clock is
free, log entry 84). A timer trigger is not taken while a power entry has been accepted and the block has not
come back from it. The engine selects the only pending channel: one that fails its check ends with status 2, a
legacy one reads its descriptor. A complete run returns to IDLE with a record and triggers its chained channel.
A response limit ends the run with status 8 and stops the engine; RESUME clears that. Clearing EN ends a pending
or running channel, the latter with status 1 (the bytes of that record are open, log entry 3). A pop drops the
oldest record and admits a waiting one. Rests on spec/19_housekeeping_dma.md R552, spec/19_housekeeping_dma.md
R553, spec/19_housekeeping_dma.md R554, spec/19_housekeeping_dma.md R556, spec/19_housekeeping_dma.md R557,
spec/19_housekeeping_dma.md R558, spec/19_housekeeping_dma.md R559, spec/19_housekeeping_dma.md R560,
spec/19_housekeeping_dma.md R561, spec/19_housekeeping_dma.md R563, spec/19_housekeeping_dma.md R564,
spec/19_housekeeping_dma.md R566. -/
def Obligations.HousekeepingChannels : Prop :=
  (∀ (s : State) (src : Src) (c : Nat) (be : BitVec 4) (data : Word), c < 16 → s.reaches src (Reg.hdmChCtl.addr c 0) true = true →
    ∃ t, exec (.hdmaStart src c be data) s = .next t ∧ t.pending = s.pending ∧ t.sh.regs = s.sh.regs ∧
      (data.getLsbD 31 = true → s.dp.meets .dmaTrigger 0 = false → s.dp.hdmState c = HS.idle → t.dp.hdmState c = HS.pending ∧
        Tab.find t.dp.hdm.trig c = some (0, s.dp.hdm.nextTrig) ∧ t.dp.hdm.run = s.dp.hdm.run ∧
        t.dp.hdm.nextTrig = s.dp.hdm.nextTrig + 1 ∧ ∀ j, j ≠ c → Tab.find t.dp.hdm.trig j = Tab.find s.dp.hdm.trig j) ∧
      (data.getLsbD 31 = true → s.dp.meets .dmaTrigger 0 = false → s.dp.hdmState c ≠ HS.idle → t.dp.hdm = s.dp.hdm ∧ t.dp.hdmState c = s.dp.hdmState c ∧
        t.dp.rd F.hdmChStat_OVERRUN c = 1 ∧ t.dp.rd F.hdmEvt_TRIG_MISS = 1) ∧
      (data.getLsbD 31 = false → s.dp.rd F.hdmChCtl_EN c = 0 → t.dp.hdm = s.dp.hdm ∧ t.dp.rd F.hdmEvt_REFUSED = 1)) ∧
  (∀ (s : State) (c : Nat), c < 16 → s.dp.flag F.hdmChCtl_TIMER_EN c = true → s.dp.flag F.hdmChCtl_EN c = true →
    (s.sh.seq.entered = false → s.dp.meets .dmaTrigger 0 = false → s.dp.hdmState c = HS.idle →
      ∃ t, exec (.hdmaTimer c) s = .next t ∧ t.sh = s.sh ∧ t.pending = s.pending ∧ t.dp.hdmState c = HS.pending ∧
        Tab.find t.dp.hdm.trig c = some (1, s.dp.hdm.nextTrig) ∧ t.dp.hdm.run = s.dp.hdm.run) ∧
    (s.sh.seq.kind ∈ [SeqKind.window, .quiesce, .entry, .cruise, .wake] ∨ s.sh.seq.state.asleep = true → exec (.hdmaTimer c) s = .next s)) ∧
  (∀ (s : State) (c kind n : Nat), c < 16 → s.dp.hdm.run = none → s.dp.hdm.drain = none → s.dp.hdmStopped = false →
    s.dp.hdm.queue.length < 256 → s.dp.hdm.trig = [(c, kind, n)] →
    ∃ t, exec .hdmaSelect s = .next t ∧ t.pending = s.pending ∧
      (∀ src k, s.dp.rd F.hdmChCtl_MODE c = 1 → src = s.dp.rd F.hdmChSrcHi_ADDR c * 2 ^ 32 + s.dp.rd F.hdmChSrcLo_ADDR c →
        src % 32 = 0 → s.dp.hdmPortOk c = true → k = s.dp.rd F.hdmChCfg_PORT c → (s.dp.srp k).grant = none → t.sh = s.sh ∧
        t.dp.hdmState c = HS.running ∧ t.dp.hdm.trig = [] ∧
        (∃ r, t.dp.hdm.run = some r ∧ r.ch = c ∧ r.trig = kind ∧ r.legacy = true ∧ r.desc = true ∧ r.next = src) ∧
        ∃ w, (t.dp.srp k).want = (s.dp.srp k).want ++ [w] ∧ w.write = false ∧ w.addr = src / 256 * 256 ∧ w.len = 1 ∧
          w.tenant = s.dp.rd F.hdmChCfg_TENANT c ∧ w.r = 5) ∧
      (s.dp.rd F.hdmChCtl_MODE c = 0 → s.dp.hdm.waiting = [] →
        s.dp.hdmCheck c (s.dp.rd F.hdmChSrcHi_ADDR c * 2 ^ 32 + s.dp.rd F.hdmChSrcLo_ADDR c)
          (s.dp.rd F.hdmChDstHi_ADDR c * 2 ^ 32 + s.dp.rd F.hdmChDstLo_ADDR c) (s.dp.rd F.hdmChCount_COUNT c)
          (s.dp.flag F.hdmChCfg_SRC_SPACE c) (s.dp.flag F.hdmChCfg_DST_SPACE c) = false → t.sh = s.sh ∧
        t.dp.hdmState c = HS.idle ∧ t.dp.hdm.trig = [] ∧ t.dp.hdm.run = none ∧ t.dp.rd F.hdmEvt_ERROR = 1 ∧
        t.dp.hdm.queue = s.dp.hdm.queue ++ [hdmRecord (s.dp.hdm.seq % 2 ^ 32) 0 2 kind c 0])) ∧
  (∀ (s : State) (r : HRun), s.dp.hdm.run = some r → r.ch < 16 → s.dp.hdmState r.ch = HS.running → r.fail = none →
    r.desc = false → r.held = false → r.wpos = r.count → r.legacy = false → s.dp.hdmUnsent r.id = 0 →
    s.dp.hdm.queue.length < 256 → s.dp.hdm.waiting = [] →
    ∃ t, exec .hdmaComplete s = .next t ∧ t.sh = s.sh ∧ t.pending = s.pending ∧
      (s.dp.rd F.hdmChCtl_WAIT_WR r.ch = 0 ∨ s.dp.hdmWritesOpen r.id = false → s.dp.rd F.hdmChCtl_QUIET r.ch = 0 →
        t.dp.hdm.run = none ∧ t.dp.rd F.hdmChLeft_LEFT r.ch = 0 ∧
        t.dp.hdm.queue = s.dp.hdm.queue ++ [hdmRecord (s.dp.hdm.seq % 2 ^ 32) (min r.links 65535) 0 r.trig r.ch r.count] ∧
        (s.dp.rd F.hdmChCtl_CHAIN_EN r.ch = 0 → t.dp.hdmState r.ch = HS.idle ∧ t.dp.hdm.trig = s.dp.hdm.trig) ∧
        (∀ e, s.dp.rd F.hdmChCtl_CHAIN_EN r.ch = 1 → e = s.dp.rd F.hdmChCtl_CHAIN_TO r.ch → e ≠ r.ch →
          s.dp.flag F.hdmChCtl_EN e = true → s.dp.meets .dmaTrigger 0 = false → s.dp.hdmState e = HS.idle → t.dp.hdmState e = HS.pending ∧
          Tab.find t.dp.hdm.trig e = some (2, s.dp.hdm.nextTrig))) ∧
      (s.dp.rd F.hdmChCtl_WAIT_WR r.ch = 1 → s.dp.hdmWritesOpen r.id = true → t.dp.hdm = s.dp.hdm ∧
        t.dp.hdmState r.ch = HS.waitWr)) ∧
  (∀ (s : State) (r : HRun) (id : Nat) (q : HReq), s.dp.hdm.run = some r → r.ch < 16 → s.dp.hdm.reqs = [(id, q)] →
    q.run = r.id → r.fail = none → r.held = false → r.buf = [] → s.dp.hdmHeld = false →
    (∀ j w, j < 6 → w ∈ (s.dp.srp j).want → w.job ≠ .hdma id) →
    (∀ j w g, j < 6 → (s.dp.srp j).presented = some (w, g) → w.job ≠ .hdma id) →
    s.dp.hdm.queue.length < 256 → s.dp.hdm.waiting = [] →
    ∃ t, exec (.hdmaRspTimeout q.write q.pos) s = .next t ∧ t.sh = s.sh ∧ t.pending = s.pending ∧ t.dp.hdm.run = none ∧
      t.dp.hdm.reqs = [] ∧ t.dp.hdmState r.ch = HS.idle ∧ t.dp.hdmStopped = true ∧
      t.dp.hdm.queue = s.dp.hdm.queue ++ [hdmRecord (s.dp.hdm.seq % 2 ^ 32) (min r.links 65535) 8 r.trig r.ch q.pos]) ∧
  (∀ (s : State) (src : Src) (c : Nat) (be : BitVec 4) (data : Word), c < 16 → s.reaches src (Reg.hdmChCtl.addr c 0) true = true →
    s.dp.flag F.hdmChCtl_EN c = true →
    ∃ t, exec (.hdmaDisable src c be data) s = .next t ∧ t.pending = s.pending ∧ t.sh.regs = s.sh.regs ∧
      t.dp.rd F.hdmChCtl_EN c = 0 ∧
      (s.dp.hdmState c = HS.pending → t.dp.hdmState c = HS.idle ∧ Tab.find t.dp.hdm.trig c = none ∧
        t.dp.hdm.run = s.dp.hdm.run) ∧
      (∀ r, s.dp.hdm.run = some r → r.ch = c → s.dp.hdmState c ≠ HS.pending → s.dp.hdm.queue.length < 256 →
        s.dp.hdm.waiting = [] → t.dp.hdm.run = none ∧ t.dp.hdmState c = HS.idle ∧ ∃ b, t.dp.hdm.queue = s.dp.hdm.queue ++
          [hdmRecord (s.dp.hdm.seq % 2 ^ 32) (min r.links 65535) 1 r.trig c b])) ∧
  (∀ (s : State) (src : Src), s.reaches src (Reg.hdmCtl.addr 0 0) true = true →
    ∃ t, exec (.hdmaResume src) s = .next t ∧ t.pending = s.pending ∧ t.sh.regs = s.sh.regs ∧
      t.dp = s.dp.wr F.hdmStat_STOPPED 0 ∧ t.dp.hdmStopped = false) ∧
  (∀ (s : State) (src : Src), s.reaches src (Reg.hdmCplPop.addr 0 0) true = true →
    ∃ t, exec (.hdmaPop src) s = .next t ∧ t.pending = s.pending ∧ t.sh.regs = s.sh.regs ∧
      (s.dp.hdm.waiting = [] → t.dp = { s.dp with hdm := { s.dp.hdm with queue := s.dp.hdm.queue.drop 1 } }) ∧
      (∀ r, s.dp.hdm.waiting = [(r, none)] → s.dp.hdm.queue.length = 256 →
        t.dp = { s.dp with hdm := { s.dp.hdm with queue := s.dp.hdm.queue.drop 1 ++ [r], waiting := [] } }))

/-- O55: Hello, dead and claim timers, CLAIM and RELEASE of the flock (HELLO_TIMER, DEAD_TIMER_EXPIRE, CLAIM_TIMER,
CLAIM, RELEASE). A link in PROBING or UP queues a HELLO while its four places are not full. The dead timer takes
a link in UP to PROBING, out of the links in UP, and reports it. The claim timer sends another claim on every
link in UP while tries of the role (1 to 15) are left, else the address is claimed. CLAIM starts claiming the
configured address from OFF or CONFLICT in a role, RELEASE gives a claimed address up; in other states both do
nothing. That a CLAIM frame carries CSEQ before its increment, and that CLAIM in MODE 0 does nothing, are the
model's reading (log entry 63, DEDUCED). Rests on spec/17_flock.md R527, spec/17_flock.md R529, spec/17_flock.md
R530, spec/17_flock.md R531. -/
def Obligations.FlockTimersAndClaims : Prop :=
  (∀ (s : State) (l : Nat), l < 32 →
    (s.dp.flkState l ≠ FL.down → (s.dp.flkLink l).ctrl.length < 4 →
      ∃ t, exec (.helloTimer l) s = .next t ∧ t.sh = s.sh ∧ t.pending = s.pending ∧ { t.dp with flk := s.dp.flk } = s.dp ∧
        t.dp.flkLink l = { s.dp.flkLink l with ctrl := (s.dp.flkLink l).ctrl ++
          [s.dp.flkControl l 1 1 s.dp.flkIdent 0 (if s.dp.flkValid then s.dp.flkAddr else 0)] } ∧
        ∀ k, k ≠ l → t.dp.flkLink k = s.dp.flkLink k) ∧
    (s.dp.flkState l = FL.down ∨ 4 ≤ (s.dp.flkLink l).ctrl.length → exec (.helloTimer l) s = .next s)) ∧
  (∀ (s : State) (l : Nat), l < 32 →
    (s.dp.flkState l = FL.up → ∃ t, exec (.deadTimerExpire l) s = .next t ∧ t.sh = s.sh ∧ t.pending = s.pending ∧
      { t.dp with regs := s.dp.regs } = s.dp ∧ t.dp.flkState l = FL.probing ∧ t.dp.rdBit F.flkLinkUp_UP l = false ∧
      t.dp.rdBit F.flkLinkChg_CHG l = true ∧
      ∀ k, k ≠ l → k < 32 → t.dp.flkState k = s.dp.flkState k ∧ t.dp.rdBit F.flkLinkUp_UP k = s.dp.rdBit F.flkLinkUp_UP k) ∧
    (s.dp.flkState l ≠ FL.up → exec (.deadTimerExpire l) s = .next s)) ∧
  (∀ s : State,
    (s.dp.rd F.flkStat_STATE = FA.claiming → s.dp.rd F.flkStat_TRIES < s.dp.flkTries → s.dp.flkTries ≤ 15 →
      ∃ t, exec .claimTimer s = .next t ∧ t.sh = s.sh ∧ t.pending = s.pending ∧
        t.dp.rd F.flkStat_TRIES = s.dp.rd F.flkStat_TRIES + 1 ∧ t.dp.rd F.flkStat_STATE = FA.claiming ∧
        t.dp.flk.cseq = (s.dp.flk.cseq + 1) % 65536 ∧
        ∀ l, l < 32 → (s.dp.flkState l = FL.up → (s.dp.flkLink l).ctrl.length < 4 → t.dp.flkLink l = { s.dp.flkLink l with
          ctrl := (s.dp.flkLink l).ctrl ++
            [s.dp.flkControl l 2 s.dp.flkClaimTtl s.dp.flkIdent s.dp.flk.cseq s.dp.flkAddr] }) ∧
          (s.dp.flkState l ≠ FL.up → t.dp.flkLink l = s.dp.flkLink l)) ∧
    (s.dp.rd F.flkStat_STATE = FA.claiming → s.dp.flkTries ≤ s.dp.rd F.flkStat_TRIES →
      ∃ t, exec .claimTimer s = .next t ∧ t.sh = s.sh ∧ t.pending = s.pending ∧ { t.dp with regs := s.dp.regs } = s.dp ∧
        t.dp.rd F.flkStat_STATE = FA.claimed ∧ t.dp.flkValid = true ∧ t.dp.rd F.flkEvt_CLAIMED = 1 ∧
        t.dp.flkAddr = s.dp.flkAddr) ∧
    (s.dp.rd F.flkStat_STATE ≠ FA.claiming → exec .claimTimer s = .next s)) ∧
  (∀ (s : State) (src : Src), s.reaches src (Reg.flkCtl.addr 0 0) true = true →
    (∃ t, exec (.claim src) s = .next t ∧ t.pending = s.pending ∧ t.sh.regs = s.sh.regs ∧
      (s.dp.flkMode ≠ 0 → s.dp.rd F.flkStat_STATE = FA.off ∨ s.dp.rd F.flkStat_STATE = FA.conflict →
        t.dp.rd F.flkStat_STATE = FA.claiming ∧ t.dp.flkAddr = s.dp.rd F.flkAddr_ADDR ∧ t.dp.rd F.flkStat_TRIES = 1 ∧
        t.dp.flkValid = false) ∧
      (s.dp.flkMode = 0 ∨ (s.dp.rd F.flkStat_STATE ≠ FA.off ∧ s.dp.rd F.flkStat_STATE ≠ FA.conflict) → t.dp = s.dp)) ∧
    (∃ t, exec (.release src) s = .next t ∧ t.pending = s.pending ∧ t.sh.regs = s.sh.regs ∧
      { t.dp with regs := s.dp.regs } = s.dp ∧
      (s.dp.rd F.flkStat_STATE = FA.claimed → t.dp.rd F.flkStat_STATE = FA.off ∧ t.dp.flkValid = false) ∧
      (s.dp.rd F.flkStat_STATE ≠ FA.claimed → t.dp = s.dp)))

/-- O56: Tallies and monitor counters (TALLY_LO_READ, TALLY_HI_WRITE, TALLY_LO_WRITE, TALLY_SNAP, TALLY_CLEAR,
PMN_RUN, CLEAR_ALL, PMN_LO_READ, PMN_CONFIG_WRITE). A read of a low word answers bits 31 to 0 and keeps the high
part and wrap flag in the reader's shadow of the pen, or of the monitor. A write of a high word loads the
shadow, a write of a low word sets the tally from shadow and word and clears its wrap flag; where no increment
came in its clock nothing else changes, and otherwise at most the port's event bits, which the displaced
increment set (R577; which increments share the write's clock is free, log entry 84). A snapshot copies every
tally of a port, and with CLEAR also clears them. PMN_CTL starts and stops the counters and clears them all; as
RUN falls the core clocks that started slots have taken are counted first (R588; log entry 73: the model's
reading); a configuration write sets the counter's word and leaves the counts. Rests on spec/20_tallies.md R574,
spec/20_tallies.md R575, spec/20_tallies.md R579, spec/21_performance_monitor.md R582,
spec/21_performance_monitor.md R591, spec/21_performance_monitor.md R593, spec/20_tallies.md R577,
spec/21_performance_monitor.md R588, spec/21_performance_monitor.md R592. -/
def Obligations.TalliesAndMonitor : Prop :=
  (∀ (s : State) (src : Src) (pen m k v : Nat), s.dp.tallyAt pen m = some k → v = Tab.get s.dp.tally k 0 →
    (s.reaches src (Reg.penTallyLo.addr pen m) false = true →
      ∃ t, exec (.tallyLoRead src pen m) s = .next t ∧ t.pending = s.pending ∧ t.sh.regs = s.sh.regs ∧
        t.dp = s.dp.setTShadow (readerOf src) pen (v / 2 ^ 32, Tab.get s.dp.tallyWrap k false) ∧
        (∀ p x r, src = .port p → (s.sh.port p).acc = some x → x.is false (Reg.penTallyLo.addr pen m) = true →
          x.stage = .inFlight → (s.sh.link.slot p).dp = some r → r.req.loader = false → r.done = none →
          (t.sh.link.slot p).dp = some { r with done := some (BitVec.ofNat 32 v) })) ∧
    (∀ be data, s.reaches src (Reg.penTallyHi.addr pen m) true = true →
      ∃ t, exec (.tallyHiWrite src pen m be data) s = .next t ∧ t.pending = s.pending ∧ t.sh.regs = s.sh.regs ∧
        t.dp.tally = s.dp.tally ∧ t.dp.tallyWrap = s.dp.tallyWrap ∧ t.dp.regs = s.dp.regs ∧
        t.dp.tShadow (readerOf src) pen = ((mergeBytes be data
          (BitVec.ofNat 32 (s.dp.tShadow (readerOf src) pen).1)).toNat % 2 ^ 24, (s.dp.tShadow (readerOf src) pen).2)) ∧
    (∀ be data, s.reaches src (Reg.penTallyLo.addr pen m) true = true →
      ∃ t, exec (.tallyLoWrite src pen m be data) s = .next t ∧ t.pending = s.pending ∧ t.sh.regs = s.sh.regs ∧
        (s.dp.together = [] → { t.dp with tally := s.dp.tally, tallyWrap := s.dp.tallyWrap } = s.dp) ∧
        { t.dp with
          tally := s.dp.tally, tallyWrap := s.dp.tallyWrap, regs := s.dp.regs, together := s.dp.together
          cel := { t.dp.cel with draws := s.dp.cel.draws } } = s.dp ∧
        (∀ a, a ≠ Reg.penTallyEvt.addr (penOf (k / 128)) 0 → Tab.find t.dp.regs a = Tab.find s.dp.regs a) ∧
        Tab.get t.dp.tally k 0 = (s.dp.tShadow (readerOf src) pen).1 * 2 ^ 32 + (mergeBytes be data (BitVec.ofNat 32 v)).toNat ∧
        Tab.get t.dp.tallyWrap k false = false ∧
        ∀ j, j ≠ k → Tab.get t.dp.tally j 0 = Tab.get s.dp.tally j 0 ∧
          Tab.get t.dp.tallyWrap j false = Tab.get s.dp.tallyWrap j false)) ∧
  (∀ (s : State) (src : Src) (pen i p : Nat), i < 16 → s.dp.portIndex pen i = true → p = portAt pen i →
    s.reaches src (Reg.penTallyCtl.addr pen 0) true = true →
    (∀ clear, ∃ t, exec (.tallySnap src pen i clear) s = .next t ∧ t.pending = s.pending ∧ t.sh.regs = s.sh.regs ∧
      (∀ n, n < 96 → Tab.get t.dp.snap (96 * pen + n) (0, false) =
        (Tab.get s.dp.tally (128 * p + n) 0, Tab.get s.dp.tallyWrap (128 * p + n) false)) ∧
      (clear = false → t.dp.tally = s.dp.tally ∧ t.dp.tallyWrap = s.dp.tallyWrap) ∧
      (clear = true → ∀ n, Tab.get t.dp.tally n 0 = (if n / 128 = p then 0 else Tab.get s.dp.tally n 0))) ∧
    (∃ t, exec (.tallyClear src pen i) s = .next t ∧ t.pending = s.pending ∧ t.sh.regs = s.sh.regs ∧
      t.dp.snap = s.dp.snap ∧ (s.dp.together = [] → t.dp.regs = s.dp.regs) ∧
      (∀ n, Tab.get t.dp.tally n 0 = (if n / 128 = p then 0 else Tab.get s.dp.tally n 0)) ∧
      ∀ n, Tab.get t.dp.tallyWrap n false = (if n / 128 = p then false else Tab.get s.dp.tallyWrap n false))) ∧
  (∀ (s : State) (src : Src) (run : Bool), s.reaches src (Reg.pmnCtl.addr 0 0) true = true →
    (∃ t, exec (.pmnRun src run) s = .next t ∧ t.pending = s.pending ∧ t.sh.regs = s.sh.regs ∧
      t.dp.rd F.pmnCtl_RUN = b2n run ∧
      { t.dp with regs := s.dp.regs, pmn := s.dp.pmn, together := s.dp.together } = s.dp ∧
      (run = true ∨ s.dp.flag F.pmnCtl_RUN = false → { t.dp with regs := s.dp.regs } = s.dp) ∧
      (∀ n, run = false → s.dp.flag F.pmnCtl_RUN = true → n = (s.dp.pmn.started.foldl (fun n e => max n e.2) 0 + 1) / 2 →
        n ≠ 0 → Tab.get t.dp.pmn.cnt 8 0 = (Tab.get s.dp.pmn.cnt 8 0 + n) % 2 ^ 48)) ∧
    (∃ t, exec (.clearAll src run) s = .next t ∧ t.pending = s.pending ∧ t.sh.regs = s.sh.regs ∧
      t.dp.pmn.cnt = [] ∧ t.dp.pmn.wrap = [] ∧ t.dp.pmn.shadow = s.dp.pmn.shadow ∧
      (s.dp.together = [] → run = true ∨ s.dp.flag F.pmnCtl_RUN = false →
        t.dp.pmn = { s.dp.pmn with cnt := [], wrap := [] } ∧ { t.dp with regs := s.dp.regs, pmn := s.dp.pmn } = s.dp) ∧
      { t.dp with
        regs := s.dp.regs, pmn := s.dp.pmn, together := s.dp.together, cel := { t.dp.cel with draws := s.dp.cel.draws } } = s.dp ∧
      t.dp.rd F.pmnCtl_RUN = b2n run)) ∧
  (∀ (s : State) (src : Src) (j : Nat), j < 9 → s.reaches src (pmnLoAddr j) false = true →
    ∃ t, exec (.pmnLoRead src j) s = .next t ∧ t.pending = s.pending ∧ t.sh.regs = s.sh.regs ∧
      { t.dp with pmn := s.dp.pmn } = s.dp ∧ t.dp.pmn.cnt = s.dp.pmn.cnt ∧
      Tab.get t.dp.pmn.shadow (readerOf src) (0, false) =
        (Tab.get s.dp.pmn.cnt j 0 / 2 ^ 32, Tab.get s.dp.pmn.wrap j false) ∧
      (∀ p x r, src = .port p → (s.sh.port p).acc = some x → x.is false (pmnLoAddr j) = true →
        x.stage = .inFlight → (s.sh.link.slot p).dp = some r → r.req.loader = false → r.done = none →
        (t.sh.link.slot p).dp = some { r with done := some (BitVec.ofNat 32 (Tab.get s.dp.pmn.cnt j 0)) })) ∧
  (∀ (s : State) (src : Src) (k : Nat) (be : BitVec 4) (data : Word), k < 8 → s.reaches src (Reg.pmnCfg.addr k 0) true = true →
    ∃ t, exec (.pmnConfigWrite src k be data) s = .next t ∧ t.pending = s.pending ∧ t.sh.regs = s.sh.regs ∧
      { t.dp with regs := s.dp.regs } = s.dp ∧
      RegFile.word t.dp.regs .pmnCfg k 0 = Reg.pmnCfg.writeWord false be data (RegFile.word s.dp.regs .pmnCfg k 0))

/-- O57: Every command completes and leaves the queue of waiting commands alone. For every command and every state
there is a next state: no command faults and none is refused, whatever state the block is in. No command changes
the queue of the commands that wait; that the queue exists is the model's own form (log entry 8). Rests on
spec/95_what_each_step_holds.md, spec/23_register_index.md. -/
def Obligations.EveryCommandCompletes : Prop :=
  ∀ (c : Instr) (s : State), ∃ t, exec c s = .next t ∧ t.pending = s.pending

/-- O58: No command breaks the clock handshakes, and none changes the core clock's selection while it runs. Whatever
the command and the state: a clock request that rises does so with its acknowledge at 0; only CLOCK_ACK_CHANGE
of a clock changes the acknowledge of that clock; and clk_sel_core changes only with clk_ack_core at 0, but for
the power-on reset, which takes every output to its reset level. Rests on spec/02_block_boundary.md R36,
spec/02_block_boundary.md R39. -/
def Obligations.ClockHandshakesHold : Prop :=
  ∀ (c : Instr) (s t : State), exec c s = .next t →
    (∀ x, (s.sh.clk x).req = false → (t.sh.clk x).req = true → (t.sh.clk x).ack = false) ∧
    (∀ x, x < 4 → (t.sh.clk x).ack ≠ (s.sh.clk x).ack → c = .clockAckChange x) ∧
    (c ≠ .powerOnResetRelease → t.sh.selCore ≠ s.sh.selCore → (t.sh.clk 0).ack = false)

/-- O59: The state after reset has its shape and no retention where none can be. At State.reset every list of fixed
length has its length, and retention stands at 1 on no domain that has no retention-capable memory, nor does a
step that waits raise it there. Rests on spec/02_block_boundary.md R82, spec/05_start_up_and_reset.md R154. -/
def Obligations.ResetStateIsLegal : Prop :=
  State.reset.shaped = true ∧ State.reset.sh.retLegal = true

/-- O60: Every step keeps the state's shape and raises retention only on domains that have a memory to retain. From
every state in which the lists of fixed length have their lengths, and in which retention stands at 1 only on
PD9, PD11 to PD14, PD16 and PD17 and no waiting step of the power sequencer would raise it elsewhere, each step,
whatever the command at the front of the queue, gives such a state again. Rests on spec/02_block_boundary.md
R82, spec/22_power.md R599. -/
def Obligations.StepsKeepLegalState : Prop :=
  ∀ (s t : State), s.shaped = true → s.sh.retLegal = true → step s = .next t →
    t.shaped = true ∧ t.sh.retLegal = true
end

