-- ==== Sys2Proof/Laws/Tab.lean ====
section
/-! SUPPORT. Laws of the sparse tables: what a table lists after a write, and that writes keep the canonical
form. -/

namespace Sys2Proof.Machine

@[simp] theorem Tab.find_nil {α : Type} (k : Nat) : Tab.find ([] : Tab α) k = none := rfl

@[simp] theorem Tab.find_set_same {α : Type} (t : Tab α) (k : Nat) (v : α) : Tab.find (Tab.set t k v) k = some v := by
  induction t with
  | nil => simp [Tab.set, Tab.find]
  | cons e t ih =>
    obtain ⟨a, b⟩ := e
    simp only [Tab.set]
    split
    · next h => rw [Tab.find, if_neg (by omega)]; exact ih
    · split <;> simp [Tab.find]

theorem Tab.find_set_ne {α : Type} (t : Tab α) {k k' : Nat} (h : k' ≠ k) (v : α) :
    Tab.find (Tab.set t k v) k' = Tab.find t k' := by
  induction t with
  | nil => simp [Tab.set, Tab.find, Ne.symm h]
  | cons e t ih =>
    obtain ⟨a, b⟩ := e
    simp only [Tab.set]
    split
    · simp only [Tab.find, ih]
    · split
      · next he => subst he; simp [Tab.find, Ne.symm h]
      · simp [Tab.find, Ne.symm h]

@[simp] theorem Tab.find_erase_same {α : Type} (t : Tab α) (k : Nat) : Tab.find (Tab.erase t k) k = none := by
  induction t with
  | nil => rfl
  | cons e t ih =>
    obtain ⟨a, b⟩ := e
    simp only [Tab.erase]
    split
    · exact ih
    · next h => simp only [Tab.find, if_neg h]; exact ih

theorem Tab.find_erase_ne {α : Type} (t : Tab α) {k k' : Nat} (h : k' ≠ k) :
    Tab.find (Tab.erase t k) k' = Tab.find t k' := by
  induction t with
  | nil => rfl
  | cons e t ih =>
    obtain ⟨a, b⟩ := e
    simp only [Tab.erase]
    split
    · next he => subst he; rw [ih, Tab.find, if_neg (Ne.symm h)]
    · simp only [Tab.find, ih]

@[simp] theorem Tab.get_set_same {α : Type} (t : Tab α) (k : Nat) (v d : α) : Tab.get (Tab.set t k v) k d = v := by
  simp [Tab.get]

theorem Tab.get_set_ne {α : Type} (t : Tab α) {k k' : Nat} (h : k' ≠ k) (v d : α) :
    Tab.get (Tab.set t k v) k' d = Tab.get t k' d := by
  simp [Tab.get, Tab.find_set_ne t h]

/-- A table written with `put` reads the value written at its key. -/
@[simp] theorem Tab.get_put_same {α : Type} [DecidableEq α] (t : Tab α) (k : Nat) (v d : α) :
    Tab.get (Tab.put t k v d) k d = v := by
  unfold Tab.put
  split
  · next h => simp [Tab.get, h]
  · simp

/-- A table written with `put` reads as before at every other key. -/
theorem Tab.find_put_ne {α : Type} [DecidableEq α] (t : Tab α) {k k' : Nat} (h : k' ≠ k) (v d : α) :
    Tab.find (Tab.put t k v d) k' = Tab.find t k' := by
  unfold Tab.put
  split
  · exact Tab.find_erase_ne t h
  · exact Tab.find_set_ne t h v

theorem Tab.get_put_ne {α : Type} [DecidableEq α] (t : Tab α) {k k' : Nat} (h : k' ≠ k) (v d e : α) :
    Tab.get (Tab.put t k v d) k' e = Tab.get t k' e := by
  simp [Tab.get, Tab.find_put_ne t h]

/-! ## The canonical form -/

/-- The keys of a table lie above a bound. -/
def Tab.above {α : Type} (t : Tab α) (n : Nat) : Bool := t.all (fun e => decide (n < e.1))

theorem Tab.rising_cons {α : Type} (e : Nat × α) (t : Tab α) :
    Tab.rising (e :: t) = true ↔ Tab.above t e.1 = true ∧ Tab.rising t = true := by
  induction t generalizing e with
  | nil => simp [Tab.rising, Tab.above]
  | cons f t ih =>
    obtain ⟨a, b⟩ := e
    obtain ⟨c, d⟩ := f
    simp only [Tab.rising, Bool.and_eq_true, decide_eq_true_eq]
    rw [ih]
    simp only [Tab.above, List.all_cons, Bool.and_eq_true, decide_eq_true_eq, List.all_eq_true]
    constructor
    · rintro ⟨h1, h2, h3⟩
      exact ⟨⟨h1, fun x hx => Nat.lt_trans h1 (h2 x hx)⟩, h2, h3⟩
    · rintro ⟨⟨h1, _⟩, h2, h3⟩
      exact ⟨h1, h2, h3⟩

theorem Tab.above_set {α : Type} (t : Tab α) (n k : Nat) (v : α) (h : Tab.above t n = true) (hk : n < k) :
    Tab.above (Tab.set t k v) n = true := by
  induction t with
  | nil => simp [Tab.set, Tab.above, hk]
  | cons e t ih =>
    obtain ⟨a, b⟩ := e
    simp only [Tab.above, List.all_cons, Bool.and_eq_true, decide_eq_true_eq] at h ih
    simp only [Tab.set]
    split
    · simp only [Tab.above, List.all_cons, Bool.and_eq_true, decide_eq_true_eq]
      exact ⟨h.1, ih h.2⟩
    · split <;> simp only [Tab.above, List.all_cons, Bool.and_eq_true, decide_eq_true_eq]
      · exact ⟨hk, h.2⟩
      · exact ⟨hk, h⟩

theorem Tab.above_erase {α : Type} (t : Tab α) (n k : Nat) (h : Tab.above t n = true) :
    Tab.above (Tab.erase t k) n = true := by
  induction t with
  | nil => rfl
  | cons e t ih =>
    obtain ⟨a, b⟩ := e
    simp only [Tab.above, List.all_cons, Bool.and_eq_true, decide_eq_true_eq] at h ih
    simp only [Tab.erase]
    split
    · exact ih h.2
    · simp only [Tab.above, List.all_cons, Bool.and_eq_true, decide_eq_true_eq]
      exact ⟨h.1, ih h.2⟩

/-- Listing a value keeps the keys rising. -/
theorem Tab.rising_set {α : Type} (t : Tab α) (k : Nat) (v : α) (h : Tab.rising t = true) :
    Tab.rising (Tab.set t k v) = true := by
  induction t with
  | nil => rfl
  | cons e t ih =>
    obtain ⟨a, b⟩ := e
    have h' := (Tab.rising_cons _ _).1 h
    simp only [Tab.set]
    split
    · next hlt => exact (Tab.rising_cons _ _).2 ⟨Tab.above_set t a k v h'.1 hlt, ih h'.2⟩
    · split
      · next he => subst he; exact (Tab.rising_cons _ _).2 h'
      · next hlt hne =>
        refine (Tab.rising_cons _ _).2 ⟨?_, h⟩
        have hk : k < a := by omega
        have h1 := h'.1
        simp only [Tab.above, List.all_cons, Bool.and_eq_true, decide_eq_true_eq, List.all_eq_true] at h1 ⊢
        exact ⟨hk, fun x hx => Nat.lt_trans hk (h1 x hx)⟩

/-- Removing a key keeps the keys rising. -/
theorem Tab.rising_erase {α : Type} (t : Tab α) (k : Nat) (h : Tab.rising t = true) :
    Tab.rising (Tab.erase t k) = true := by
  induction t with
  | nil => rfl
  | cons e t ih =>
    obtain ⟨a, b⟩ := e
    have h' := (Tab.rising_cons _ _).1 h
    simp only [Tab.erase]
    split
    · exact ih h'.2
    · exact (Tab.rising_cons _ _).2 ⟨Tab.above_erase t a k h'.1, ih h'.2⟩

theorem Tab.all_set {α : Type} (t : Tab α) (k : Nat) (v : α) (p : Nat × α → Bool) (h : t.all p = true)
    (hv : p (k, v) = true) : (Tab.set t k v).all p = true := by
  induction t with
  | nil => simp [Tab.set, hv]
  | cons e t ih =>
    obtain ⟨a, b⟩ := e
    simp only [List.all_cons, Bool.and_eq_true] at h
    simp only [Tab.set]
    split
    · simp only [List.all_cons, Bool.and_eq_true]; exact ⟨h.1, ih h.2⟩
    · split <;> simp only [List.all_cons, Bool.and_eq_true]
      · exact ⟨hv, h.2⟩
      · exact ⟨hv, h⟩

theorem Tab.all_erase {α : Type} (t : Tab α) (k : Nat) (p : Nat × α → Bool) (h : t.all p = true) :
    (Tab.erase t k).all p = true := by
  induction t with
  | nil => rfl
  | cons e t ih =>
    obtain ⟨a, b⟩ := e
    simp only [List.all_cons, Bool.and_eq_true] at h
    simp only [Tab.erase]
    split
    · exact ih h.2
    · simp only [List.all_cons, Bool.and_eq_true]; exact ⟨h.1, ih h.2⟩

/-- A write keeps a table's canonical form. -/
theorem Tab.wf_put {α : Type} [DecidableEq α] (t : Tab α) (k : Nat) (v d : α) (h : Tab.wf t d = true) :
    Tab.wf (Tab.put t k v d) d = true := by
  simp only [Tab.wf, Bool.and_eq_true] at h ⊢
  unfold Tab.put
  split
  · exact ⟨Tab.rising_erase t k h.1, Tab.all_erase t k _ h.2⟩
  · next hv => exact ⟨Tab.rising_set t k v h.1, Tab.all_set t k v _ h.2 (by simp [hv])⟩

/-- Dropping entries keeps a table's canonical form. -/
theorem Tab.above_filter {α : Type} (t : Tab α) (n : Nat) (p : Nat × α → Bool) (h : Tab.above t n = true) :
    Tab.above (t.filter p) n = true := by
  simp only [Tab.above, List.all_eq_true, List.mem_filter] at h ⊢
  exact fun x hx => h x hx.1

theorem Tab.rising_filter {α : Type} (t : Tab α) (p : Nat × α → Bool) (h : Tab.rising t = true) :
    Tab.rising (t.filter p) = true := by
  induction t with
  | nil => rfl
  | cons e t ih =>
    have h' := (Tab.rising_cons _ _).1 h
    simp only [List.filter_cons]
    split
    · exact (Tab.rising_cons _ _).2 ⟨Tab.above_filter t e.1 p h'.1, ih h'.2⟩
    · exact ih h'.2

theorem Tab.wf_drop {α : Type} [DecidableEq α] (t : Tab α) (d : α) (p : Nat → Bool) (h : Tab.wf t d = true) :
    Tab.wf (Tab.drop t p) d = true := by
  simp only [Tab.wf, Bool.and_eq_true] at h ⊢
  refine ⟨Tab.rising_filter t _ h.1, ?_⟩
  have h2 := h.2
  simp only [Tab.drop, List.all_eq_true, List.mem_filter] at h2 ⊢
  exact fun x hx => h2 x hx.1

end Sys2Proof.Machine
end

