-- ==== Sys2Proof/Laws/Regs.lean ====
section
/-! SUPPORT. Laws of the register fields: what a field reads after the hardware wrote it or another one. -/

namespace Sys2Proof.Machine

/-- A bit of a word after a field was put into it. -/
theorem putBits_testBit (w : Word) (hi lo v k : Nat) (hk : k < 32) :
    (putBits w hi lo v).toNat.testBit k = if lo ≤ k ∧ k < hi + 1 then (v.testBit (k - lo)) else w.toNat.testBit k := by
  have hmask : (0xFFFFFFFF : Nat) = 2 ^ 32 - 1 := by decide
  simp only [putBits, BitVec.toNat_ofNat, Nat.testBit_mod_two_pow, hk, decide_true, Bool.true_and, Nat.testBit_or,
    Nat.testBit_and, Nat.testBit_xor, Nat.testBit_shiftLeft, hmask, Nat.testBit_two_pow_sub_one]
  by_cases h1 : lo ≤ k
  · by_cases h2 : k < hi + 1
    · have : k - lo < hi + 1 - lo := by omega
      simp [h1, h2, this]
    · have : ¬ (k - lo < hi + 1 - lo) := by omega
      simp [h1, h2, this]
  · simp [h1]

/-- A bit of a field. -/
theorem bitsOf_testBit (w : Word) (hi lo k : Nat) :
    (bitsOf w hi lo).testBit k = (decide (k < hi + 1 - lo) && w.toNat.testBit (lo + k)) := by
  simp [bitsOf, Nat.testBit_mod_two_pow, Nat.testBit_shiftRight]

/-- A field reads what was put into it. -/
theorem bitsOf_putBits_same (w : Word) (hi lo v : Nat) (h : hi < 32) :
    bitsOf (putBits w hi lo v) hi lo = v % 2 ^ (hi + 1 - lo) := by
  apply Nat.eq_of_testBit_eq
  intro k
  rw [bitsOf_testBit, Nat.testBit_mod_two_pow]
  by_cases hk : k < hi + 1 - lo
  · rw [putBits_testBit _ _ _ _ _ (by omega), if_pos (by omega)]
    simp
  · simp [hk]

/-- A field keeps its value when a field beside it is put. -/
theorem bitsOf_putBits_apart (w : Word) (hi lo hi' lo' v : Nat) (h : hi < 32) (ha : hi < lo' ∨ hi' < lo) :
    bitsOf (putBits w hi' lo' v) hi lo = bitsOf w hi lo := by
  apply Nat.eq_of_testBit_eq
  intro k
  rw [bitsOf_testBit, bitsOf_testBit]
  by_cases hk : k < hi + 1 - lo
  · rw [putBits_testBit _ _ _ _ _ (by omega), if_neg (by omega)]
  · simp [hk]

theorem bitsOf_lt (w : Word) (hi lo : Nat) : bitsOf w hi lo < 2 ^ (hi + 1 - lo) := Nat.mod_lt _ (Nat.two_pow_pos _)

/-- A field as the datapath reads it. -/
theorem Datapath.rd_lt (d : Datapath) (f : RegField) (i j : Nat) : d.rd f i j < 2 ^ (f.hi + 1 - f.lo) := bitsOf_lt _ _ _

@[simp] theorem RegFile.word_setWord_same (t : RegFile) (r : Reg) (i j : Nat) (w : Word) :
    RegFile.word (RegFile.setWord t r i j w) r i j = w := Tab.get_put_same _ _ _ _

/-- A register keeps its word when a register at another address is written. -/
theorem RegFile.word_setWord_ne (t : RegFile) (r r' : Reg) (i j i' j' : Nat) (w : Word)
    (h : r'.addr i' j' ≠ r.addr i j) : RegFile.word (RegFile.setWord t r i j w) r' i' j' = RegFile.word t r' i' j' :=
  Tab.get_put_ne _ h _ _ _

/-- The field just written reads the value, modulo its width. -/
theorem RegFile.rd_wr_same (t : RegFile) (f : RegField) (i j v : Nat) (h : f.hi < 32) :
    RegFile.rd (RegFile.wr t f i j v) f i j = v % 2 ^ (f.hi + 1 - f.lo) := by
  simp [RegFile.rd, RegFile.wr, bitsOf_putBits_same _ _ _ _ h]

/-- A field of a register at another address keeps its value. -/
theorem RegFile.rd_wr_ne (t : RegFile) (f g : RegField) (i j i' j' v : Nat) (h : g.reg.addr i' j' ≠ f.reg.addr i j) :
    RegFile.rd (RegFile.wr t f i j v) g i' j' = RegFile.rd t g i' j' := by
  simp only [RegFile.rd, RegFile.wr, RegFile.word_setWord_ne _ _ _ _ _ _ _ _ h]

/-- A field beside the one written, in the same register, keeps its value. -/
theorem RegFile.rd_wr_apart (t : RegFile) (f g : RegField) (i j v : Nat) (hr : g.reg = f.reg) (h : g.hi < 32)
    (ha : g.hi < f.lo ∨ f.hi < g.lo) : RegFile.rd (RegFile.wr t f i j v) g i j = RegFile.rd t g i j := by
  obtain ⟨fr, fh, fl⟩ := f
  obtain ⟨gr, gh, gl⟩ := g
  subst hr
  simp only [RegFile.rd, RegFile.wr, RegFile.word_setWord_same]
  exact bitsOf_putBits_apart _ _ _ _ _ _ h ha

/-- The datapath's field just written. -/
theorem Datapath.rd_wr_same (d : Datapath) (f : RegField) (i j v : Nat) (h : f.hi < 32) :
    (d.wr f v i j).rd f i j = v % 2 ^ (f.hi + 1 - f.lo) := RegFile.rd_wr_same _ _ _ _ _ h

/-- A datapath field of a register at another address. -/
theorem Datapath.rd_wr_ne (d : Datapath) (f g : RegField) (i j i' j' v : Nat) (h : g.reg.addr i' j' ≠ f.reg.addr i j) :
    (d.wr f v i j).rd g i' j' = d.rd g i' j' := RegFile.rd_wr_ne _ _ _ _ _ _ _ _ h

/-- A datapath field beside the one written. -/
theorem Datapath.rd_wr_apart (d : Datapath) (f g : RegField) (i j v : Nat) (hr : g.reg = f.reg) (h : g.hi < 32)
    (ha : g.hi < f.lo ∨ f.hi < g.lo) : (d.wr f v i j).rd g i j = d.rd g i j := RegFile.rd_wr_apart _ _ _ _ _ _ hr h ha

/-- The shepherd's field just written. -/
theorem Shepherd.rd_wr_same (s : Shepherd) (f : RegField) (i v : Nat) (h : f.hi < 32) :
    (s.wr f v i).rd f i = v % 2 ^ (f.hi + 1 - f.lo) := RegFile.rd_wr_same _ _ _ _ _ h

/-- A shepherd field of a register at another address. -/
theorem Shepherd.rd_wr_ne (s : Shepherd) (f g : RegField) (i i' v : Nat) (h : g.reg.addr i' 0 ≠ f.reg.addr i 0) :
    (s.wr f v i).rd g i' = s.rd g i' := RegFile.rd_wr_ne _ _ _ _ _ _ _ _ h

/-- A shepherd field beside the one written. -/
theorem Shepherd.rd_wr_apart (s : Shepherd) (f g : RegField) (i v : Nat) (hr : g.reg = f.reg) (h : g.hi < 32)
    (ha : g.hi < f.lo ∨ f.hi < g.lo) : (s.wr f v i).rd g i = s.rd g i := RegFile.rd_wr_apart _ _ _ _ _ _ hr h ha

end Sys2Proof.Machine
end

