-- ==== Sys2Proof/Laws/State.lean ====
section
/-! SUPPORT. One lemma per field per update of the state records: what an update leaves alone, and what it sets. -/

namespace Sys2Proof.Machine

/-! ## The block -/

@[simp] theorem State.onDp_sh (s : State) (f : Datapath → Datapath) : (s.onDp f).sh = s.sh := rfl
@[simp] theorem State.onDp_pending (s : State) (f : Datapath → Datapath) : (s.onDp f).pending = s.pending := rfl
@[simp] theorem State.onDp_freeSeed (s : State) (f : Datapath → Datapath) : (s.onDp f).freeSeed = s.freeSeed := rfl

@[simp] theorem State.onDp_dp (s : State) (f : Datapath → Datapath) : (s.onDp f).dp = f s.dp := rfl
@[simp] theorem State.onSh_dp (s : State) (f : Shepherd → Shepherd) : (s.onSh f).dp = s.dp := rfl
@[simp] theorem State.onSh_pending (s : State) (f : Shepherd → Shepherd) : (s.onSh f).pending = s.pending := rfl
@[simp] theorem State.onSh_freeSeed (s : State) (f : Shepherd → Shepherd) : (s.onSh f).freeSeed = s.freeSeed := rfl

@[simp] theorem State.onSh_sh (s : State) (f : Shepherd → Shepherd) : (s.onSh f).sh = f s.sh := rfl

/-! ## The datapath -/

@[simp] theorem Datapath.wr_stage (d : Datapath) (f : RegField) (v i j : Nat) : (d.wr f v i j).stage = d.stage := rfl
@[simp] theorem Datapath.wr_carve (d : Datapath) (f : RegField) (v i j : Nat) : (d.wr f v i j).carve = d.carve := rfl
@[simp] theorem Datapath.wr_portMode (d : Datapath) (f : RegField) (v i j : Nat) : (d.wr f v i j).portMode = d.portMode := rfl
@[simp] theorem Datapath.wr_sortTab (d : Datapath) (f : RegField) (v i j : Nat) : (d.wr f v i j).sortTab = d.sortTab := rfl
@[simp] theorem Datapath.wr_profile (d : Datapath) (f : RegField) (v i j : Nat) : (d.wr f v i j).profile = d.profile := rfl
@[simp] theorem Datapath.wr_pattern (d : Datapath) (f : RegField) (v i j : Nat) : (d.wr f v i j).pattern = d.pattern := rfl
@[simp] theorem Datapath.wr_bufferPlan (d : Datapath) (f : RegField) (v i j : Nat) : (d.wr f v i j).bufferPlan = d.bufferPlan := rfl
@[simp] theorem Datapath.wr_larderGeom (d : Datapath) (f : RegField) (v i j : Nat) : (d.wr f v i j).larderGeom = d.larderGeom := rfl
@[simp] theorem Datapath.wr_queueMap (d : Datapath) (f : RegField) (v i j : Nat) : (d.wr f v i j).queueMap = d.queueMap := rfl
@[simp] theorem Datapath.wr_timePlan (d : Datapath) (f : RegField) (v i j : Nat) : (d.wr f v i j).timePlan = d.timePlan := rfl
@[simp] theorem Datapath.wr_flockRole (d : Datapath) (f : RegField) (v i j : Nat) : (d.wr f v i j).flockRole = d.flockRole := rfl
@[simp] theorem Datapath.wr_tally (d : Datapath) (f : RegField) (v i j : Nat) : (d.wr f v i j).tally = d.tally := rfl
@[simp] theorem Datapath.wr_tallyWrap (d : Datapath) (f : RegField) (v i j : Nat) : (d.wr f v i j).tallyWrap = d.tallyWrap := rfl
@[simp] theorem Datapath.wr_snap (d : Datapath) (f : RegField) (v i j : Nat) : (d.wr f v i j).snap = d.snap := rfl
@[simp] theorem Datapath.wr_tallyShadow (d : Datapath) (f : RegField) (v i j : Nat) : (d.wr f v i j).tallyShadow = d.tallyShadow := rfl
@[simp] theorem Datapath.wr_sigDet (d : Datapath) (f : RegField) (v i j : Nat) : (d.wr f v i j).sigDet = d.sigDet := rfl
@[simp] theorem Datapath.wr_txQuiet (d : Datapath) (f : RegField) (v i j : Nat) : (d.wr f v i j).txQuiet = d.txQuiet := rfl
@[simp] theorem Datapath.wr_rxQuiet (d : Datapath) (f : RegField) (v i j : Nat) : (d.wr f v i j).rxQuiet = d.rxQuiet := rfl
@[simp] theorem Datapath.wr_waking (d : Datapath) (f : RegField) (v i j : Nat) : (d.wr f v i j).waking = d.waking := rfl
@[simp] theorem Datapath.wr_linkHeld (d : Datapath) (f : RegField) (v i j : Nat) : (d.wr f v i j).linkHeld = d.linkHeld := rfl
@[simp] theorem Datapath.wr_gated (d : Datapath) (f : RegField) (v i j : Nat) : (d.wr f v i j).gated = d.gated := rfl
@[simp] theorem Datapath.wr_rx (d : Datapath) (f : RegField) (v i j : Nat) : (d.wr f v i j).rx = d.rx := rfl
@[simp] theorem Datapath.wr_frames (d : Datapath) (f : RegField) (v i j : Nat) : (d.wr f v i j).frames = d.frames := rfl
@[simp] theorem Datapath.wr_nextFrame (d : Datapath) (f : RegField) (v i j : Nat) : (d.wr f v i j).nextFrame = d.nextFrame := rfl
@[simp] theorem Datapath.wr_ready (d : Datapath) (f : RegField) (v i j : Nat) : (d.wr f v i j).ready = d.ready := rfl
@[simp] theorem Datapath.wr_passes (d : Datapath) (f : RegField) (v i j : Nat) : (d.wr f v i j).passes = d.passes := rfl
@[simp] theorem Datapath.wr_lar (d : Datapath) (f : RegField) (v i j : Nat) : (d.wr f v i j).lar = d.lar := rfl
@[simp] theorem Datapath.wr_pmn (d : Datapath) (f : RegField) (v i j : Nat) : (d.wr f v i j).pmn = d.pmn := rfl
@[simp] theorem Datapath.wr_lines (d : Datapath) (f : RegField) (v i j : Nat) : (d.wr f v i j).lines = d.lines := rfl
@[simp] theorem Datapath.wr_meters (d : Datapath) (f : RegField) (v i j : Nat) : (d.wr f v i j).meters = d.meters := rfl
@[simp] theorem Datapath.wr_meterLast (d : Datapath) (f : RegField) (v i j : Nat) : (d.wr f v i j).meterLast = d.meterLast := rfl
@[simp] theorem Datapath.wr_flow (d : Datapath) (f : RegField) (v i j : Nat) : (d.wr f v i j).flow = d.flow := rfl
@[simp] theorem Datapath.wr_cel (d : Datapath) (f : RegField) (v i j : Nat) : (d.wr f v i j).cel = d.cel := rfl
@[simp] theorem Datapath.wr_copies (d : Datapath) (f : RegField) (v i j : Nat) : (d.wr f v i j).copies = d.copies := rfl
@[simp] theorem Datapath.wr_nextCopy (d : Datapath) (f : RegField) (v i j : Nat) : (d.wr f v i j).nextCopy = d.nextCopy := rfl
@[simp] theorem Datapath.wr_drv (d : Datapath) (f : RegField) (v i j : Nat) : (d.wr f v i j).drv = d.drv := rfl
@[simp] theorem Datapath.wr_tx (d : Datapath) (f : RegField) (v i j : Nat) : (d.wr f v i j).tx = d.tx := rfl
@[simp] theorem Datapath.wr_trg (d : Datapath) (f : RegField) (v i j : Nat) : (d.wr f v i j).trg = d.trg := rfl
@[simp] theorem Datapath.wr_stp (d : Datapath) (f : RegField) (v i j : Nat) : (d.wr f v i j).stp = d.stp := rfl
@[simp] theorem Datapath.wr_tim (d : Datapath) (f : RegField) (v i j : Nat) : (d.wr f v i j).tim = d.tim := rfl
@[simp] theorem Datapath.wr_flk (d : Datapath) (f : RegField) (v i j : Nat) : (d.wr f v i j).flk = d.flk := rfl
@[simp] theorem Datapath.wr_hdm (d : Datapath) (f : RegField) (v i j : Nat) : (d.wr f v i j).hdm = d.hdm := rfl
@[simp] theorem Datapath.wr_cvu (d : Datapath) (f : RegField) (v i j : Nat) : (d.wr f v i j).cvu = d.cvu := rfl
@[simp] theorem Datapath.wr_wakeReq (d : Datapath) (f : RegField) (v i j : Nat) : (d.wr f v i j).wakeReq = d.wakeReq := rfl
@[simp] theorem Datapath.wr_together (d : Datapath) (f : RegField) (v i j : Nat) : (d.wr f v i j).together = d.together := rfl

@[simp] theorem Datapath.wrBit_stage (d : Datapath) (f : RegField) (n : Nat) (b : Bool) (i j : Nat) : (d.wrBit f n b i j).stage = d.stage := rfl
@[simp] theorem Datapath.wrBit_carve (d : Datapath) (f : RegField) (n : Nat) (b : Bool) (i j : Nat) : (d.wrBit f n b i j).carve = d.carve := rfl
@[simp] theorem Datapath.wrBit_portMode (d : Datapath) (f : RegField) (n : Nat) (b : Bool) (i j : Nat) : (d.wrBit f n b i j).portMode = d.portMode := rfl
@[simp] theorem Datapath.wrBit_sortTab (d : Datapath) (f : RegField) (n : Nat) (b : Bool) (i j : Nat) : (d.wrBit f n b i j).sortTab = d.sortTab := rfl
@[simp] theorem Datapath.wrBit_profile (d : Datapath) (f : RegField) (n : Nat) (b : Bool) (i j : Nat) : (d.wrBit f n b i j).profile = d.profile := rfl
@[simp] theorem Datapath.wrBit_pattern (d : Datapath) (f : RegField) (n : Nat) (b : Bool) (i j : Nat) : (d.wrBit f n b i j).pattern = d.pattern := rfl
@[simp] theorem Datapath.wrBit_bufferPlan (d : Datapath) (f : RegField) (n : Nat) (b : Bool) (i j : Nat) : (d.wrBit f n b i j).bufferPlan = d.bufferPlan := rfl
@[simp] theorem Datapath.wrBit_larderGeom (d : Datapath) (f : RegField) (n : Nat) (b : Bool) (i j : Nat) : (d.wrBit f n b i j).larderGeom = d.larderGeom := rfl
@[simp] theorem Datapath.wrBit_queueMap (d : Datapath) (f : RegField) (n : Nat) (b : Bool) (i j : Nat) : (d.wrBit f n b i j).queueMap = d.queueMap := rfl
@[simp] theorem Datapath.wrBit_timePlan (d : Datapath) (f : RegField) (n : Nat) (b : Bool) (i j : Nat) : (d.wrBit f n b i j).timePlan = d.timePlan := rfl
@[simp] theorem Datapath.wrBit_flockRole (d : Datapath) (f : RegField) (n : Nat) (b : Bool) (i j : Nat) : (d.wrBit f n b i j).flockRole = d.flockRole := rfl
@[simp] theorem Datapath.wrBit_tally (d : Datapath) (f : RegField) (n : Nat) (b : Bool) (i j : Nat) : (d.wrBit f n b i j).tally = d.tally := rfl
@[simp] theorem Datapath.wrBit_tallyWrap (d : Datapath) (f : RegField) (n : Nat) (b : Bool) (i j : Nat) : (d.wrBit f n b i j).tallyWrap = d.tallyWrap := rfl
@[simp] theorem Datapath.wrBit_snap (d : Datapath) (f : RegField) (n : Nat) (b : Bool) (i j : Nat) : (d.wrBit f n b i j).snap = d.snap := rfl
@[simp] theorem Datapath.wrBit_tallyShadow (d : Datapath) (f : RegField) (n : Nat) (b : Bool) (i j : Nat) : (d.wrBit f n b i j).tallyShadow = d.tallyShadow := rfl
@[simp] theorem Datapath.wrBit_sigDet (d : Datapath) (f : RegField) (n : Nat) (b : Bool) (i j : Nat) : (d.wrBit f n b i j).sigDet = d.sigDet := rfl
@[simp] theorem Datapath.wrBit_txQuiet (d : Datapath) (f : RegField) (n : Nat) (b : Bool) (i j : Nat) : (d.wrBit f n b i j).txQuiet = d.txQuiet := rfl
@[simp] theorem Datapath.wrBit_rxQuiet (d : Datapath) (f : RegField) (n : Nat) (b : Bool) (i j : Nat) : (d.wrBit f n b i j).rxQuiet = d.rxQuiet := rfl
@[simp] theorem Datapath.wrBit_waking (d : Datapath) (f : RegField) (n : Nat) (b : Bool) (i j : Nat) : (d.wrBit f n b i j).waking = d.waking := rfl
@[simp] theorem Datapath.wrBit_linkHeld (d : Datapath) (f : RegField) (n : Nat) (b : Bool) (i j : Nat) : (d.wrBit f n b i j).linkHeld = d.linkHeld := rfl
@[simp] theorem Datapath.wrBit_gated (d : Datapath) (f : RegField) (n : Nat) (b : Bool) (i j : Nat) : (d.wrBit f n b i j).gated = d.gated := rfl
@[simp] theorem Datapath.wrBit_rx (d : Datapath) (f : RegField) (n : Nat) (b : Bool) (i j : Nat) : (d.wrBit f n b i j).rx = d.rx := rfl
@[simp] theorem Datapath.wrBit_frames (d : Datapath) (f : RegField) (n : Nat) (b : Bool) (i j : Nat) : (d.wrBit f n b i j).frames = d.frames := rfl
@[simp] theorem Datapath.wrBit_nextFrame (d : Datapath) (f : RegField) (n : Nat) (b : Bool) (i j : Nat) : (d.wrBit f n b i j).nextFrame = d.nextFrame := rfl
@[simp] theorem Datapath.wrBit_ready (d : Datapath) (f : RegField) (n : Nat) (b : Bool) (i j : Nat) : (d.wrBit f n b i j).ready = d.ready := rfl
@[simp] theorem Datapath.wrBit_passes (d : Datapath) (f : RegField) (n : Nat) (b : Bool) (i j : Nat) : (d.wrBit f n b i j).passes = d.passes := rfl
@[simp] theorem Datapath.wrBit_lar (d : Datapath) (f : RegField) (n : Nat) (b : Bool) (i j : Nat) : (d.wrBit f n b i j).lar = d.lar := rfl
@[simp] theorem Datapath.wrBit_pmn (d : Datapath) (f : RegField) (n : Nat) (b : Bool) (i j : Nat) : (d.wrBit f n b i j).pmn = d.pmn := rfl
@[simp] theorem Datapath.wrBit_lines (d : Datapath) (f : RegField) (n : Nat) (b : Bool) (i j : Nat) : (d.wrBit f n b i j).lines = d.lines := rfl
@[simp] theorem Datapath.wrBit_meters (d : Datapath) (f : RegField) (n : Nat) (b : Bool) (i j : Nat) : (d.wrBit f n b i j).meters = d.meters := rfl
@[simp] theorem Datapath.wrBit_meterLast (d : Datapath) (f : RegField) (n : Nat) (b : Bool) (i j : Nat) : (d.wrBit f n b i j).meterLast = d.meterLast := rfl
@[simp] theorem Datapath.wrBit_flow (d : Datapath) (f : RegField) (n : Nat) (b : Bool) (i j : Nat) : (d.wrBit f n b i j).flow = d.flow := rfl
@[simp] theorem Datapath.wrBit_cel (d : Datapath) (f : RegField) (n : Nat) (b : Bool) (i j : Nat) : (d.wrBit f n b i j).cel = d.cel := rfl
@[simp] theorem Datapath.wrBit_copies (d : Datapath) (f : RegField) (n : Nat) (b : Bool) (i j : Nat) : (d.wrBit f n b i j).copies = d.copies := rfl
@[simp] theorem Datapath.wrBit_nextCopy (d : Datapath) (f : RegField) (n : Nat) (b : Bool) (i j : Nat) : (d.wrBit f n b i j).nextCopy = d.nextCopy := rfl
@[simp] theorem Datapath.wrBit_drv (d : Datapath) (f : RegField) (n : Nat) (b : Bool) (i j : Nat) : (d.wrBit f n b i j).drv = d.drv := rfl
@[simp] theorem Datapath.wrBit_tx (d : Datapath) (f : RegField) (n : Nat) (b : Bool) (i j : Nat) : (d.wrBit f n b i j).tx = d.tx := rfl
@[simp] theorem Datapath.wrBit_trg (d : Datapath) (f : RegField) (n : Nat) (b : Bool) (i j : Nat) : (d.wrBit f n b i j).trg = d.trg := rfl
@[simp] theorem Datapath.wrBit_stp (d : Datapath) (f : RegField) (n : Nat) (b : Bool) (i j : Nat) : (d.wrBit f n b i j).stp = d.stp := rfl
@[simp] theorem Datapath.wrBit_tim (d : Datapath) (f : RegField) (n : Nat) (b : Bool) (i j : Nat) : (d.wrBit f n b i j).tim = d.tim := rfl
@[simp] theorem Datapath.wrBit_flk (d : Datapath) (f : RegField) (n : Nat) (b : Bool) (i j : Nat) : (d.wrBit f n b i j).flk = d.flk := rfl
@[simp] theorem Datapath.wrBit_hdm (d : Datapath) (f : RegField) (n : Nat) (b : Bool) (i j : Nat) : (d.wrBit f n b i j).hdm = d.hdm := rfl
@[simp] theorem Datapath.wrBit_cvu (d : Datapath) (f : RegField) (n : Nat) (b : Bool) (i j : Nat) : (d.wrBit f n b i j).cvu = d.cvu := rfl
@[simp] theorem Datapath.wrBit_wakeReq (d : Datapath) (f : RegField) (n : Nat) (b : Bool) (i j : Nat) : (d.wrBit f n b i j).wakeReq = d.wakeReq := rfl
@[simp] theorem Datapath.wrBit_together (d : Datapath) (f : RegField) (n : Nat) (b : Bool) (i j : Nat) : (d.wrBit f n b i j).together = d.together := rfl

@[simp] theorem Datapath.count_stage (d : Datapath) (f : RegField) (n i j : Nat) : (d.count f n i j).stage = d.stage := rfl
@[simp] theorem Datapath.count_carve (d : Datapath) (f : RegField) (n i j : Nat) : (d.count f n i j).carve = d.carve := rfl
@[simp] theorem Datapath.count_portMode (d : Datapath) (f : RegField) (n i j : Nat) : (d.count f n i j).portMode = d.portMode := rfl
@[simp] theorem Datapath.count_sortTab (d : Datapath) (f : RegField) (n i j : Nat) : (d.count f n i j).sortTab = d.sortTab := rfl
@[simp] theorem Datapath.count_profile (d : Datapath) (f : RegField) (n i j : Nat) : (d.count f n i j).profile = d.profile := rfl
@[simp] theorem Datapath.count_pattern (d : Datapath) (f : RegField) (n i j : Nat) : (d.count f n i j).pattern = d.pattern := rfl
@[simp] theorem Datapath.count_bufferPlan (d : Datapath) (f : RegField) (n i j : Nat) : (d.count f n i j).bufferPlan = d.bufferPlan := rfl
@[simp] theorem Datapath.count_larderGeom (d : Datapath) (f : RegField) (n i j : Nat) : (d.count f n i j).larderGeom = d.larderGeom := rfl
@[simp] theorem Datapath.count_queueMap (d : Datapath) (f : RegField) (n i j : Nat) : (d.count f n i j).queueMap = d.queueMap := rfl
@[simp] theorem Datapath.count_timePlan (d : Datapath) (f : RegField) (n i j : Nat) : (d.count f n i j).timePlan = d.timePlan := rfl
@[simp] theorem Datapath.count_flockRole (d : Datapath) (f : RegField) (n i j : Nat) : (d.count f n i j).flockRole = d.flockRole := rfl
@[simp] theorem Datapath.count_tally (d : Datapath) (f : RegField) (n i j : Nat) : (d.count f n i j).tally = d.tally := rfl
@[simp] theorem Datapath.count_tallyWrap (d : Datapath) (f : RegField) (n i j : Nat) : (d.count f n i j).tallyWrap = d.tallyWrap := rfl
@[simp] theorem Datapath.count_snap (d : Datapath) (f : RegField) (n i j : Nat) : (d.count f n i j).snap = d.snap := rfl
@[simp] theorem Datapath.count_tallyShadow (d : Datapath) (f : RegField) (n i j : Nat) : (d.count f n i j).tallyShadow = d.tallyShadow := rfl
@[simp] theorem Datapath.count_sigDet (d : Datapath) (f : RegField) (n i j : Nat) : (d.count f n i j).sigDet = d.sigDet := rfl
@[simp] theorem Datapath.count_txQuiet (d : Datapath) (f : RegField) (n i j : Nat) : (d.count f n i j).txQuiet = d.txQuiet := rfl
@[simp] theorem Datapath.count_rxQuiet (d : Datapath) (f : RegField) (n i j : Nat) : (d.count f n i j).rxQuiet = d.rxQuiet := rfl
@[simp] theorem Datapath.count_waking (d : Datapath) (f : RegField) (n i j : Nat) : (d.count f n i j).waking = d.waking := rfl
@[simp] theorem Datapath.count_linkHeld (d : Datapath) (f : RegField) (n i j : Nat) : (d.count f n i j).linkHeld = d.linkHeld := rfl
@[simp] theorem Datapath.count_gated (d : Datapath) (f : RegField) (n i j : Nat) : (d.count f n i j).gated = d.gated := rfl
@[simp] theorem Datapath.count_rx (d : Datapath) (f : RegField) (n i j : Nat) : (d.count f n i j).rx = d.rx := rfl
@[simp] theorem Datapath.count_frames (d : Datapath) (f : RegField) (n i j : Nat) : (d.count f n i j).frames = d.frames := rfl
@[simp] theorem Datapath.count_nextFrame (d : Datapath) (f : RegField) (n i j : Nat) : (d.count f n i j).nextFrame = d.nextFrame := rfl
@[simp] theorem Datapath.count_ready (d : Datapath) (f : RegField) (n i j : Nat) : (d.count f n i j).ready = d.ready := rfl
@[simp] theorem Datapath.count_passes (d : Datapath) (f : RegField) (n i j : Nat) : (d.count f n i j).passes = d.passes := rfl
@[simp] theorem Datapath.count_lar (d : Datapath) (f : RegField) (n i j : Nat) : (d.count f n i j).lar = d.lar := rfl
@[simp] theorem Datapath.count_pmn (d : Datapath) (f : RegField) (n i j : Nat) : (d.count f n i j).pmn = d.pmn := rfl
@[simp] theorem Datapath.count_lines (d : Datapath) (f : RegField) (n i j : Nat) : (d.count f n i j).lines = d.lines := rfl
@[simp] theorem Datapath.count_meters (d : Datapath) (f : RegField) (n i j : Nat) : (d.count f n i j).meters = d.meters := rfl
@[simp] theorem Datapath.count_meterLast (d : Datapath) (f : RegField) (n i j : Nat) : (d.count f n i j).meterLast = d.meterLast := rfl
@[simp] theorem Datapath.count_flow (d : Datapath) (f : RegField) (n i j : Nat) : (d.count f n i j).flow = d.flow := rfl
@[simp] theorem Datapath.count_cel (d : Datapath) (f : RegField) (n i j : Nat) : (d.count f n i j).cel = d.cel := rfl
@[simp] theorem Datapath.count_copies (d : Datapath) (f : RegField) (n i j : Nat) : (d.count f n i j).copies = d.copies := rfl
@[simp] theorem Datapath.count_nextCopy (d : Datapath) (f : RegField) (n i j : Nat) : (d.count f n i j).nextCopy = d.nextCopy := rfl
@[simp] theorem Datapath.count_drv (d : Datapath) (f : RegField) (n i j : Nat) : (d.count f n i j).drv = d.drv := rfl
@[simp] theorem Datapath.count_tx (d : Datapath) (f : RegField) (n i j : Nat) : (d.count f n i j).tx = d.tx := rfl
@[simp] theorem Datapath.count_trg (d : Datapath) (f : RegField) (n i j : Nat) : (d.count f n i j).trg = d.trg := rfl
@[simp] theorem Datapath.count_stp (d : Datapath) (f : RegField) (n i j : Nat) : (d.count f n i j).stp = d.stp := rfl
@[simp] theorem Datapath.count_tim (d : Datapath) (f : RegField) (n i j : Nat) : (d.count f n i j).tim = d.tim := rfl
@[simp] theorem Datapath.count_flk (d : Datapath) (f : RegField) (n i j : Nat) : (d.count f n i j).flk = d.flk := rfl
@[simp] theorem Datapath.count_hdm (d : Datapath) (f : RegField) (n i j : Nat) : (d.count f n i j).hdm = d.hdm := rfl
@[simp] theorem Datapath.count_cvu (d : Datapath) (f : RegField) (n i j : Nat) : (d.count f n i j).cvu = d.cvu := rfl
@[simp] theorem Datapath.count_wakeReq (d : Datapath) (f : RegField) (n i j : Nat) : (d.count f n i j).wakeReq = d.wakeReq := rfl
@[simp] theorem Datapath.count_together (d : Datapath) (f : RegField) (n i j : Nat) : (d.count f n i j).together = d.together := rfl

@[simp] theorem Datapath.setFrame_regs (d : Datapath) (f : Nat) (x : Frame) : (d.setFrame f x).regs = d.regs := rfl
@[simp] theorem Datapath.setFrame_stage (d : Datapath) (f : Nat) (x : Frame) : (d.setFrame f x).stage = d.stage := rfl
@[simp] theorem Datapath.setFrame_carve (d : Datapath) (f : Nat) (x : Frame) : (d.setFrame f x).carve = d.carve := rfl
@[simp] theorem Datapath.setFrame_portMode (d : Datapath) (f : Nat) (x : Frame) : (d.setFrame f x).portMode = d.portMode := rfl
@[simp] theorem Datapath.setFrame_sortTab (d : Datapath) (f : Nat) (x : Frame) : (d.setFrame f x).sortTab = d.sortTab := rfl
@[simp] theorem Datapath.setFrame_profile (d : Datapath) (f : Nat) (x : Frame) : (d.setFrame f x).profile = d.profile := rfl
@[simp] theorem Datapath.setFrame_pattern (d : Datapath) (f : Nat) (x : Frame) : (d.setFrame f x).pattern = d.pattern := rfl
@[simp] theorem Datapath.setFrame_bufferPlan (d : Datapath) (f : Nat) (x : Frame) : (d.setFrame f x).bufferPlan = d.bufferPlan := rfl
@[simp] theorem Datapath.setFrame_larderGeom (d : Datapath) (f : Nat) (x : Frame) : (d.setFrame f x).larderGeom = d.larderGeom := rfl
@[simp] theorem Datapath.setFrame_queueMap (d : Datapath) (f : Nat) (x : Frame) : (d.setFrame f x).queueMap = d.queueMap := rfl
@[simp] theorem Datapath.setFrame_timePlan (d : Datapath) (f : Nat) (x : Frame) : (d.setFrame f x).timePlan = d.timePlan := rfl
@[simp] theorem Datapath.setFrame_flockRole (d : Datapath) (f : Nat) (x : Frame) : (d.setFrame f x).flockRole = d.flockRole := rfl
@[simp] theorem Datapath.setFrame_tally (d : Datapath) (f : Nat) (x : Frame) : (d.setFrame f x).tally = d.tally := rfl
@[simp] theorem Datapath.setFrame_tallyWrap (d : Datapath) (f : Nat) (x : Frame) : (d.setFrame f x).tallyWrap = d.tallyWrap := rfl
@[simp] theorem Datapath.setFrame_snap (d : Datapath) (f : Nat) (x : Frame) : (d.setFrame f x).snap = d.snap := rfl
@[simp] theorem Datapath.setFrame_tallyShadow (d : Datapath) (f : Nat) (x : Frame) : (d.setFrame f x).tallyShadow = d.tallyShadow := rfl
@[simp] theorem Datapath.setFrame_sigDet (d : Datapath) (f : Nat) (x : Frame) : (d.setFrame f x).sigDet = d.sigDet := rfl
@[simp] theorem Datapath.setFrame_txQuiet (d : Datapath) (f : Nat) (x : Frame) : (d.setFrame f x).txQuiet = d.txQuiet := rfl
@[simp] theorem Datapath.setFrame_rxQuiet (d : Datapath) (f : Nat) (x : Frame) : (d.setFrame f x).rxQuiet = d.rxQuiet := rfl
@[simp] theorem Datapath.setFrame_waking (d : Datapath) (f : Nat) (x : Frame) : (d.setFrame f x).waking = d.waking := rfl
@[simp] theorem Datapath.setFrame_linkHeld (d : Datapath) (f : Nat) (x : Frame) : (d.setFrame f x).linkHeld = d.linkHeld := rfl
@[simp] theorem Datapath.setFrame_gated (d : Datapath) (f : Nat) (x : Frame) : (d.setFrame f x).gated = d.gated := rfl
@[simp] theorem Datapath.setFrame_rx (d : Datapath) (f : Nat) (x : Frame) : (d.setFrame f x).rx = d.rx := rfl
@[simp] theorem Datapath.setFrame_nextFrame (d : Datapath) (f : Nat) (x : Frame) : (d.setFrame f x).nextFrame = d.nextFrame := rfl
@[simp] theorem Datapath.setFrame_ready (d : Datapath) (f : Nat) (x : Frame) : (d.setFrame f x).ready = d.ready := rfl
@[simp] theorem Datapath.setFrame_passes (d : Datapath) (f : Nat) (x : Frame) : (d.setFrame f x).passes = d.passes := rfl
@[simp] theorem Datapath.setFrame_lar (d : Datapath) (f : Nat) (x : Frame) : (d.setFrame f x).lar = d.lar := rfl
@[simp] theorem Datapath.setFrame_pmn (d : Datapath) (f : Nat) (x : Frame) : (d.setFrame f x).pmn = d.pmn := rfl
@[simp] theorem Datapath.setFrame_lines (d : Datapath) (f : Nat) (x : Frame) : (d.setFrame f x).lines = d.lines := rfl
@[simp] theorem Datapath.setFrame_meters (d : Datapath) (f : Nat) (x : Frame) : (d.setFrame f x).meters = d.meters := rfl
@[simp] theorem Datapath.setFrame_meterLast (d : Datapath) (f : Nat) (x : Frame) : (d.setFrame f x).meterLast = d.meterLast := rfl
@[simp] theorem Datapath.setFrame_flow (d : Datapath) (f : Nat) (x : Frame) : (d.setFrame f x).flow = d.flow := rfl
@[simp] theorem Datapath.setFrame_cel (d : Datapath) (f : Nat) (x : Frame) : (d.setFrame f x).cel = d.cel := rfl
@[simp] theorem Datapath.setFrame_copies (d : Datapath) (f : Nat) (x : Frame) : (d.setFrame f x).copies = d.copies := rfl
@[simp] theorem Datapath.setFrame_nextCopy (d : Datapath) (f : Nat) (x : Frame) : (d.setFrame f x).nextCopy = d.nextCopy := rfl
@[simp] theorem Datapath.setFrame_drv (d : Datapath) (f : Nat) (x : Frame) : (d.setFrame f x).drv = d.drv := rfl
@[simp] theorem Datapath.setFrame_tx (d : Datapath) (f : Nat) (x : Frame) : (d.setFrame f x).tx = d.tx := rfl
@[simp] theorem Datapath.setFrame_trg (d : Datapath) (f : Nat) (x : Frame) : (d.setFrame f x).trg = d.trg := rfl
@[simp] theorem Datapath.setFrame_stp (d : Datapath) (f : Nat) (x : Frame) : (d.setFrame f x).stp = d.stp := rfl
@[simp] theorem Datapath.setFrame_tim (d : Datapath) (f : Nat) (x : Frame) : (d.setFrame f x).tim = d.tim := rfl
@[simp] theorem Datapath.setFrame_flk (d : Datapath) (f : Nat) (x : Frame) : (d.setFrame f x).flk = d.flk := rfl
@[simp] theorem Datapath.setFrame_hdm (d : Datapath) (f : Nat) (x : Frame) : (d.setFrame f x).hdm = d.hdm := rfl
@[simp] theorem Datapath.setFrame_cvu (d : Datapath) (f : Nat) (x : Frame) : (d.setFrame f x).cvu = d.cvu := rfl
@[simp] theorem Datapath.setFrame_wakeReq (d : Datapath) (f : Nat) (x : Frame) : (d.setFrame f x).wakeReq = d.wakeReq := rfl
@[simp] theorem Datapath.setFrame_together (d : Datapath) (f : Nat) (x : Frame) : (d.setFrame f x).together = d.together := rfl

@[simp] theorem Datapath.frame_setFrame (d : Datapath) (f : Nat) (x : Frame) : (d.setFrame f x).frame f = some x := Tab.find_set_same _ _ _
@[simp] theorem Datapath.setCopy_regs (d : Datapath) (c : Nat) (x : Copy) : (d.setCopy c x).regs = d.regs := rfl
@[simp] theorem Datapath.setCopy_stage (d : Datapath) (c : Nat) (x : Copy) : (d.setCopy c x).stage = d.stage := rfl
@[simp] theorem Datapath.setCopy_carve (d : Datapath) (c : Nat) (x : Copy) : (d.setCopy c x).carve = d.carve := rfl
@[simp] theorem Datapath.setCopy_portMode (d : Datapath) (c : Nat) (x : Copy) : (d.setCopy c x).portMode = d.portMode := rfl
@[simp] theorem Datapath.setCopy_sortTab (d : Datapath) (c : Nat) (x : Copy) : (d.setCopy c x).sortTab = d.sortTab := rfl
@[simp] theorem Datapath.setCopy_profile (d : Datapath) (c : Nat) (x : Copy) : (d.setCopy c x).profile = d.profile := rfl
@[simp] theorem Datapath.setCopy_pattern (d : Datapath) (c : Nat) (x : Copy) : (d.setCopy c x).pattern = d.pattern := rfl
@[simp] theorem Datapath.setCopy_bufferPlan (d : Datapath) (c : Nat) (x : Copy) : (d.setCopy c x).bufferPlan = d.bufferPlan := rfl
@[simp] theorem Datapath.setCopy_larderGeom (d : Datapath) (c : Nat) (x : Copy) : (d.setCopy c x).larderGeom = d.larderGeom := rfl
@[simp] theorem Datapath.setCopy_queueMap (d : Datapath) (c : Nat) (x : Copy) : (d.setCopy c x).queueMap = d.queueMap := rfl
@[simp] theorem Datapath.setCopy_timePlan (d : Datapath) (c : Nat) (x : Copy) : (d.setCopy c x).timePlan = d.timePlan := rfl
@[simp] theorem Datapath.setCopy_flockRole (d : Datapath) (c : Nat) (x : Copy) : (d.setCopy c x).flockRole = d.flockRole := rfl
@[simp] theorem Datapath.setCopy_tally (d : Datapath) (c : Nat) (x : Copy) : (d.setCopy c x).tally = d.tally := rfl
@[simp] theorem Datapath.setCopy_tallyWrap (d : Datapath) (c : Nat) (x : Copy) : (d.setCopy c x).tallyWrap = d.tallyWrap := rfl
@[simp] theorem Datapath.setCopy_snap (d : Datapath) (c : Nat) (x : Copy) : (d.setCopy c x).snap = d.snap := rfl
@[simp] theorem Datapath.setCopy_tallyShadow (d : Datapath) (c : Nat) (x : Copy) : (d.setCopy c x).tallyShadow = d.tallyShadow := rfl
@[simp] theorem Datapath.setCopy_sigDet (d : Datapath) (c : Nat) (x : Copy) : (d.setCopy c x).sigDet = d.sigDet := rfl
@[simp] theorem Datapath.setCopy_txQuiet (d : Datapath) (c : Nat) (x : Copy) : (d.setCopy c x).txQuiet = d.txQuiet := rfl
@[simp] theorem Datapath.setCopy_rxQuiet (d : Datapath) (c : Nat) (x : Copy) : (d.setCopy c x).rxQuiet = d.rxQuiet := rfl
@[simp] theorem Datapath.setCopy_waking (d : Datapath) (c : Nat) (x : Copy) : (d.setCopy c x).waking = d.waking := rfl
@[simp] theorem Datapath.setCopy_linkHeld (d : Datapath) (c : Nat) (x : Copy) : (d.setCopy c x).linkHeld = d.linkHeld := rfl
@[simp] theorem Datapath.setCopy_gated (d : Datapath) (c : Nat) (x : Copy) : (d.setCopy c x).gated = d.gated := rfl
@[simp] theorem Datapath.setCopy_rx (d : Datapath) (c : Nat) (x : Copy) : (d.setCopy c x).rx = d.rx := rfl
@[simp] theorem Datapath.setCopy_frames (d : Datapath) (c : Nat) (x : Copy) : (d.setCopy c x).frames = d.frames := rfl
@[simp] theorem Datapath.setCopy_nextFrame (d : Datapath) (c : Nat) (x : Copy) : (d.setCopy c x).nextFrame = d.nextFrame := rfl
@[simp] theorem Datapath.setCopy_ready (d : Datapath) (c : Nat) (x : Copy) : (d.setCopy c x).ready = d.ready := rfl
@[simp] theorem Datapath.setCopy_passes (d : Datapath) (c : Nat) (x : Copy) : (d.setCopy c x).passes = d.passes := rfl
@[simp] theorem Datapath.setCopy_lar (d : Datapath) (c : Nat) (x : Copy) : (d.setCopy c x).lar = d.lar := rfl
@[simp] theorem Datapath.setCopy_pmn (d : Datapath) (c : Nat) (x : Copy) : (d.setCopy c x).pmn = d.pmn := rfl
@[simp] theorem Datapath.setCopy_lines (d : Datapath) (c : Nat) (x : Copy) : (d.setCopy c x).lines = d.lines := rfl
@[simp] theorem Datapath.setCopy_meters (d : Datapath) (c : Nat) (x : Copy) : (d.setCopy c x).meters = d.meters := rfl
@[simp] theorem Datapath.setCopy_meterLast (d : Datapath) (c : Nat) (x : Copy) : (d.setCopy c x).meterLast = d.meterLast := rfl
@[simp] theorem Datapath.setCopy_flow (d : Datapath) (c : Nat) (x : Copy) : (d.setCopy c x).flow = d.flow := rfl
@[simp] theorem Datapath.setCopy_cel (d : Datapath) (c : Nat) (x : Copy) : (d.setCopy c x).cel = d.cel := rfl
@[simp] theorem Datapath.setCopy_nextCopy (d : Datapath) (c : Nat) (x : Copy) : (d.setCopy c x).nextCopy = d.nextCopy := rfl
@[simp] theorem Datapath.setCopy_drv (d : Datapath) (c : Nat) (x : Copy) : (d.setCopy c x).drv = d.drv := rfl
@[simp] theorem Datapath.setCopy_tx (d : Datapath) (c : Nat) (x : Copy) : (d.setCopy c x).tx = d.tx := rfl
@[simp] theorem Datapath.setCopy_trg (d : Datapath) (c : Nat) (x : Copy) : (d.setCopy c x).trg = d.trg := rfl
@[simp] theorem Datapath.setCopy_stp (d : Datapath) (c : Nat) (x : Copy) : (d.setCopy c x).stp = d.stp := rfl
@[simp] theorem Datapath.setCopy_tim (d : Datapath) (c : Nat) (x : Copy) : (d.setCopy c x).tim = d.tim := rfl
@[simp] theorem Datapath.setCopy_flk (d : Datapath) (c : Nat) (x : Copy) : (d.setCopy c x).flk = d.flk := rfl
@[simp] theorem Datapath.setCopy_hdm (d : Datapath) (c : Nat) (x : Copy) : (d.setCopy c x).hdm = d.hdm := rfl
@[simp] theorem Datapath.setCopy_cvu (d : Datapath) (c : Nat) (x : Copy) : (d.setCopy c x).cvu = d.cvu := rfl
@[simp] theorem Datapath.setCopy_wakeReq (d : Datapath) (c : Nat) (x : Copy) : (d.setCopy c x).wakeReq = d.wakeReq := rfl
@[simp] theorem Datapath.setCopy_together (d : Datapath) (c : Nat) (x : Copy) : (d.setCopy c x).together = d.together := rfl

@[simp] theorem Datapath.copy_setCopy (d : Datapath) (c : Nat) (x : Copy) : (d.setCopy c x).copy c = some x := Tab.find_set_same _ _ _
@[simp] theorem Datapath.setPasses_regs (d : Datapath) (pen : Nat) (ps : List Pass) : (d.setPasses pen ps).regs = d.regs := rfl
@[simp] theorem Datapath.setPasses_stage (d : Datapath) (pen : Nat) (ps : List Pass) : (d.setPasses pen ps).stage = d.stage := rfl
@[simp] theorem Datapath.setPasses_carve (d : Datapath) (pen : Nat) (ps : List Pass) : (d.setPasses pen ps).carve = d.carve := rfl
@[simp] theorem Datapath.setPasses_portMode (d : Datapath) (pen : Nat) (ps : List Pass) : (d.setPasses pen ps).portMode = d.portMode := rfl
@[simp] theorem Datapath.setPasses_sortTab (d : Datapath) (pen : Nat) (ps : List Pass) : (d.setPasses pen ps).sortTab = d.sortTab := rfl
@[simp] theorem Datapath.setPasses_profile (d : Datapath) (pen : Nat) (ps : List Pass) : (d.setPasses pen ps).profile = d.profile := rfl
@[simp] theorem Datapath.setPasses_pattern (d : Datapath) (pen : Nat) (ps : List Pass) : (d.setPasses pen ps).pattern = d.pattern := rfl
@[simp] theorem Datapath.setPasses_bufferPlan (d : Datapath) (pen : Nat) (ps : List Pass) : (d.setPasses pen ps).bufferPlan = d.bufferPlan := rfl
@[simp] theorem Datapath.setPasses_larderGeom (d : Datapath) (pen : Nat) (ps : List Pass) : (d.setPasses pen ps).larderGeom = d.larderGeom := rfl
@[simp] theorem Datapath.setPasses_queueMap (d : Datapath) (pen : Nat) (ps : List Pass) : (d.setPasses pen ps).queueMap = d.queueMap := rfl
@[simp] theorem Datapath.setPasses_timePlan (d : Datapath) (pen : Nat) (ps : List Pass) : (d.setPasses pen ps).timePlan = d.timePlan := rfl
@[simp] theorem Datapath.setPasses_flockRole (d : Datapath) (pen : Nat) (ps : List Pass) : (d.setPasses pen ps).flockRole = d.flockRole := rfl
@[simp] theorem Datapath.setPasses_tally (d : Datapath) (pen : Nat) (ps : List Pass) : (d.setPasses pen ps).tally = d.tally := rfl
@[simp] theorem Datapath.setPasses_tallyWrap (d : Datapath) (pen : Nat) (ps : List Pass) : (d.setPasses pen ps).tallyWrap = d.tallyWrap := rfl
@[simp] theorem Datapath.setPasses_snap (d : Datapath) (pen : Nat) (ps : List Pass) : (d.setPasses pen ps).snap = d.snap := rfl
@[simp] theorem Datapath.setPasses_tallyShadow (d : Datapath) (pen : Nat) (ps : List Pass) : (d.setPasses pen ps).tallyShadow = d.tallyShadow := rfl
@[simp] theorem Datapath.setPasses_sigDet (d : Datapath) (pen : Nat) (ps : List Pass) : (d.setPasses pen ps).sigDet = d.sigDet := rfl
@[simp] theorem Datapath.setPasses_txQuiet (d : Datapath) (pen : Nat) (ps : List Pass) : (d.setPasses pen ps).txQuiet = d.txQuiet := rfl
@[simp] theorem Datapath.setPasses_rxQuiet (d : Datapath) (pen : Nat) (ps : List Pass) : (d.setPasses pen ps).rxQuiet = d.rxQuiet := rfl
@[simp] theorem Datapath.setPasses_waking (d : Datapath) (pen : Nat) (ps : List Pass) : (d.setPasses pen ps).waking = d.waking := rfl
@[simp] theorem Datapath.setPasses_linkHeld (d : Datapath) (pen : Nat) (ps : List Pass) : (d.setPasses pen ps).linkHeld = d.linkHeld := rfl
@[simp] theorem Datapath.setPasses_gated (d : Datapath) (pen : Nat) (ps : List Pass) : (d.setPasses pen ps).gated = d.gated := rfl
@[simp] theorem Datapath.setPasses_rx (d : Datapath) (pen : Nat) (ps : List Pass) : (d.setPasses pen ps).rx = d.rx := rfl
@[simp] theorem Datapath.setPasses_frames (d : Datapath) (pen : Nat) (ps : List Pass) : (d.setPasses pen ps).frames = d.frames := rfl
@[simp] theorem Datapath.setPasses_nextFrame (d : Datapath) (pen : Nat) (ps : List Pass) : (d.setPasses pen ps).nextFrame = d.nextFrame := rfl
@[simp] theorem Datapath.setPasses_ready (d : Datapath) (pen : Nat) (ps : List Pass) : (d.setPasses pen ps).ready = d.ready := rfl
@[simp] theorem Datapath.setPasses_lar (d : Datapath) (pen : Nat) (ps : List Pass) : (d.setPasses pen ps).lar = d.lar := rfl
@[simp] theorem Datapath.setPasses_pmn (d : Datapath) (pen : Nat) (ps : List Pass) : (d.setPasses pen ps).pmn = d.pmn := rfl
@[simp] theorem Datapath.setPasses_lines (d : Datapath) (pen : Nat) (ps : List Pass) : (d.setPasses pen ps).lines = d.lines := rfl
@[simp] theorem Datapath.setPasses_meters (d : Datapath) (pen : Nat) (ps : List Pass) : (d.setPasses pen ps).meters = d.meters := rfl
@[simp] theorem Datapath.setPasses_meterLast (d : Datapath) (pen : Nat) (ps : List Pass) : (d.setPasses pen ps).meterLast = d.meterLast := rfl
@[simp] theorem Datapath.setPasses_flow (d : Datapath) (pen : Nat) (ps : List Pass) : (d.setPasses pen ps).flow = d.flow := rfl
@[simp] theorem Datapath.setPasses_cel (d : Datapath) (pen : Nat) (ps : List Pass) : (d.setPasses pen ps).cel = d.cel := rfl
@[simp] theorem Datapath.setPasses_copies (d : Datapath) (pen : Nat) (ps : List Pass) : (d.setPasses pen ps).copies = d.copies := rfl
@[simp] theorem Datapath.setPasses_nextCopy (d : Datapath) (pen : Nat) (ps : List Pass) : (d.setPasses pen ps).nextCopy = d.nextCopy := rfl
@[simp] theorem Datapath.setPasses_drv (d : Datapath) (pen : Nat) (ps : List Pass) : (d.setPasses pen ps).drv = d.drv := rfl
@[simp] theorem Datapath.setPasses_tx (d : Datapath) (pen : Nat) (ps : List Pass) : (d.setPasses pen ps).tx = d.tx := rfl
@[simp] theorem Datapath.setPasses_trg (d : Datapath) (pen : Nat) (ps : List Pass) : (d.setPasses pen ps).trg = d.trg := rfl
@[simp] theorem Datapath.setPasses_stp (d : Datapath) (pen : Nat) (ps : List Pass) : (d.setPasses pen ps).stp = d.stp := rfl
@[simp] theorem Datapath.setPasses_tim (d : Datapath) (pen : Nat) (ps : List Pass) : (d.setPasses pen ps).tim = d.tim := rfl
@[simp] theorem Datapath.setPasses_flk (d : Datapath) (pen : Nat) (ps : List Pass) : (d.setPasses pen ps).flk = d.flk := rfl
@[simp] theorem Datapath.setPasses_hdm (d : Datapath) (pen : Nat) (ps : List Pass) : (d.setPasses pen ps).hdm = d.hdm := rfl
@[simp] theorem Datapath.setPasses_cvu (d : Datapath) (pen : Nat) (ps : List Pass) : (d.setPasses pen ps).cvu = d.cvu := rfl
@[simp] theorem Datapath.setPasses_wakeReq (d : Datapath) (pen : Nat) (ps : List Pass) : (d.setPasses pen ps).wakeReq = d.wakeReq := rfl
@[simp] theorem Datapath.setPasses_together (d : Datapath) (pen : Nat) (ps : List Pass) : (d.setPasses pen ps).together = d.together := rfl

@[simp] theorem Datapath.passesOf_setPasses (d : Datapath) (pen : Nat) (ps : List Pass) : (d.setPasses pen ps).passesOf pen = ps := Tab.get_put_same _ _ _ _
@[simp] theorem Datapath.setReady_regs (d : Datapath) (pen : Nat) (l : List Nat) : (d.setReady pen l).regs = d.regs := rfl
@[simp] theorem Datapath.setReady_stage (d : Datapath) (pen : Nat) (l : List Nat) : (d.setReady pen l).stage = d.stage := rfl
@[simp] theorem Datapath.setReady_carve (d : Datapath) (pen : Nat) (l : List Nat) : (d.setReady pen l).carve = d.carve := rfl
@[simp] theorem Datapath.setReady_portMode (d : Datapath) (pen : Nat) (l : List Nat) : (d.setReady pen l).portMode = d.portMode := rfl
@[simp] theorem Datapath.setReady_sortTab (d : Datapath) (pen : Nat) (l : List Nat) : (d.setReady pen l).sortTab = d.sortTab := rfl
@[simp] theorem Datapath.setReady_profile (d : Datapath) (pen : Nat) (l : List Nat) : (d.setReady pen l).profile = d.profile := rfl
@[simp] theorem Datapath.setReady_pattern (d : Datapath) (pen : Nat) (l : List Nat) : (d.setReady pen l).pattern = d.pattern := rfl
@[simp] theorem Datapath.setReady_bufferPlan (d : Datapath) (pen : Nat) (l : List Nat) : (d.setReady pen l).bufferPlan = d.bufferPlan := rfl
@[simp] theorem Datapath.setReady_larderGeom (d : Datapath) (pen : Nat) (l : List Nat) : (d.setReady pen l).larderGeom = d.larderGeom := rfl
@[simp] theorem Datapath.setReady_queueMap (d : Datapath) (pen : Nat) (l : List Nat) : (d.setReady pen l).queueMap = d.queueMap := rfl
@[simp] theorem Datapath.setReady_timePlan (d : Datapath) (pen : Nat) (l : List Nat) : (d.setReady pen l).timePlan = d.timePlan := rfl
@[simp] theorem Datapath.setReady_flockRole (d : Datapath) (pen : Nat) (l : List Nat) : (d.setReady pen l).flockRole = d.flockRole := rfl
@[simp] theorem Datapath.setReady_tally (d : Datapath) (pen : Nat) (l : List Nat) : (d.setReady pen l).tally = d.tally := rfl
@[simp] theorem Datapath.setReady_tallyWrap (d : Datapath) (pen : Nat) (l : List Nat) : (d.setReady pen l).tallyWrap = d.tallyWrap := rfl
@[simp] theorem Datapath.setReady_snap (d : Datapath) (pen : Nat) (l : List Nat) : (d.setReady pen l).snap = d.snap := rfl
@[simp] theorem Datapath.setReady_tallyShadow (d : Datapath) (pen : Nat) (l : List Nat) : (d.setReady pen l).tallyShadow = d.tallyShadow := rfl
@[simp] theorem Datapath.setReady_sigDet (d : Datapath) (pen : Nat) (l : List Nat) : (d.setReady pen l).sigDet = d.sigDet := rfl
@[simp] theorem Datapath.setReady_txQuiet (d : Datapath) (pen : Nat) (l : List Nat) : (d.setReady pen l).txQuiet = d.txQuiet := rfl
@[simp] theorem Datapath.setReady_rxQuiet (d : Datapath) (pen : Nat) (l : List Nat) : (d.setReady pen l).rxQuiet = d.rxQuiet := rfl
@[simp] theorem Datapath.setReady_waking (d : Datapath) (pen : Nat) (l : List Nat) : (d.setReady pen l).waking = d.waking := rfl
@[simp] theorem Datapath.setReady_linkHeld (d : Datapath) (pen : Nat) (l : List Nat) : (d.setReady pen l).linkHeld = d.linkHeld := rfl
@[simp] theorem Datapath.setReady_gated (d : Datapath) (pen : Nat) (l : List Nat) : (d.setReady pen l).gated = d.gated := rfl
@[simp] theorem Datapath.setReady_rx (d : Datapath) (pen : Nat) (l : List Nat) : (d.setReady pen l).rx = d.rx := rfl
@[simp] theorem Datapath.setReady_frames (d : Datapath) (pen : Nat) (l : List Nat) : (d.setReady pen l).frames = d.frames := rfl
@[simp] theorem Datapath.setReady_nextFrame (d : Datapath) (pen : Nat) (l : List Nat) : (d.setReady pen l).nextFrame = d.nextFrame := rfl
@[simp] theorem Datapath.setReady_passes (d : Datapath) (pen : Nat) (l : List Nat) : (d.setReady pen l).passes = d.passes := rfl
@[simp] theorem Datapath.setReady_lar (d : Datapath) (pen : Nat) (l : List Nat) : (d.setReady pen l).lar = d.lar := rfl
@[simp] theorem Datapath.setReady_pmn (d : Datapath) (pen : Nat) (l : List Nat) : (d.setReady pen l).pmn = d.pmn := rfl
@[simp] theorem Datapath.setReady_lines (d : Datapath) (pen : Nat) (l : List Nat) : (d.setReady pen l).lines = d.lines := rfl
@[simp] theorem Datapath.setReady_meters (d : Datapath) (pen : Nat) (l : List Nat) : (d.setReady pen l).meters = d.meters := rfl
@[simp] theorem Datapath.setReady_meterLast (d : Datapath) (pen : Nat) (l : List Nat) : (d.setReady pen l).meterLast = d.meterLast := rfl
@[simp] theorem Datapath.setReady_flow (d : Datapath) (pen : Nat) (l : List Nat) : (d.setReady pen l).flow = d.flow := rfl
@[simp] theorem Datapath.setReady_cel (d : Datapath) (pen : Nat) (l : List Nat) : (d.setReady pen l).cel = d.cel := rfl
@[simp] theorem Datapath.setReady_copies (d : Datapath) (pen : Nat) (l : List Nat) : (d.setReady pen l).copies = d.copies := rfl
@[simp] theorem Datapath.setReady_nextCopy (d : Datapath) (pen : Nat) (l : List Nat) : (d.setReady pen l).nextCopy = d.nextCopy := rfl
@[simp] theorem Datapath.setReady_drv (d : Datapath) (pen : Nat) (l : List Nat) : (d.setReady pen l).drv = d.drv := rfl
@[simp] theorem Datapath.setReady_tx (d : Datapath) (pen : Nat) (l : List Nat) : (d.setReady pen l).tx = d.tx := rfl
@[simp] theorem Datapath.setReady_trg (d : Datapath) (pen : Nat) (l : List Nat) : (d.setReady pen l).trg = d.trg := rfl
@[simp] theorem Datapath.setReady_stp (d : Datapath) (pen : Nat) (l : List Nat) : (d.setReady pen l).stp = d.stp := rfl
@[simp] theorem Datapath.setReady_tim (d : Datapath) (pen : Nat) (l : List Nat) : (d.setReady pen l).tim = d.tim := rfl
@[simp] theorem Datapath.setReady_flk (d : Datapath) (pen : Nat) (l : List Nat) : (d.setReady pen l).flk = d.flk := rfl
@[simp] theorem Datapath.setReady_hdm (d : Datapath) (pen : Nat) (l : List Nat) : (d.setReady pen l).hdm = d.hdm := rfl
@[simp] theorem Datapath.setReady_cvu (d : Datapath) (pen : Nat) (l : List Nat) : (d.setReady pen l).cvu = d.cvu := rfl
@[simp] theorem Datapath.setReady_wakeReq (d : Datapath) (pen : Nat) (l : List Nat) : (d.setReady pen l).wakeReq = d.wakeReq := rfl
@[simp] theorem Datapath.setReady_together (d : Datapath) (pen : Nat) (l : List Nat) : (d.setReady pen l).together = d.together := rfl

@[simp] theorem Datapath.readyOf_setReady (d : Datapath) (pen : Nat) (l : List Nat) : (d.setReady pen l).readyOf pen = l := Tab.get_put_same _ _ _ _
/-- An event of a tally changes its register and what is noted of the clock alone. -/
theorem Datapath.tallyEvt_eq (d : Datapath) (m kind : Nat) : d.tallyEvt m kind =
    { d with regs := (d.tallyEvt m kind).regs, together := (d.tallyEvt m kind).together } := by
  unfold Datapath.tallyEvt
  dsimp only
  split <;> rfl

/-- The registers, and what is noted of the clock, after an event of a tally. -/
def Datapath.evtRegs (d : Datapath) (m kind : Nat) : RegFile := (d.tallyEvt m kind).regs
def Datapath.evtNotes (d : Datapath) (m kind : Nat) : List (Meeting × Nat) := (d.tallyEvt m kind).together

theorem Datapath.tallyEvt_parts (d : Datapath) (m kind : Nat) : d.tallyEvt m kind =
    { d with regs := d.evtRegs m kind, together := d.evtNotes m kind } := d.tallyEvt_eq m kind

@[simp] theorem Datapath.tallyEvt_tally (d : Datapath) (m kind : Nat) : (d.tallyEvt m kind).tally = d.tally := by
  rw [Datapath.tallyEvt_eq]
@[simp] theorem Datapath.tallyEvt_tallyWrap (d : Datapath) (m kind : Nat) : (d.tallyEvt m kind).tallyWrap = d.tallyWrap := by
  rw [Datapath.tallyEvt_eq]

/-- A tally's step changes the tallies, their wraps, the registers and what is noted of the clock alone. -/
theorem Datapath.tallyAdd_eq (d : Datapath) (p k n : Nat) : d.tallyAdd p k n =
    { d with tally := (d.tallyAdd p k n).tally, tallyWrap := (d.tallyAdd p k n).tallyWrap, regs := (d.tallyAdd p k n).regs,
             together := (d.tallyAdd p k n).together } := by
  unfold Datapath.tallyAdd
  dsimp only
  split <;> split <;> simp only [Datapath.tallyEvt_parts]

@[simp] theorem Datapath.tallyAdd_stage (d : Datapath) (p k n : Nat) : (d.tallyAdd p k n).stage = d.stage := by
  rw [Datapath.tallyAdd_eq]
@[simp] theorem Datapath.tallyAdd_carve (d : Datapath) (p k n : Nat) : (d.tallyAdd p k n).carve = d.carve := by
  rw [Datapath.tallyAdd_eq]
@[simp] theorem Datapath.tallyAdd_portMode (d : Datapath) (p k n : Nat) : (d.tallyAdd p k n).portMode = d.portMode := by
  rw [Datapath.tallyAdd_eq]
@[simp] theorem Datapath.tallyAdd_sortTab (d : Datapath) (p k n : Nat) : (d.tallyAdd p k n).sortTab = d.sortTab := by
  rw [Datapath.tallyAdd_eq]
@[simp] theorem Datapath.tallyAdd_profile (d : Datapath) (p k n : Nat) : (d.tallyAdd p k n).profile = d.profile := by
  rw [Datapath.tallyAdd_eq]
@[simp] theorem Datapath.tallyAdd_pattern (d : Datapath) (p k n : Nat) : (d.tallyAdd p k n).pattern = d.pattern := by
  rw [Datapath.tallyAdd_eq]
@[simp] theorem Datapath.tallyAdd_bufferPlan (d : Datapath) (p k n : Nat) : (d.tallyAdd p k n).bufferPlan = d.bufferPlan := by
  rw [Datapath.tallyAdd_eq]
@[simp] theorem Datapath.tallyAdd_larderGeom (d : Datapath) (p k n : Nat) : (d.tallyAdd p k n).larderGeom = d.larderGeom := by
  rw [Datapath.tallyAdd_eq]
@[simp] theorem Datapath.tallyAdd_queueMap (d : Datapath) (p k n : Nat) : (d.tallyAdd p k n).queueMap = d.queueMap := by
  rw [Datapath.tallyAdd_eq]
@[simp] theorem Datapath.tallyAdd_timePlan (d : Datapath) (p k n : Nat) : (d.tallyAdd p k n).timePlan = d.timePlan := by
  rw [Datapath.tallyAdd_eq]
@[simp] theorem Datapath.tallyAdd_flockRole (d : Datapath) (p k n : Nat) : (d.tallyAdd p k n).flockRole = d.flockRole := by
  rw [Datapath.tallyAdd_eq]
@[simp] theorem Datapath.tallyAdd_snap (d : Datapath) (p k n : Nat) : (d.tallyAdd p k n).snap = d.snap := by
  rw [Datapath.tallyAdd_eq]
@[simp] theorem Datapath.tallyAdd_tallyShadow (d : Datapath) (p k n : Nat) : (d.tallyAdd p k n).tallyShadow = d.tallyShadow := by
  rw [Datapath.tallyAdd_eq]
@[simp] theorem Datapath.tallyAdd_sigDet (d : Datapath) (p k n : Nat) : (d.tallyAdd p k n).sigDet = d.sigDet := by
  rw [Datapath.tallyAdd_eq]
@[simp] theorem Datapath.tallyAdd_txQuiet (d : Datapath) (p k n : Nat) : (d.tallyAdd p k n).txQuiet = d.txQuiet := by
  rw [Datapath.tallyAdd_eq]
@[simp] theorem Datapath.tallyAdd_rxQuiet (d : Datapath) (p k n : Nat) : (d.tallyAdd p k n).rxQuiet = d.rxQuiet := by
  rw [Datapath.tallyAdd_eq]
@[simp] theorem Datapath.tallyAdd_waking (d : Datapath) (p k n : Nat) : (d.tallyAdd p k n).waking = d.waking := by
  rw [Datapath.tallyAdd_eq]
@[simp] theorem Datapath.tallyAdd_linkHeld (d : Datapath) (p k n : Nat) : (d.tallyAdd p k n).linkHeld = d.linkHeld := by
  rw [Datapath.tallyAdd_eq]
@[simp] theorem Datapath.tallyAdd_gated (d : Datapath) (p k n : Nat) : (d.tallyAdd p k n).gated = d.gated := by
  rw [Datapath.tallyAdd_eq]
@[simp] theorem Datapath.tallyAdd_rx (d : Datapath) (p k n : Nat) : (d.tallyAdd p k n).rx = d.rx := by
  rw [Datapath.tallyAdd_eq]
@[simp] theorem Datapath.tallyAdd_frames (d : Datapath) (p k n : Nat) : (d.tallyAdd p k n).frames = d.frames := by
  rw [Datapath.tallyAdd_eq]
@[simp] theorem Datapath.tallyAdd_nextFrame (d : Datapath) (p k n : Nat) : (d.tallyAdd p k n).nextFrame = d.nextFrame := by
  rw [Datapath.tallyAdd_eq]
@[simp] theorem Datapath.tallyAdd_ready (d : Datapath) (p k n : Nat) : (d.tallyAdd p k n).ready = d.ready := by
  rw [Datapath.tallyAdd_eq]
@[simp] theorem Datapath.tallyAdd_passes (d : Datapath) (p k n : Nat) : (d.tallyAdd p k n).passes = d.passes := by
  rw [Datapath.tallyAdd_eq]
@[simp] theorem Datapath.tallyAdd_lar (d : Datapath) (p k n : Nat) : (d.tallyAdd p k n).lar = d.lar := by
  rw [Datapath.tallyAdd_eq]
@[simp] theorem Datapath.tallyAdd_pmn (d : Datapath) (p k n : Nat) : (d.tallyAdd p k n).pmn = d.pmn := by
  rw [Datapath.tallyAdd_eq]
@[simp] theorem Datapath.tallyAdd_lines (d : Datapath) (p k n : Nat) : (d.tallyAdd p k n).lines = d.lines := by
  rw [Datapath.tallyAdd_eq]
@[simp] theorem Datapath.tallyAdd_meters (d : Datapath) (p k n : Nat) : (d.tallyAdd p k n).meters = d.meters := by
  rw [Datapath.tallyAdd_eq]
@[simp] theorem Datapath.tallyAdd_meterLast (d : Datapath) (p k n : Nat) : (d.tallyAdd p k n).meterLast = d.meterLast := by
  rw [Datapath.tallyAdd_eq]
@[simp] theorem Datapath.tallyAdd_flow (d : Datapath) (p k n : Nat) : (d.tallyAdd p k n).flow = d.flow := by
  rw [Datapath.tallyAdd_eq]
@[simp] theorem Datapath.tallyAdd_cel (d : Datapath) (p k n : Nat) : (d.tallyAdd p k n).cel = d.cel := by
  rw [Datapath.tallyAdd_eq]
@[simp] theorem Datapath.tallyAdd_copies (d : Datapath) (p k n : Nat) : (d.tallyAdd p k n).copies = d.copies := by
  rw [Datapath.tallyAdd_eq]
@[simp] theorem Datapath.tallyAdd_nextCopy (d : Datapath) (p k n : Nat) : (d.tallyAdd p k n).nextCopy = d.nextCopy := by
  rw [Datapath.tallyAdd_eq]
@[simp] theorem Datapath.tallyAdd_drv (d : Datapath) (p k n : Nat) : (d.tallyAdd p k n).drv = d.drv := by
  rw [Datapath.tallyAdd_eq]
@[simp] theorem Datapath.tallyAdd_tx (d : Datapath) (p k n : Nat) : (d.tallyAdd p k n).tx = d.tx := by
  rw [Datapath.tallyAdd_eq]
@[simp] theorem Datapath.tallyAdd_trg (d : Datapath) (p k n : Nat) : (d.tallyAdd p k n).trg = d.trg := by
  rw [Datapath.tallyAdd_eq]
@[simp] theorem Datapath.tallyAdd_stp (d : Datapath) (p k n : Nat) : (d.tallyAdd p k n).stp = d.stp := by
  rw [Datapath.tallyAdd_eq]
@[simp] theorem Datapath.tallyAdd_tim (d : Datapath) (p k n : Nat) : (d.tallyAdd p k n).tim = d.tim := by
  rw [Datapath.tallyAdd_eq]
@[simp] theorem Datapath.tallyAdd_flk (d : Datapath) (p k n : Nat) : (d.tallyAdd p k n).flk = d.flk := by
  rw [Datapath.tallyAdd_eq]
@[simp] theorem Datapath.tallyAdd_hdm (d : Datapath) (p k n : Nat) : (d.tallyAdd p k n).hdm = d.hdm := by
  rw [Datapath.tallyAdd_eq]
@[simp] theorem Datapath.tallyAdd_cvu (d : Datapath) (p k n : Nat) : (d.tallyAdd p k n).cvu = d.cvu := by
  rw [Datapath.tallyAdd_eq]
@[simp] theorem Datapath.tallyAdd_wakeReq (d : Datapath) (p k n : Nat) : (d.tallyAdd p k n).wakeReq = d.wakeReq := by
  rw [Datapath.tallyAdd_eq]

/-- A tally counts modulo 2^56. -/
@[simp] theorem Datapath.tallyAdd_tally (d : Datapath) (p k n : Nat) : (d.tallyAdd p k n).tally =
    Tab.put d.tally (128 * p + k) ((Tab.get d.tally (128 * p + k) 0 + n * d.tallyStep p) % 2 ^ 56) 0 := by
  unfold Datapath.tallyAdd
  dsimp only
  split <;> split <;> simp only [Datapath.tallyEvt_tally]

/-! ## The shepherd -/

@[simp] theorem Shepherd.wr_portA (h : Shepherd) (f : RegField) (v i : Nat) : (h.wr f v i).portA = h.portA := rfl
@[simp] theorem Shepherd.wr_portB (h : Shepherd) (f : RegField) (v i : Nat) : (h.wr f v i).portB = h.portB := rfl
@[simp] theorem Shepherd.wr_link (h : Shepherd) (f : RegField) (v i : Nat) : (h.wr f v i).link = h.link := rfl
@[simp] theorem Shepherd.wr_viewA (h : Shepherd) (f : RegField) (v i : Nat) : (h.wr f v i).viewA = h.viewA := rfl
@[simp] theorem Shepherd.wr_viewB (h : Shepherd) (f : RegField) (v i : Nat) : (h.wr f v i).viewB = h.viewB := rfl
@[simp] theorem Shepherd.wr_mboxAB (h : Shepherd) (f : RegField) (v i : Nat) : (h.wr f v i).mboxAB = h.mboxAB := rfl
@[simp] theorem Shepherd.wr_mboxBA (h : Shepherd) (f : RegField) (v i : Nat) : (h.wr f v i).mboxBA = h.mboxBA := rfl
@[simp] theorem Shepherd.wr_sem (h : Shepherd) (f : RegField) (v i : Nat) : (h.wr f v i).sem = h.sem := rfl
@[simp] theorem Shepherd.wr_token (h : Shepherd) (f : RegField) (v i : Nat) : (h.wr f v i).token = h.token := rfl
@[simp] theorem Shepherd.wr_expert (h : Shepherd) (f : RegField) (v i : Nat) : (h.wr f v i).expert = h.expert := rfl
@[simp] theorem Shepherd.wr_cause (h : Shepherd) (f : RegField) (v i : Nat) : (h.wr f v i).cause = h.cause := rfl
@[simp] theorem Shepherd.wr_fld (h : Shepherd) (f : RegField) (v i : Nat) : (h.wr f v i).fld = h.fld := rfl
@[simp] theorem Shepherd.wr_seq (h : Shepherd) (f : RegField) (v i : Nat) : (h.wr f v i).seq = h.seq := rfl
@[simp] theorem Shepherd.wr_doms (h : Shepherd) (f : RegField) (v i : Nat) : (h.wr f v i).doms = h.doms := rfl
@[simp] theorem Shepherd.wr_clks (h : Shepherd) (f : RegField) (v i : Nat) : (h.wr f v i).clks = h.clks := rfl
@[simp] theorem Shepherd.wr_selCore (h : Shepherd) (f : RegField) (v i : Nat) : (h.wr f v i).selCore = h.selCore := rfl
@[simp] theorem Shepherd.wr_dpRstN (h : Shepherd) (f : RegField) (v i : Nat) : (h.wr f v i).dpRstN = h.dpRstN := rfl
@[simp] theorem Shepherd.wr_blkN (h : Shepherd) (f : RegField) (v i : Nat) : (h.wr f v i).blkN = h.blkN := rfl
@[simp] theorem Shepherd.wr_avsRun (h : Shepherd) (f : RegField) (v i : Nat) : (h.wr f v i).avsRun = h.avsRun := rfl
@[simp] theorem Shepherd.wr_avsWait (h : Shepherd) (f : RegField) (v i : Nat) : (h.wr f v i).avsWait = h.avsWait := rfl
@[simp] theorem Shepherd.wr_sleepN (h : Shepherd) (f : RegField) (v i : Nat) : (h.wr f v i).sleepN = h.sleepN := rfl
@[simp] theorem Shepherd.wr_sleepRun (h : Shepherd) (f : RegField) (v i : Nat) : (h.wr f v i).sleepRun = h.sleepRun := rfl
@[simp] theorem Shepherd.wr_saves (h : Shepherd) (f : RegField) (v i : Nat) : (h.wr f v i).saves = h.saves := rfl
@[simp] theorem Shepherd.wr_live (h : Shepherd) (f : RegField) (v i : Nat) : (h.wr f v i).live = h.live := rfl
@[simp] theorem Shepherd.wr_cseed (h : Shepherd) (f : RegField) (v i : Nat) : (h.wr f v i).cseed = h.cseed := rfl
@[simp] theorem Shepherd.wr_aonTol (h : Shepherd) (f : RegField) (v i : Nat) : (h.wr f v i).aonTol = h.aonTol := rfl
@[simp] theorem Shepherd.wr_tick (h : Shepherd) (f : RegField) (v i : Nat) : (h.wr f v i).tick = h.tick := rfl

@[simp] theorem Shepherd.setDom_portA (h : Shepherd) (d : Nat) (p : DomPins) : (h.setDom d p).portA = h.portA := rfl
@[simp] theorem Shepherd.setDom_portB (h : Shepherd) (d : Nat) (p : DomPins) : (h.setDom d p).portB = h.portB := rfl
@[simp] theorem Shepherd.setDom_link (h : Shepherd) (d : Nat) (p : DomPins) : (h.setDom d p).link = h.link := rfl
@[simp] theorem Shepherd.setDom_viewA (h : Shepherd) (d : Nat) (p : DomPins) : (h.setDom d p).viewA = h.viewA := rfl
@[simp] theorem Shepherd.setDom_viewB (h : Shepherd) (d : Nat) (p : DomPins) : (h.setDom d p).viewB = h.viewB := rfl
@[simp] theorem Shepherd.setDom_mboxAB (h : Shepherd) (d : Nat) (p : DomPins) : (h.setDom d p).mboxAB = h.mboxAB := rfl
@[simp] theorem Shepherd.setDom_mboxBA (h : Shepherd) (d : Nat) (p : DomPins) : (h.setDom d p).mboxBA = h.mboxBA := rfl
@[simp] theorem Shepherd.setDom_sem (h : Shepherd) (d : Nat) (p : DomPins) : (h.setDom d p).sem = h.sem := rfl
@[simp] theorem Shepherd.setDom_token (h : Shepherd) (d : Nat) (p : DomPins) : (h.setDom d p).token = h.token := rfl
@[simp] theorem Shepherd.setDom_expert (h : Shepherd) (d : Nat) (p : DomPins) : (h.setDom d p).expert = h.expert := rfl
@[simp] theorem Shepherd.setDom_cause (h : Shepherd) (d : Nat) (p : DomPins) : (h.setDom d p).cause = h.cause := rfl
@[simp] theorem Shepherd.setDom_regs (h : Shepherd) (d : Nat) (p : DomPins) : (h.setDom d p).regs = h.regs := rfl
@[simp] theorem Shepherd.setDom_fld (h : Shepherd) (d : Nat) (p : DomPins) : (h.setDom d p).fld = h.fld := rfl
@[simp] theorem Shepherd.setDom_seq (h : Shepherd) (d : Nat) (p : DomPins) : (h.setDom d p).seq = h.seq := rfl
@[simp] theorem Shepherd.setDom_clks (h : Shepherd) (d : Nat) (p : DomPins) : (h.setDom d p).clks = h.clks := rfl
@[simp] theorem Shepherd.setDom_selCore (h : Shepherd) (d : Nat) (p : DomPins) : (h.setDom d p).selCore = h.selCore := rfl
@[simp] theorem Shepherd.setDom_dpRstN (h : Shepherd) (d : Nat) (p : DomPins) : (h.setDom d p).dpRstN = h.dpRstN := rfl
@[simp] theorem Shepherd.setDom_blkN (h : Shepherd) (d : Nat) (p : DomPins) : (h.setDom d p).blkN = h.blkN := rfl
@[simp] theorem Shepherd.setDom_avsRun (h : Shepherd) (d : Nat) (p : DomPins) : (h.setDom d p).avsRun = h.avsRun := rfl
@[simp] theorem Shepherd.setDom_avsWait (h : Shepherd) (d : Nat) (p : DomPins) : (h.setDom d p).avsWait = h.avsWait := rfl
@[simp] theorem Shepherd.setDom_sleepN (h : Shepherd) (d : Nat) (p : DomPins) : (h.setDom d p).sleepN = h.sleepN := rfl
@[simp] theorem Shepherd.setDom_sleepRun (h : Shepherd) (d : Nat) (p : DomPins) : (h.setDom d p).sleepRun = h.sleepRun := rfl
@[simp] theorem Shepherd.setDom_saves (h : Shepherd) (d : Nat) (p : DomPins) : (h.setDom d p).saves = h.saves := rfl
@[simp] theorem Shepherd.setDom_live (h : Shepherd) (d : Nat) (p : DomPins) : (h.setDom d p).live = h.live := rfl
@[simp] theorem Shepherd.setDom_cseed (h : Shepherd) (d : Nat) (p : DomPins) : (h.setDom d p).cseed = h.cseed := rfl
@[simp] theorem Shepherd.setDom_aonTol (h : Shepherd) (d : Nat) (p : DomPins) : (h.setDom d p).aonTol = h.aonTol := rfl
@[simp] theorem Shepherd.setDom_tick (h : Shepherd) (d : Nat) (p : DomPins) : (h.setDom d p).tick = h.tick := rfl

@[simp] theorem Shepherd.setClk_portA (h : Shepherd) (x : Nat) (p : ClkPins) : (h.setClk x p).portA = h.portA := rfl
@[simp] theorem Shepherd.setClk_portB (h : Shepherd) (x : Nat) (p : ClkPins) : (h.setClk x p).portB = h.portB := rfl
@[simp] theorem Shepherd.setClk_link (h : Shepherd) (x : Nat) (p : ClkPins) : (h.setClk x p).link = h.link := rfl
@[simp] theorem Shepherd.setClk_viewA (h : Shepherd) (x : Nat) (p : ClkPins) : (h.setClk x p).viewA = h.viewA := rfl
@[simp] theorem Shepherd.setClk_viewB (h : Shepherd) (x : Nat) (p : ClkPins) : (h.setClk x p).viewB = h.viewB := rfl
@[simp] theorem Shepherd.setClk_mboxAB (h : Shepherd) (x : Nat) (p : ClkPins) : (h.setClk x p).mboxAB = h.mboxAB := rfl
@[simp] theorem Shepherd.setClk_mboxBA (h : Shepherd) (x : Nat) (p : ClkPins) : (h.setClk x p).mboxBA = h.mboxBA := rfl
@[simp] theorem Shepherd.setClk_sem (h : Shepherd) (x : Nat) (p : ClkPins) : (h.setClk x p).sem = h.sem := rfl
@[simp] theorem Shepherd.setClk_token (h : Shepherd) (x : Nat) (p : ClkPins) : (h.setClk x p).token = h.token := rfl
@[simp] theorem Shepherd.setClk_expert (h : Shepherd) (x : Nat) (p : ClkPins) : (h.setClk x p).expert = h.expert := rfl
@[simp] theorem Shepherd.setClk_cause (h : Shepherd) (x : Nat) (p : ClkPins) : (h.setClk x p).cause = h.cause := rfl
@[simp] theorem Shepherd.setClk_regs (h : Shepherd) (x : Nat) (p : ClkPins) : (h.setClk x p).regs = h.regs := rfl
@[simp] theorem Shepherd.setClk_fld (h : Shepherd) (x : Nat) (p : ClkPins) : (h.setClk x p).fld = h.fld := rfl
@[simp] theorem Shepherd.setClk_seq (h : Shepherd) (x : Nat) (p : ClkPins) : (h.setClk x p).seq = h.seq := rfl
@[simp] theorem Shepherd.setClk_doms (h : Shepherd) (x : Nat) (p : ClkPins) : (h.setClk x p).doms = h.doms := rfl
@[simp] theorem Shepherd.setClk_selCore (h : Shepherd) (x : Nat) (p : ClkPins) : (h.setClk x p).selCore = h.selCore := rfl
@[simp] theorem Shepherd.setClk_dpRstN (h : Shepherd) (x : Nat) (p : ClkPins) : (h.setClk x p).dpRstN = h.dpRstN := rfl
@[simp] theorem Shepherd.setClk_blkN (h : Shepherd) (x : Nat) (p : ClkPins) : (h.setClk x p).blkN = h.blkN := rfl
@[simp] theorem Shepherd.setClk_avsRun (h : Shepherd) (x : Nat) (p : ClkPins) : (h.setClk x p).avsRun = h.avsRun := rfl
@[simp] theorem Shepherd.setClk_avsWait (h : Shepherd) (x : Nat) (p : ClkPins) : (h.setClk x p).avsWait = h.avsWait := rfl
@[simp] theorem Shepherd.setClk_sleepN (h : Shepherd) (x : Nat) (p : ClkPins) : (h.setClk x p).sleepN = h.sleepN := rfl
@[simp] theorem Shepherd.setClk_sleepRun (h : Shepherd) (x : Nat) (p : ClkPins) : (h.setClk x p).sleepRun = h.sleepRun := rfl
@[simp] theorem Shepherd.setClk_saves (h : Shepherd) (x : Nat) (p : ClkPins) : (h.setClk x p).saves = h.saves := rfl
@[simp] theorem Shepherd.setClk_live (h : Shepherd) (x : Nat) (p : ClkPins) : (h.setClk x p).live = h.live := rfl
@[simp] theorem Shepherd.setClk_cseed (h : Shepherd) (x : Nat) (p : ClkPins) : (h.setClk x p).cseed = h.cseed := rfl
@[simp] theorem Shepherd.setClk_aonTol (h : Shepherd) (x : Nat) (p : ClkPins) : (h.setClk x p).aonTol = h.aonTol := rfl
@[simp] theorem Shepherd.setClk_tick (h : Shepherd) (x : Nat) (p : ClkPins) : (h.setClk x p).tick = h.tick := rfl

@[simp] theorem Shepherd.setPort_link (h : Shepherd) (m : RPort) (p : RegPort) : (h.setPort m p).link = h.link := by cases m <;> rfl
@[simp] theorem Shepherd.setPort_viewA (h : Shepherd) (m : RPort) (p : RegPort) : (h.setPort m p).viewA = h.viewA := by cases m <;> rfl
@[simp] theorem Shepherd.setPort_viewB (h : Shepherd) (m : RPort) (p : RegPort) : (h.setPort m p).viewB = h.viewB := by cases m <;> rfl
@[simp] theorem Shepherd.setPort_mboxAB (h : Shepherd) (m : RPort) (p : RegPort) : (h.setPort m p).mboxAB = h.mboxAB := by cases m <;> rfl
@[simp] theorem Shepherd.setPort_mboxBA (h : Shepherd) (m : RPort) (p : RegPort) : (h.setPort m p).mboxBA = h.mboxBA := by cases m <;> rfl
@[simp] theorem Shepherd.setPort_sem (h : Shepherd) (m : RPort) (p : RegPort) : (h.setPort m p).sem = h.sem := by cases m <;> rfl
@[simp] theorem Shepherd.setPort_token (h : Shepherd) (m : RPort) (p : RegPort) : (h.setPort m p).token = h.token := by cases m <;> rfl
@[simp] theorem Shepherd.setPort_expert (h : Shepherd) (m : RPort) (p : RegPort) : (h.setPort m p).expert = h.expert := by cases m <;> rfl
@[simp] theorem Shepherd.setPort_cause (h : Shepherd) (m : RPort) (p : RegPort) : (h.setPort m p).cause = h.cause := by cases m <;> rfl
@[simp] theorem Shepherd.setPort_regs (h : Shepherd) (m : RPort) (p : RegPort) : (h.setPort m p).regs = h.regs := by cases m <;> rfl
@[simp] theorem Shepherd.setPort_fld (h : Shepherd) (m : RPort) (p : RegPort) : (h.setPort m p).fld = h.fld := by cases m <;> rfl
@[simp] theorem Shepherd.setPort_seq (h : Shepherd) (m : RPort) (p : RegPort) : (h.setPort m p).seq = h.seq := by cases m <;> rfl
@[simp] theorem Shepherd.setPort_doms (h : Shepherd) (m : RPort) (p : RegPort) : (h.setPort m p).doms = h.doms := by cases m <;> rfl
@[simp] theorem Shepherd.setPort_clks (h : Shepherd) (m : RPort) (p : RegPort) : (h.setPort m p).clks = h.clks := by cases m <;> rfl
@[simp] theorem Shepherd.setPort_selCore (h : Shepherd) (m : RPort) (p : RegPort) : (h.setPort m p).selCore = h.selCore := by cases m <;> rfl
@[simp] theorem Shepherd.setPort_dpRstN (h : Shepherd) (m : RPort) (p : RegPort) : (h.setPort m p).dpRstN = h.dpRstN := by cases m <;> rfl
@[simp] theorem Shepherd.setPort_blkN (h : Shepherd) (m : RPort) (p : RegPort) : (h.setPort m p).blkN = h.blkN := by cases m <;> rfl
@[simp] theorem Shepherd.setPort_avsRun (h : Shepherd) (m : RPort) (p : RegPort) : (h.setPort m p).avsRun = h.avsRun := by cases m <;> rfl
@[simp] theorem Shepherd.setPort_avsWait (h : Shepherd) (m : RPort) (p : RegPort) : (h.setPort m p).avsWait = h.avsWait := by cases m <;> rfl
@[simp] theorem Shepherd.setPort_sleepN (h : Shepherd) (m : RPort) (p : RegPort) : (h.setPort m p).sleepN = h.sleepN := by cases m <;> rfl
@[simp] theorem Shepherd.setPort_sleepRun (h : Shepherd) (m : RPort) (p : RegPort) : (h.setPort m p).sleepRun = h.sleepRun := by cases m <;> rfl
@[simp] theorem Shepherd.setPort_saves (h : Shepherd) (m : RPort) (p : RegPort) : (h.setPort m p).saves = h.saves := by cases m <;> rfl
@[simp] theorem Shepherd.setPort_live (h : Shepherd) (m : RPort) (p : RegPort) : (h.setPort m p).live = h.live := by cases m <;> rfl
@[simp] theorem Shepherd.setPort_cseed (h : Shepherd) (m : RPort) (p : RegPort) : (h.setPort m p).cseed = h.cseed := by cases m <;> rfl
@[simp] theorem Shepherd.setPort_aonTol (h : Shepherd) (m : RPort) (p : RegPort) : (h.setPort m p).aonTol = h.aonTol := by cases m <;> rfl
@[simp] theorem Shepherd.setPort_tick (h : Shepherd) (m : RPort) (p : RegPort) : (h.setPort m p).tick = h.tick := by cases m <;> rfl

@[simp] theorem Shepherd.port_setPort (h : Shepherd) (m : RPort) (p : RegPort) : (h.setPort m p).port m = p := by cases m <;> rfl
@[simp] theorem Shepherd.peer_setPort (h : Shepherd) (m : RPort) (p : RegPort) : (h.setPort m p).port m.peer = h.port m.peer := by cases m <;> rfl
@[simp] theorem Shepherd.setView_portA (h : Shepherd) (m : RPort) (v : View) : (h.setView m v).portA = h.portA := by cases m <;> rfl
@[simp] theorem Shepherd.setView_portB (h : Shepherd) (m : RPort) (v : View) : (h.setView m v).portB = h.portB := by cases m <;> rfl
@[simp] theorem Shepherd.setView_link (h : Shepherd) (m : RPort) (v : View) : (h.setView m v).link = h.link := by cases m <;> rfl
@[simp] theorem Shepherd.setView_mboxAB (h : Shepherd) (m : RPort) (v : View) : (h.setView m v).mboxAB = h.mboxAB := by cases m <;> rfl
@[simp] theorem Shepherd.setView_mboxBA (h : Shepherd) (m : RPort) (v : View) : (h.setView m v).mboxBA = h.mboxBA := by cases m <;> rfl
@[simp] theorem Shepherd.setView_sem (h : Shepherd) (m : RPort) (v : View) : (h.setView m v).sem = h.sem := by cases m <;> rfl
@[simp] theorem Shepherd.setView_token (h : Shepherd) (m : RPort) (v : View) : (h.setView m v).token = h.token := by cases m <;> rfl
@[simp] theorem Shepherd.setView_expert (h : Shepherd) (m : RPort) (v : View) : (h.setView m v).expert = h.expert := by cases m <;> rfl
@[simp] theorem Shepherd.setView_cause (h : Shepherd) (m : RPort) (v : View) : (h.setView m v).cause = h.cause := by cases m <;> rfl
@[simp] theorem Shepherd.setView_regs (h : Shepherd) (m : RPort) (v : View) : (h.setView m v).regs = h.regs := by cases m <;> rfl
@[simp] theorem Shepherd.setView_fld (h : Shepherd) (m : RPort) (v : View) : (h.setView m v).fld = h.fld := by cases m <;> rfl
@[simp] theorem Shepherd.setView_seq (h : Shepherd) (m : RPort) (v : View) : (h.setView m v).seq = h.seq := by cases m <;> rfl
@[simp] theorem Shepherd.setView_doms (h : Shepherd) (m : RPort) (v : View) : (h.setView m v).doms = h.doms := by cases m <;> rfl
@[simp] theorem Shepherd.setView_clks (h : Shepherd) (m : RPort) (v : View) : (h.setView m v).clks = h.clks := by cases m <;> rfl
@[simp] theorem Shepherd.setView_selCore (h : Shepherd) (m : RPort) (v : View) : (h.setView m v).selCore = h.selCore := by cases m <;> rfl
@[simp] theorem Shepherd.setView_dpRstN (h : Shepherd) (m : RPort) (v : View) : (h.setView m v).dpRstN = h.dpRstN := by cases m <;> rfl
@[simp] theorem Shepherd.setView_blkN (h : Shepherd) (m : RPort) (v : View) : (h.setView m v).blkN = h.blkN := by cases m <;> rfl
@[simp] theorem Shepherd.setView_avsRun (h : Shepherd) (m : RPort) (v : View) : (h.setView m v).avsRun = h.avsRun := by cases m <;> rfl
@[simp] theorem Shepherd.setView_avsWait (h : Shepherd) (m : RPort) (v : View) : (h.setView m v).avsWait = h.avsWait := by cases m <;> rfl
@[simp] theorem Shepherd.setView_sleepN (h : Shepherd) (m : RPort) (v : View) : (h.setView m v).sleepN = h.sleepN := by cases m <;> rfl
@[simp] theorem Shepherd.setView_sleepRun (h : Shepherd) (m : RPort) (v : View) : (h.setView m v).sleepRun = h.sleepRun := by cases m <;> rfl
@[simp] theorem Shepherd.setView_saves (h : Shepherd) (m : RPort) (v : View) : (h.setView m v).saves = h.saves := by cases m <;> rfl
@[simp] theorem Shepherd.setView_live (h : Shepherd) (m : RPort) (v : View) : (h.setView m v).live = h.live := by cases m <;> rfl
@[simp] theorem Shepherd.setView_cseed (h : Shepherd) (m : RPort) (v : View) : (h.setView m v).cseed = h.cseed := by cases m <;> rfl
@[simp] theorem Shepherd.setView_aonTol (h : Shepherd) (m : RPort) (v : View) : (h.setView m v).aonTol = h.aonTol := by cases m <;> rfl
@[simp] theorem Shepherd.setView_tick (h : Shepherd) (m : RPort) (v : View) : (h.setView m v).tick = h.tick := by cases m <;> rfl

@[simp] theorem Shepherd.view_setView (h : Shepherd) (m : RPort) (v : View) : (h.setView m v).view m = v := by cases m <;> rfl
@[simp] theorem Shepherd.peer_setView (h : Shepherd) (m : RPort) (v : View) : (h.setView m v).view m.peer = h.view m.peer := by cases m <;> rfl
@[simp] theorem Shepherd.setMboxOut_portA (h : Shepherd) (m : RPort) (b : Mailbox) : (h.setMboxOut m b).portA = h.portA := by cases m <;> rfl
@[simp] theorem Shepherd.setMboxOut_portB (h : Shepherd) (m : RPort) (b : Mailbox) : (h.setMboxOut m b).portB = h.portB := by cases m <;> rfl
@[simp] theorem Shepherd.setMboxOut_link (h : Shepherd) (m : RPort) (b : Mailbox) : (h.setMboxOut m b).link = h.link := by cases m <;> rfl
@[simp] theorem Shepherd.setMboxOut_viewA (h : Shepherd) (m : RPort) (b : Mailbox) : (h.setMboxOut m b).viewA = h.viewA := by cases m <;> rfl
@[simp] theorem Shepherd.setMboxOut_viewB (h : Shepherd) (m : RPort) (b : Mailbox) : (h.setMboxOut m b).viewB = h.viewB := by cases m <;> rfl
@[simp] theorem Shepherd.setMboxOut_sem (h : Shepherd) (m : RPort) (b : Mailbox) : (h.setMboxOut m b).sem = h.sem := by cases m <;> rfl
@[simp] theorem Shepherd.setMboxOut_token (h : Shepherd) (m : RPort) (b : Mailbox) : (h.setMboxOut m b).token = h.token := by cases m <;> rfl
@[simp] theorem Shepherd.setMboxOut_expert (h : Shepherd) (m : RPort) (b : Mailbox) : (h.setMboxOut m b).expert = h.expert := by cases m <;> rfl
@[simp] theorem Shepherd.setMboxOut_cause (h : Shepherd) (m : RPort) (b : Mailbox) : (h.setMboxOut m b).cause = h.cause := by cases m <;> rfl
@[simp] theorem Shepherd.setMboxOut_regs (h : Shepherd) (m : RPort) (b : Mailbox) : (h.setMboxOut m b).regs = h.regs := by cases m <;> rfl
@[simp] theorem Shepherd.setMboxOut_fld (h : Shepherd) (m : RPort) (b : Mailbox) : (h.setMboxOut m b).fld = h.fld := by cases m <;> rfl
@[simp] theorem Shepherd.setMboxOut_seq (h : Shepherd) (m : RPort) (b : Mailbox) : (h.setMboxOut m b).seq = h.seq := by cases m <;> rfl
@[simp] theorem Shepherd.setMboxOut_doms (h : Shepherd) (m : RPort) (b : Mailbox) : (h.setMboxOut m b).doms = h.doms := by cases m <;> rfl
@[simp] theorem Shepherd.setMboxOut_clks (h : Shepherd) (m : RPort) (b : Mailbox) : (h.setMboxOut m b).clks = h.clks := by cases m <;> rfl
@[simp] theorem Shepherd.setMboxOut_selCore (h : Shepherd) (m : RPort) (b : Mailbox) : (h.setMboxOut m b).selCore = h.selCore := by cases m <;> rfl
@[simp] theorem Shepherd.setMboxOut_dpRstN (h : Shepherd) (m : RPort) (b : Mailbox) : (h.setMboxOut m b).dpRstN = h.dpRstN := by cases m <;> rfl
@[simp] theorem Shepherd.setMboxOut_blkN (h : Shepherd) (m : RPort) (b : Mailbox) : (h.setMboxOut m b).blkN = h.blkN := by cases m <;> rfl
@[simp] theorem Shepherd.setMboxOut_avsRun (h : Shepherd) (m : RPort) (b : Mailbox) : (h.setMboxOut m b).avsRun = h.avsRun := by cases m <;> rfl
@[simp] theorem Shepherd.setMboxOut_avsWait (h : Shepherd) (m : RPort) (b : Mailbox) : (h.setMboxOut m b).avsWait = h.avsWait := by cases m <;> rfl
@[simp] theorem Shepherd.setMboxOut_sleepN (h : Shepherd) (m : RPort) (b : Mailbox) : (h.setMboxOut m b).sleepN = h.sleepN := by cases m <;> rfl
@[simp] theorem Shepherd.setMboxOut_sleepRun (h : Shepherd) (m : RPort) (b : Mailbox) : (h.setMboxOut m b).sleepRun = h.sleepRun := by cases m <;> rfl
@[simp] theorem Shepherd.setMboxOut_saves (h : Shepherd) (m : RPort) (b : Mailbox) : (h.setMboxOut m b).saves = h.saves := by cases m <;> rfl
@[simp] theorem Shepherd.setMboxOut_live (h : Shepherd) (m : RPort) (b : Mailbox) : (h.setMboxOut m b).live = h.live := by cases m <;> rfl
@[simp] theorem Shepherd.setMboxOut_cseed (h : Shepherd) (m : RPort) (b : Mailbox) : (h.setMboxOut m b).cseed = h.cseed := by cases m <;> rfl
@[simp] theorem Shepherd.setMboxOut_aonTol (h : Shepherd) (m : RPort) (b : Mailbox) : (h.setMboxOut m b).aonTol = h.aonTol := by cases m <;> rfl
@[simp] theorem Shepherd.setMboxOut_tick (h : Shepherd) (m : RPort) (b : Mailbox) : (h.setMboxOut m b).tick = h.tick := by cases m <;> rfl

@[simp] theorem Shepherd.mboxOut_setMboxOut (h : Shepherd) (m : RPort) (b : Mailbox) : (h.setMboxOut m b).mboxOut m = b := by cases m <;> rfl
@[simp] theorem Shepherd.peer_setMboxOut (h : Shepherd) (m : RPort) (b : Mailbox) : (h.setMboxOut m b).mboxOut m.peer = h.mboxOut m.peer := by cases m <;> rfl
@[simp] theorem Link.setSlot_fifo (l : Link) (m : RPort) (x : LinkSlot) : (l.setSlot m x).fifo = l.fifo := by cases m <;> rfl
@[simp] theorem Link.setSlot_last (l : Link) (m : RPort) (x : LinkSlot) : (l.setSlot m x).last = l.last := by cases m <;> rfl
@[simp] theorem Link.setSlot_reqWords (l : Link) (m : RPort) (x : LinkSlot) : (l.setSlot m x).reqWords = l.reqWords := by cases m <;> rfl
@[simp] theorem Link.setSlot_rspWords (l : Link) (m : RPort) (x : LinkSlot) : (l.setSlot m x).rspWords = l.rspWords := by cases m <;> rfl

@[simp] theorem Link.slot_setSlot (l : Link) (m : RPort) (x : LinkSlot) : (l.setSlot m x).slot m = x := by cases m <;> rfl
@[simp] theorem Link.peer_setSlot (l : Link) (m : RPort) (x : LinkSlot) : (l.setSlot m x).slot m.peer = l.slot m.peer := by cases m <;> rfl

/-- A list keeps its length when one element is changed. -/
@[simp] theorem length_modAt {α : Type} (f : α → α) (l : List α) (n : Nat) : (modAt f l n).length = l.length := by
  induction l generalizing n with
  | nil => rfl
  | cons x xs ih => cases n <;> simp [modAt, ih]

theorem getD_modAt_same {α : Type} (f : α → α) (l : List α) (n : Nat) (d : α) (h : n < l.length) :
    (modAt f l n).getD n d = f (l.getD n d) := by
  induction l generalizing n with
  | nil => exact absurd h (Nat.not_lt_zero _)
  | cons x xs ih =>
    cases n with
    | zero => rfl
    | succ n => simpa [modAt] using ih n (Nat.lt_of_succ_lt_succ h)

theorem getD_modAt_ne {α : Type} (f : α → α) (l : List α) {n k : Nat} (d : α) (h : k ≠ n) :
    (modAt f l n).getD k d = l.getD k d := by
  induction l generalizing n k with
  | nil => rfl
  | cons x xs ih =>
    cases n with
    | zero => cases k with
      | zero => exact absurd rfl h
      | succ k => rfl
    | succ n => cases k with
      | zero => rfl
      | succ k => simpa [modAt] using ih (fun e => h (by rw [e]))

/-- An element of a list of which one was changed. -/
theorem getD_modAt {α : Type} (f : α → α) (l : List α) (n k : Nat) (d : α) :
    (modAt f l n).getD k d = if k = n ∧ n < l.length then f (l.getD k d) else l.getD k d := by
  by_cases hk : k = n
  · subst hk
    by_cases hl : k < l.length
    · rw [getD_modAt_same f l k d hl, if_pos ⟨rfl, hl⟩]
    · rw [if_neg (by simp [hl]), List.getD_eq_getElem?_getD, List.getD_eq_getElem?_getD,
        List.getElem?_eq_none (by simp; omega), List.getElem?_eq_none (by omega)]
  · rw [getD_modAt_ne f l d hk, if_neg (by simp [hk])]

/-- A domain's signals after they were set. -/
theorem Shepherd.dom_setDom_same (h : Shepherd) (d : Nat) (p : DomPins) (hd : d < h.doms.length) :
    (h.setDom d p).dom d = p := getD_modAt_same _ _ _ _ hd

theorem Shepherd.dom_setDom_ne (h : Shepherd) {d e : Nat} (p : DomPins) (hd : e ≠ d) : (h.setDom d p).dom e = h.dom e :=
  getD_modAt_ne _ _ _ hd

/-- A clock pair after it was set. -/
theorem Shepherd.clk_setClk_same (h : Shepherd) (x : Nat) (p : ClkPins) (hx : x < h.clks.length) :
    (h.setClk x p).clk x = p := getD_modAt_same _ _ _ _ hx

theorem Shepherd.clk_setClk_ne (h : Shepherd) {x y : Nat} (p : ClkPins) (hx : y ≠ x) : (h.setClk x p).clk y = h.clk y :=
  getD_modAt_ne _ _ _ hx

end Sys2Proof.Machine
end

