-- ==== Sys2Proof/Laws/Access.lean ====
section
/-! SUPPORT. What the completion of a register access changes: the answer to a port, its arm, its link slot, and nothing
else. -/

namespace Sys2Proof.Machine

@[simp] theorem State.respond_dp (s : State) (m : RPort) (c : RspCode) (w : Word) : (s.respond m c w).dp = s.dp := rfl
@[simp] theorem State.respond_pending (s : State) (m : RPort) (c : RspCode) (w : Word) : (s.respond m c w).pending = s.pending := rfl
@[simp] theorem State.respond_freeSeed (s : State) (m : RPort) (c : RspCode) (w : Word) : (s.respond m c w).freeSeed = s.freeSeed := rfl
@[simp] theorem State.respond_link (s : State) (m : RPort) (c : RspCode) (w : Word) : (s.respond m c w).sh.link = s.sh.link := by cases m <;> rfl
@[simp] theorem State.respond_viewA (s : State) (m : RPort) (c : RspCode) (w : Word) : (s.respond m c w).sh.viewA = s.sh.viewA := by cases m <;> rfl
@[simp] theorem State.respond_viewB (s : State) (m : RPort) (c : RspCode) (w : Word) : (s.respond m c w).sh.viewB = s.sh.viewB := by cases m <;> rfl
@[simp] theorem State.respond_mboxAB (s : State) (m : RPort) (c : RspCode) (w : Word) : (s.respond m c w).sh.mboxAB = s.sh.mboxAB := by cases m <;> rfl
@[simp] theorem State.respond_mboxBA (s : State) (m : RPort) (c : RspCode) (w : Word) : (s.respond m c w).sh.mboxBA = s.sh.mboxBA := by cases m <;> rfl
@[simp] theorem State.respond_sem (s : State) (m : RPort) (c : RspCode) (w : Word) : (s.respond m c w).sh.sem = s.sh.sem := by cases m <;> rfl
@[simp] theorem State.respond_token (s : State) (m : RPort) (c : RspCode) (w : Word) : (s.respond m c w).sh.token = s.sh.token := by cases m <;> rfl
@[simp] theorem State.respond_expert (s : State) (m : RPort) (c : RspCode) (w : Word) : (s.respond m c w).sh.expert = s.sh.expert := by cases m <;> rfl
@[simp] theorem State.respond_cause (s : State) (m : RPort) (c : RspCode) (w : Word) : (s.respond m c w).sh.cause = s.sh.cause := by cases m <;> rfl
@[simp] theorem State.respond_regs (s : State) (m : RPort) (c : RspCode) (w : Word) : (s.respond m c w).sh.regs = s.sh.regs := by cases m <;> rfl
@[simp] theorem State.respond_fld (s : State) (m : RPort) (c : RspCode) (w : Word) : (s.respond m c w).sh.fld = s.sh.fld := by cases m <;> rfl
@[simp] theorem State.respond_seq (s : State) (m : RPort) (c : RspCode) (w : Word) : (s.respond m c w).sh.seq = s.sh.seq := by cases m <;> rfl
@[simp] theorem State.respond_doms (s : State) (m : RPort) (c : RspCode) (w : Word) : (s.respond m c w).sh.doms = s.sh.doms := by cases m <;> rfl
@[simp] theorem State.respond_clks (s : State) (m : RPort) (c : RspCode) (w : Word) : (s.respond m c w).sh.clks = s.sh.clks := by cases m <;> rfl
@[simp] theorem State.respond_selCore (s : State) (m : RPort) (c : RspCode) (w : Word) : (s.respond m c w).sh.selCore = s.sh.selCore := by cases m <;> rfl
@[simp] theorem State.respond_dpRstN (s : State) (m : RPort) (c : RspCode) (w : Word) : (s.respond m c w).sh.dpRstN = s.sh.dpRstN := by cases m <;> rfl
@[simp] theorem State.respond_blkN (s : State) (m : RPort) (c : RspCode) (w : Word) : (s.respond m c w).sh.blkN = s.sh.blkN := by cases m <;> rfl
@[simp] theorem State.respond_avsRun (s : State) (m : RPort) (c : RspCode) (w : Word) : (s.respond m c w).sh.avsRun = s.sh.avsRun := by cases m <;> rfl
@[simp] theorem State.respond_avsWait (s : State) (m : RPort) (c : RspCode) (w : Word) : (s.respond m c w).sh.avsWait = s.sh.avsWait := by cases m <;> rfl
@[simp] theorem State.respond_sleepN (s : State) (m : RPort) (c : RspCode) (w : Word) : (s.respond m c w).sh.sleepN = s.sh.sleepN := by cases m <;> rfl
@[simp] theorem State.respond_sleepRun (s : State) (m : RPort) (c : RspCode) (w : Word) : (s.respond m c w).sh.sleepRun = s.sh.sleepRun := by cases m <;> rfl
@[simp] theorem State.respond_saves (s : State) (m : RPort) (c : RspCode) (w : Word) : (s.respond m c w).sh.saves = s.sh.saves := by cases m <;> rfl
@[simp] theorem State.respond_live (s : State) (m : RPort) (c : RspCode) (w : Word) : (s.respond m c w).sh.live = s.sh.live := by cases m <;> rfl
@[simp] theorem State.respond_cseed (s : State) (m : RPort) (c : RspCode) (w : Word) : (s.respond m c w).sh.cseed = s.sh.cseed := by cases m <;> rfl
@[simp] theorem State.respond_aonTol (s : State) (m : RPort) (c : RspCode) (w : Word) : (s.respond m c w).sh.aonTol = s.sh.aonTol := by cases m <;> rfl
@[simp] theorem State.respond_tick (s : State) (m : RPort) (c : RspCode) (w : Word) : (s.respond m c w).sh.tick = s.sh.tick := by cases m <;> rfl

@[simp] theorem State.disarm_dp (s : State) (m : RPort) : (s.disarm m).dp = s.dp := rfl
@[simp] theorem State.disarm_pending (s : State) (m : RPort) : (s.disarm m).pending = s.pending := rfl
@[simp] theorem State.disarm_freeSeed (s : State) (m : RPort) : (s.disarm m).freeSeed = s.freeSeed := rfl
@[simp] theorem State.disarm_portA (s : State) (m : RPort) : (s.disarm m).sh.portA = s.sh.portA := by cases m <;> rfl
@[simp] theorem State.disarm_portB (s : State) (m : RPort) : (s.disarm m).sh.portB = s.sh.portB := by cases m <;> rfl
@[simp] theorem State.disarm_link (s : State) (m : RPort) : (s.disarm m).sh.link = s.sh.link := by cases m <;> rfl
@[simp] theorem State.disarm_mboxAB (s : State) (m : RPort) : (s.disarm m).sh.mboxAB = s.sh.mboxAB := by cases m <;> rfl
@[simp] theorem State.disarm_mboxBA (s : State) (m : RPort) : (s.disarm m).sh.mboxBA = s.sh.mboxBA := by cases m <;> rfl
@[simp] theorem State.disarm_sem (s : State) (m : RPort) : (s.disarm m).sh.sem = s.sh.sem := by cases m <;> rfl
@[simp] theorem State.disarm_token (s : State) (m : RPort) : (s.disarm m).sh.token = s.sh.token := by cases m <;> rfl
@[simp] theorem State.disarm_expert (s : State) (m : RPort) : (s.disarm m).sh.expert = s.sh.expert := by cases m <;> rfl
@[simp] theorem State.disarm_cause (s : State) (m : RPort) : (s.disarm m).sh.cause = s.sh.cause := by cases m <;> rfl
@[simp] theorem State.disarm_regs (s : State) (m : RPort) : (s.disarm m).sh.regs = s.sh.regs := by cases m <;> rfl
@[simp] theorem State.disarm_fld (s : State) (m : RPort) : (s.disarm m).sh.fld = s.sh.fld := by cases m <;> rfl
@[simp] theorem State.disarm_seq (s : State) (m : RPort) : (s.disarm m).sh.seq = s.sh.seq := by cases m <;> rfl
@[simp] theorem State.disarm_doms (s : State) (m : RPort) : (s.disarm m).sh.doms = s.sh.doms := by cases m <;> rfl
@[simp] theorem State.disarm_clks (s : State) (m : RPort) : (s.disarm m).sh.clks = s.sh.clks := by cases m <;> rfl
@[simp] theorem State.disarm_selCore (s : State) (m : RPort) : (s.disarm m).sh.selCore = s.sh.selCore := by cases m <;> rfl
@[simp] theorem State.disarm_dpRstN (s : State) (m : RPort) : (s.disarm m).sh.dpRstN = s.sh.dpRstN := by cases m <;> rfl
@[simp] theorem State.disarm_blkN (s : State) (m : RPort) : (s.disarm m).sh.blkN = s.sh.blkN := by cases m <;> rfl
@[simp] theorem State.disarm_avsRun (s : State) (m : RPort) : (s.disarm m).sh.avsRun = s.sh.avsRun := by cases m <;> rfl
@[simp] theorem State.disarm_avsWait (s : State) (m : RPort) : (s.disarm m).sh.avsWait = s.sh.avsWait := by cases m <;> rfl
@[simp] theorem State.disarm_sleepN (s : State) (m : RPort) : (s.disarm m).sh.sleepN = s.sh.sleepN := by cases m <;> rfl
@[simp] theorem State.disarm_sleepRun (s : State) (m : RPort) : (s.disarm m).sh.sleepRun = s.sh.sleepRun := by cases m <;> rfl
@[simp] theorem State.disarm_saves (s : State) (m : RPort) : (s.disarm m).sh.saves = s.sh.saves := by cases m <;> rfl
@[simp] theorem State.disarm_live (s : State) (m : RPort) : (s.disarm m).sh.live = s.sh.live := by cases m <;> rfl
@[simp] theorem State.disarm_cseed (s : State) (m : RPort) : (s.disarm m).sh.cseed = s.sh.cseed := by cases m <;> rfl
@[simp] theorem State.disarm_aonTol (s : State) (m : RPort) : (s.disarm m).sh.aonTol = s.sh.aonTol := by cases m <;> rfl
@[simp] theorem State.disarm_tick (s : State) (m : RPort) : (s.disarm m).sh.tick = s.sh.tick := by cases m <;> rfl

@[simp] theorem State.respond_port (s : State) (m : RPort) (c : RspCode) (w : Word) :
    (s.respond m c w).sh.port m = { s.sh.port m with acc := none, rsp := some { code := c, rdata := w } } := by
  cases m <;> rfl
@[simp] theorem State.respond_peer (s : State) (m : RPort) (c : RspCode) (w : Word) :
    (s.respond m c w).sh.port m.peer = s.sh.port m.peer := by cases m <;> rfl
@[simp] theorem State.disarm_armed (s : State) (m : RPort) : ((s.disarm m).sh.view m).armed = false := by cases m <;> rfl

/-- Accesses of the apply engine and of the housekeeping DMA have no port to answer. -/
@[simp] theorem State.performed_apply (s : State) (a : Nat) (w : Bool) (x : Word) : s.performed .apply a w x = s := rfl
@[simp] theorem State.performed_hdma (s : State) (a : Nat) (w : Bool) (x : Word) : s.performed .hdma a w x = s := rfl

/-- All that the completion of an access can do: answer the port at the core, keep the result on the link, end the port's
arm, or nothing. -/
theorem State.performed_cases (s : State) (src : Src) (a : Nat) (w : Bool) (x : Word) :
    s.performed src a w x = s ∨
    (∃ m, src = .port m ∧ s.performed src a w x = s.respond m .ok x) ∨
    (∃ m, src = .port m ∧ s.performed src a w x = s.disarm m) ∨
    (∃ m sl, src = .port m ∧ s.performed src a w x =
      s.onSh (fun h => { h with link := h.link.setSlot m sl })) := by
  unfold State.performed
  cases src with
  | hdma => exact .inl rfl
  | apply => exact .inl rfl
  | port m =>
    dsimp only
    split
    · next y hy =>
      split
      · split
        · exact .inr (.inl ⟨m, rfl, rfl⟩)
        · exact .inl rfl
        · simp only [State.onSh]
          split
          · next r hr =>
            split
            · exact .inr (.inr (.inr ⟨m, _, rfl, rfl⟩))
            · exact .inl rfl
          · exact .inl rfl
      · exact .inr (.inr (.inl ⟨m, rfl, rfl⟩))
    · exact .inr (.inr (.inl ⟨m, rfl, rfl⟩))

@[simp] theorem State.performed_dp (s : State) (src : Src) (a : Nat) (w : Bool) (x : Word) :
    (s.performed src a w x).dp = s.dp := by
  rcases s.performed_cases src a w x with h | ⟨m, _, h⟩ | ⟨m, _, h⟩ | ⟨m, sl, _, h⟩ <;> rw [h] <;> simp
@[simp] theorem State.performed_pending (s : State) (src : Src) (a : Nat) (w : Bool) (x : Word) :
    (s.performed src a w x).pending = s.pending := by
  rcases s.performed_cases src a w x with h | ⟨m, _, h⟩ | ⟨m, _, h⟩ | ⟨m, sl, _, h⟩ <;> rw [h] <;> simp
@[simp] theorem State.performed_freeSeed (s : State) (src : Src) (a : Nat) (w : Bool) (x : Word) :
    (s.performed src a w x).freeSeed = s.freeSeed := by
  rcases s.performed_cases src a w x with h | ⟨m, _, h⟩ | ⟨m, _, h⟩ | ⟨m, sl, _, h⟩ <;> rw [h] <;> simp
@[simp] theorem State.performed_mboxAB (s : State) (src : Src) (a : Nat) (w : Bool) (x : Word) :
    (s.performed src a w x).sh.mboxAB = s.sh.mboxAB := by
  rcases s.performed_cases src a w x with h | ⟨m, _, h⟩ | ⟨m, _, h⟩ | ⟨m, sl, _, h⟩ <;> rw [h] <;> simp
@[simp] theorem State.performed_mboxBA (s : State) (src : Src) (a : Nat) (w : Bool) (x : Word) :
    (s.performed src a w x).sh.mboxBA = s.sh.mboxBA := by
  rcases s.performed_cases src a w x with h | ⟨m, _, h⟩ | ⟨m, _, h⟩ | ⟨m, sl, _, h⟩ <;> rw [h] <;> simp
@[simp] theorem State.performed_sem (s : State) (src : Src) (a : Nat) (w : Bool) (x : Word) :
    (s.performed src a w x).sh.sem = s.sh.sem := by
  rcases s.performed_cases src a w x with h | ⟨m, _, h⟩ | ⟨m, _, h⟩ | ⟨m, sl, _, h⟩ <;> rw [h] <;> simp
@[simp] theorem State.performed_token (s : State) (src : Src) (a : Nat) (w : Bool) (x : Word) :
    (s.performed src a w x).sh.token = s.sh.token := by
  rcases s.performed_cases src a w x with h | ⟨m, _, h⟩ | ⟨m, _, h⟩ | ⟨m, sl, _, h⟩ <;> rw [h] <;> simp
@[simp] theorem State.performed_expert (s : State) (src : Src) (a : Nat) (w : Bool) (x : Word) :
    (s.performed src a w x).sh.expert = s.sh.expert := by
  rcases s.performed_cases src a w x with h | ⟨m, _, h⟩ | ⟨m, _, h⟩ | ⟨m, sl, _, h⟩ <;> rw [h] <;> simp
@[simp] theorem State.performed_cause (s : State) (src : Src) (a : Nat) (w : Bool) (x : Word) :
    (s.performed src a w x).sh.cause = s.sh.cause := by
  rcases s.performed_cases src a w x with h | ⟨m, _, h⟩ | ⟨m, _, h⟩ | ⟨m, sl, _, h⟩ <;> rw [h] <;> simp
@[simp] theorem State.performed_regs (s : State) (src : Src) (a : Nat) (w : Bool) (x : Word) :
    (s.performed src a w x).sh.regs = s.sh.regs := by
  rcases s.performed_cases src a w x with h | ⟨m, _, h⟩ | ⟨m, _, h⟩ | ⟨m, sl, _, h⟩ <;> rw [h] <;> simp
@[simp] theorem State.performed_fld (s : State) (src : Src) (a : Nat) (w : Bool) (x : Word) :
    (s.performed src a w x).sh.fld = s.sh.fld := by
  rcases s.performed_cases src a w x with h | ⟨m, _, h⟩ | ⟨m, _, h⟩ | ⟨m, sl, _, h⟩ <;> rw [h] <;> simp
@[simp] theorem State.performed_seq (s : State) (src : Src) (a : Nat) (w : Bool) (x : Word) :
    (s.performed src a w x).sh.seq = s.sh.seq := by
  rcases s.performed_cases src a w x with h | ⟨m, _, h⟩ | ⟨m, _, h⟩ | ⟨m, sl, _, h⟩ <;> rw [h] <;> simp
@[simp] theorem State.performed_doms (s : State) (src : Src) (a : Nat) (w : Bool) (x : Word) :
    (s.performed src a w x).sh.doms = s.sh.doms := by
  rcases s.performed_cases src a w x with h | ⟨m, _, h⟩ | ⟨m, _, h⟩ | ⟨m, sl, _, h⟩ <;> rw [h] <;> simp
@[simp] theorem State.performed_clks (s : State) (src : Src) (a : Nat) (w : Bool) (x : Word) :
    (s.performed src a w x).sh.clks = s.sh.clks := by
  rcases s.performed_cases src a w x with h | ⟨m, _, h⟩ | ⟨m, _, h⟩ | ⟨m, sl, _, h⟩ <;> rw [h] <;> simp
@[simp] theorem State.performed_selCore (s : State) (src : Src) (a : Nat) (w : Bool) (x : Word) :
    (s.performed src a w x).sh.selCore = s.sh.selCore := by
  rcases s.performed_cases src a w x with h | ⟨m, _, h⟩ | ⟨m, _, h⟩ | ⟨m, sl, _, h⟩ <;> rw [h] <;> simp
@[simp] theorem State.performed_dpRstN (s : State) (src : Src) (a : Nat) (w : Bool) (x : Word) :
    (s.performed src a w x).sh.dpRstN = s.sh.dpRstN := by
  rcases s.performed_cases src a w x with h | ⟨m, _, h⟩ | ⟨m, _, h⟩ | ⟨m, sl, _, h⟩ <;> rw [h] <;> simp
@[simp] theorem State.performed_blkN (s : State) (src : Src) (a : Nat) (w : Bool) (x : Word) :
    (s.performed src a w x).sh.blkN = s.sh.blkN := by
  rcases s.performed_cases src a w x with h | ⟨m, _, h⟩ | ⟨m, _, h⟩ | ⟨m, sl, _, h⟩ <;> rw [h] <;> simp
@[simp] theorem State.performed_avsRun (s : State) (src : Src) (a : Nat) (w : Bool) (x : Word) :
    (s.performed src a w x).sh.avsRun = s.sh.avsRun := by
  rcases s.performed_cases src a w x with h | ⟨m, _, h⟩ | ⟨m, _, h⟩ | ⟨m, sl, _, h⟩ <;> rw [h] <;> simp
@[simp] theorem State.performed_avsWait (s : State) (src : Src) (a : Nat) (w : Bool) (x : Word) :
    (s.performed src a w x).sh.avsWait = s.sh.avsWait := by
  rcases s.performed_cases src a w x with h | ⟨m, _, h⟩ | ⟨m, _, h⟩ | ⟨m, sl, _, h⟩ <;> rw [h] <;> simp
@[simp] theorem State.performed_sleepN (s : State) (src : Src) (a : Nat) (w : Bool) (x : Word) :
    (s.performed src a w x).sh.sleepN = s.sh.sleepN := by
  rcases s.performed_cases src a w x with h | ⟨m, _, h⟩ | ⟨m, _, h⟩ | ⟨m, sl, _, h⟩ <;> rw [h] <;> simp
@[simp] theorem State.performed_sleepRun (s : State) (src : Src) (a : Nat) (w : Bool) (x : Word) :
    (s.performed src a w x).sh.sleepRun = s.sh.sleepRun := by
  rcases s.performed_cases src a w x with h | ⟨m, _, h⟩ | ⟨m, _, h⟩ | ⟨m, sl, _, h⟩ <;> rw [h] <;> simp
@[simp] theorem State.performed_saves (s : State) (src : Src) (a : Nat) (w : Bool) (x : Word) :
    (s.performed src a w x).sh.saves = s.sh.saves := by
  rcases s.performed_cases src a w x with h | ⟨m, _, h⟩ | ⟨m, _, h⟩ | ⟨m, sl, _, h⟩ <;> rw [h] <;> simp
@[simp] theorem State.performed_live (s : State) (src : Src) (a : Nat) (w : Bool) (x : Word) :
    (s.performed src a w x).sh.live = s.sh.live := by
  rcases s.performed_cases src a w x with h | ⟨m, _, h⟩ | ⟨m, _, h⟩ | ⟨m, sl, _, h⟩ <;> rw [h] <;> simp
@[simp] theorem State.performed_cseed (s : State) (src : Src) (a : Nat) (w : Bool) (x : Word) :
    (s.performed src a w x).sh.cseed = s.sh.cseed := by
  rcases s.performed_cases src a w x with h | ⟨m, _, h⟩ | ⟨m, _, h⟩ | ⟨m, sl, _, h⟩ <;> rw [h] <;> simp
@[simp] theorem State.performed_aonTol (s : State) (src : Src) (a : Nat) (w : Bool) (x : Word) :
    (s.performed src a w x).sh.aonTol = s.sh.aonTol := by
  rcases s.performed_cases src a w x with h | ⟨m, _, h⟩ | ⟨m, _, h⟩ | ⟨m, sl, _, h⟩ <;> rw [h] <;> simp
@[simp] theorem State.performed_tick (s : State) (src : Src) (a : Nat) (w : Bool) (x : Word) :
    (s.performed src a w x).sh.tick = s.sh.tick := by
  rcases s.performed_cases src a w x with h | ⟨m, _, h⟩ | ⟨m, _, h⟩ | ⟨m, sl, _, h⟩ <;> rw [h] <;> simp

/-- An access at the core is answered as it takes effect (R46). -/
theorem State.performed_atCore (s : State) (m : RPort) (a : Nat) (w : Bool) (x : Word) (y : OutAccess)
    (hy : (s.sh.port m).acc = some y) (hi : y.is w a = true) (hs : y.stage = .atCore) :
    s.performed (.port m) a w x = s.respond m .ok x := by
  simp [State.performed, hy, hi, hs]

/-- A write of a row takes effect where it reaches its register. -/
theorem State.regWrite_reaches (s : State) (src : Src) (a : Nat) (f : State → State) (h : s.reaches src a true = true) :
    s.regWrite src a f = (f s).performed src a true 0 := by simp [State.regWrite, h]

/-- A read of a row takes effect where it reaches its register. -/
theorem State.regRead_reaches (s : State) (src : Src) (a : Nat) (f : State → State × Word)
    (h : s.reaches src a false = true) :
    s.regRead src a f = (f s).1.performed src a false (f s).2 := by simp [State.regRead, h]

/-- A row that does not reach its register ends at most its port's arm. -/
theorem State.regWrite_off (s : State) (src : Src) (a : Nat) (f : State → State) (h : s.reaches src a true = false) :
    s.regWrite src a f = s.turnedOff src := by simp [State.regWrite, h]

theorem State.regRead_off (s : State) (src : Src) (a : Nat) (f : State → State × Word)
    (h : s.reaches src a false = false) : s.regRead src a f = s.turnedOff src := by simp [State.regRead, h]

/-- All that a row's access that does not reach its register can do. -/
theorem State.turnedOff_cases (s : State) (src : Src) :
    s.turnedOff src = s ∨ ∃ m, src = .port m ∧ s.turnedOff src = s.disarm m := by
  cases src with
  | port m =>
    by_cases h : s.portOpen m = true
    · exact .inr ⟨m, rfl, by simp [State.turnedOff, h]⟩
    · exact .inl (by simp [State.turnedOff, h])
  | hdma => exact .inl rfl
  | apply => exact .inl rfl

/-- A row of the housekeeping DMA reaches a register that the engine may address, one of the apply engine any register, whose
unit is awake. -/
@[simp] theorem State.reaches_hdma (s : State) (a : Nat) (w : Bool) :
    s.reaches .hdma a w = (hdmRangeOk a 4 && s.sh.awake a && !s.sh.seq.lost.contains (domainOf a)) := by
  simp [State.reaches, State.rowDue]
@[simp] theorem State.reaches_apply (s : State) (a : Nat) (w : Bool) :
    s.reaches .apply a w = (s.sh.awake a && !s.sh.seq.lost.contains (domainOf a)) := by
  simp [State.reaches, State.rowDue]

/-- What reaches a register finds its unit awake. -/
theorem State.reaches_awake {s : State} {src : Src} {a : Nat} {w : Bool} (h : s.reaches src a w = true) :
    s.sh.awake a = true := by
  simp only [State.reaches, Bool.and_eq_true] at h
  exact h.1.2

/-- The datapath after a write of a row. -/
theorem State.regWrite_dp (s : State) (src : Src) (a : Nat) (f : State → State) (h : s.reaches src a true = true) :
    (s.regWrite src a f).dp = (f s).dp := by rw [State.regWrite_reaches _ _ _ _ h, State.performed_dp]

theorem State.regRead_dp (s : State) (src : Src) (a : Nat) (f : State → State × Word)
    (h : s.reaches src a false = true) : (s.regRead src a f).dp = (f s).1.dp := by
  rw [State.regRead_reaches _ _ _ _ h, State.performed_dp]

@[simp] theorem State.turnedOff_dp (s : State) (src : Src) : (s.turnedOff src).dp = s.dp := by
  rcases s.turnedOff_cases src with h | ⟨m, _, h⟩ <;> rw [h] <;> simp
@[simp] theorem State.turnedOff_pending (s : State) (src : Src) : (s.turnedOff src).pending = s.pending := by
  rcases s.turnedOff_cases src with h | ⟨m, _, h⟩ <;> rw [h] <;> simp
@[simp] theorem State.turnedOff_freeSeed (s : State) (src : Src) : (s.turnedOff src).freeSeed = s.freeSeed := by
  rcases s.turnedOff_cases src with h | ⟨m, _, h⟩ <;> rw [h] <;> simp
@[simp] theorem State.turnedOff_regs (s : State) (src : Src) : (s.turnedOff src).sh.regs = s.sh.regs := by
  rcases s.turnedOff_cases src with h | ⟨m, _, h⟩ <;> rw [h] <;> simp

end Sys2Proof.Machine
end

