-- ==== Sys2Proof/Laws/Fields.lean ====
section
/-! SUPPORT. The fields of every register lie apart and within its 32 bits; what a write does to a bit of one field. -/

namespace Sys2Proof.Machine

/-- Whether the fields of a list lie apart, most significant first, each within 32 bits. -/
def fieldsApart : List FieldSpec → Nat → Bool
  | [], _ => true
  | f :: l, n => f.lo ≤ f.hi && f.hi < n && fieldsApart l f.lo

/-- The field tables keep their fields apart. -/
theorem Reg.fields_apart (r : Reg) : fieldsApart r.fields 32 = true := by cases r <;> rfl

/-- Whether a field covers a bit. -/
def FieldSpec.covers (f : FieldSpec) (k : Nat) : Prop := f.lo ≤ k ∧ k ≤ f.hi

theorem FieldSpec.mask_testBit (f : FieldSpec) (k : Nat) (h : f.lo ≤ f.hi) :
    f.mask.testBit k = decide (f.lo ≤ k ∧ k ≤ f.hi) := by
  simp only [FieldSpec.mask, Nat.testBit_shiftLeft, Nat.testBit_two_pow_sub_one]
  by_cases h1 : f.lo ≤ k
  · by_cases h2 : k ≤ f.hi
    · have : k - f.lo < f.hi + 1 - f.lo := by omega
      simp [h1, h2, this]
    · have : ¬ (k - f.lo < f.hi + 1 - f.lo) := by omega
      simp [h1, h2, this]
  · simp [h1]

/-- Fields below a bound cover no bit from the bound on. -/
theorem fieldsApart_lt {l : List FieldSpec} {n : Nat} (h : fieldsApart l n = true) {f : FieldSpec} (hf : f ∈ l) :
    f.lo ≤ f.hi ∧ f.hi < n := by
  induction l generalizing n with
  | nil => cases hf
  | cons g l ih =>
    simp only [fieldsApart, Bool.and_eq_true, decide_eq_true_eq] at h
    cases hf with
    | head => exact ⟨h.1.1, h.1.2⟩
    | tail _ hf => have := ih h.2 hf; exact ⟨this.1, by omega⟩

/-- A fold of bitwise updates, each of which leaves the bits outside its field alone, acts on a bit as the one field that
covers it does. -/
theorem foldl_fields (g : Nat → FieldSpec → Nat) (k : Nat)
    (hg : ∀ (w w' : Nat) (f : FieldSpec), w.testBit k = w'.testBit k → (g w f).testBit k = (g w' f).testBit k)
    (hn : ∀ (w : Nat) (f : FieldSpec), f.lo ≤ f.hi → ¬ (f.lo ≤ k ∧ k ≤ f.hi) → (g w f).testBit k = w.testBit k)
    (l : List FieldSpec) (n : Nat) (h : fieldsApart l n = true) (w : Nat) :
    (∀ f, f ∈ l → f.lo ≤ k → k ≤ f.hi → (l.foldl g w).testBit k = (g w f).testBit k) ∧
    ((∀ f, f ∈ l → ¬ (f.lo ≤ k ∧ k ≤ f.hi)) → (l.foldl g w).testBit k = w.testBit k) := by
  induction l generalizing n w with
  | nil => exact ⟨fun f hf => absurd hf (List.not_mem_nil), fun _ => rfl⟩
  | cons e l ih =>
    have h' := h
    simp only [fieldsApart, Bool.and_eq_true, decide_eq_true_eq] at h'
    have ih' := fun w => ih e.lo h'.2 w
    simp only [List.foldl_cons]
    refine ⟨?_, ?_⟩
    · intro f hf h1 h2
      cases hf with
      | head =>
        refine (ih' (g w e)).2 ?_
        intro f' hf' hc
        have := fieldsApart_lt h'.2 hf'
        omega
      | tail _ hf =>
        have := fieldsApart_lt h'.2 hf
        rw [(ih' (g w e)).1 f hf h1 h2]
        exact hg _ _ _ (hn w e h'.1.1 (by omega))
    · intro hall
      rw [(ih' (g w e)).2 (fun f hf => hall f (List.mem_cons_of_mem _ hf))]
      exact hn w e h'.1.1 (hall e (List.mem_cons_self ..))

/-- The byte enables' mask bit by bit. -/
theorem beMask_testBit (be : BitVec 4) (k : Nat) (hk : k < 32) : (beMask be).testBit k = be.getLsbD (k / 8) := by
  have : ∀ be : BitVec 4, ∀ k : Fin 32, (beMask be).testBit k = be.getLsbD (k / 8) := by decide
  exact this be ⟨k, hk⟩

end Sys2Proof.Machine
end

