-- ==== Sys2Proof/Laws/Idle.lean ====
section
/-! SUPPORT. What each part of a tick can change: one lemma for each operation of Machine/Idle.lean, which says that all but the named
fields stay. -/

namespace Sys2Proof.Machine

/-- What every round of a loop keeps, the loop keeps. -/
theorem loop_keeps {σ : Type} (P : σ → Prop) (f : Nat → σ → σ) (h : ∀ k s, P s → P (f k s)) (n : Nat) (s : σ) (hs : P s) :
    P (loop n f s) := by
  unfold loop
  generalize List.range n = l
  induction l generalizing s with
  | nil => exact hs
  | cons k l ih => exact ih _ (h k s hs)

/-- What every round of a fold keeps, the fold keeps. -/
theorem foldl_keeps {σ α : Type} (P : σ → Prop) (f : σ → α → σ) (h : ∀ s a, P s → P (f s a)) (l : List α) (s : σ) (hs : P s) :
    P (l.foldl f s) := by
  induction l generalizing s with
  | nil => exact hs
  | cons a l ih => exact ih _ (h s a hs)

/-! ## Time bases -/

/-- A base as it stands after another, or the same, was replaced. -/
theorem Datapath.tb_setTb (d : Datapath) (b k : Nat) (x : TimeBase) :
    (d.setTb b x).tb k = if k = b ∧ b < d.tim.bases.length then x else d.tb k := getD_modAt _ _ _ _ _

@[simp] theorem Datapath.setTb_bases_length (d : Datapath) (b : Nat) (x : TimeBase) :
    (d.setTb b x).tim.bases.length = d.tim.bases.length := length_modAt _ _ _

/-- One tick of the bases changes nothing but the bases. -/
theorem Datapath.tbTick_frame (d : Datapath) : { d.tbTick with tim := { d.tbTick.tim with bases := d.tim.bases } } = d :=
  loop_keeps (fun e : Datapath => { e with tim := { e.tim with bases := d.tim.bases } } = d) _
    (fun k s h => by simpa [Datapath.setTb] using h) 8 d rfl

/-- After one tick each of the eight bases has advanced by its own RATE (R481). -/
theorem Datapath.tbTick_tb (d : Datapath) (b : Nat) (hb : b < 8) (hl : b < d.tim.bases.length) :
    d.tbTick.tb b = (d.tb b).advance (d.rd F.timRate_RATE b) := by
  have key : ∀ n, n ≤ 8 →
      let e := loop n (fun b d => d.setTb b ((d.tb b).advance (d.rd F.timRate_RATE b))) d
      e.tim.bases.length = d.tim.bases.length ∧ e.regs = d.regs ∧
        ∀ k, k < d.tim.bases.length → e.tb k = if k < n then (d.tb k).advance (d.rd F.timRate_RATE k) else d.tb k := by
    intro n
    induction n with
    | zero => intro _; exact ⟨rfl, rfl, fun k _ => by simp [loop]⟩
    | succ n ih =>
      intro hn
      obtain ⟨h1, h2, h3⟩ := ih (by omega)
      simp only [loop, List.range_succ, List.foldl_append, List.foldl_cons, List.foldl_nil] at h1 h2 h3 ⊢
      generalize (List.range n).foldl _ d = e at h1 h2 h3 ⊢
      refine ⟨by simpa using h1, h2, fun k hk => ?_⟩
      rw [Datapath.tb_setTb, h1]
      by_cases hkn : k = n
      · subst hkn
        have hr : e.rd F.timRate_RATE k = d.rd F.timRate_RATE k := by simp only [Datapath.rd, h2]
        simp [hk, h3 k hk, hr]
      · rw [if_neg (fun h => hkn h.1), h3 k hk]
        by_cases hlt : k < n
        · simp [hlt, Nat.lt_succ_of_lt hlt]
        · rw [if_neg hlt, if_neg (by omega)]
  exact ((key 8 (Nat.le_refl _)).2.2 b hl).trans (if_pos hb)

/-! ## Shapers, flow control, monitor, store-room ports -/

/-- What a tick of the shapers leaves of the drovers: all but the token counts and the rates in force. -/
def Drover.rest (v : Drover) : Drover := { v with ratePort := [], rateClass := [], tokPort := [], tokClass := [], tokCap := [] }

@[simp] theorem Drover.rest_cap (v : Drover) (t : Tab Int) : ({ v with tokCap := t } : Drover).rest = v.rest := rfl
@[simp] theorem Drover.rest_port (v : Drover) (r : Tab Nat) (t : Tab Int) :
    ({ v with ratePort := r, tokPort := t } : Drover).rest = v.rest := rfl
@[simp] theorem Drover.rest_class (v : Drover) (r : Tab Nat) (t : Tab Int) :
    ({ v with rateClass := r, tokClass := t } : Drover).rest = v.rest := rfl

/-- One tick of the shapers changes nothing but their token counts and rates in force (R372, R374). -/
theorem Datapath.shaperTick_frame (d : Datapath) : { d.shaperTick with drv := d.drv } = d ∧ d.shaperTick.drv.rest = d.drv.rest := by
  unfold Datapath.shaperTick
  dsimp only
  refine ⟨rfl, ?_⟩
  refine foldl_keeps (fun v : Drover => v.rest = d.drv.rest) _ (fun v p h => ?_) _ _ ?_
  · exact (Drover.rest_cap v _).trans h
  · refine foldl_keeps (fun v : Drover => v.rest = d.drv.rest) _ (fun v e h => ?_) _ _ rfl
    split
    · exact (Drover.rest_port v _ _).trans h
    · exact (Drover.rest_class v _ _).trans h
    · exact h

/-- An evaluation of an XOFF state changes nothing but the register file and the transmit MACs (R350, R407). -/
theorem Datapath.xoffEval_frame (d : Datapath) (p c : Nat) (a : Bool) :
    { d.xoffEval p c a with regs := d.regs, tx := d.tx } = d := by
  unfold Datapath.xoffEval Datapath.fcTrigger
  split
  · rfl
  · dsimp only
    repeat' split
    all_goals rfl

/-- The evaluation of every XOFF state changes nothing but the register file and the transmit MACs. -/
theorem Datapath.xoffClock_frame (d : Datapath) : { d.xoffClock with regs := d.regs, tx := d.tx } = d := by
  unfold Datapath.xoffClock
  refine foldl_keeps (fun e : Datapath => { e with regs := d.regs, tx := d.tx } = d) _ (fun e x h => ?_) _ _ rfl
  split
  · refine loop_keeps (fun e : Datapath => { e with regs := d.regs, tx := d.tx } = d) _ (fun c e h => ?_) 8 e h
    have := Datapath.xoffEval_frame e x.1 c false
    exact (congrArg (fun z : Datapath => { z with regs := d.regs, tx := d.tx }) this).trans h
  · exact h

/-- What the monitor changes: its counters, the register file, and the notes of the present clock. -/
def Datapath.pmnRest (d : Datapath) : Datapath := { d with regs := [], pmn := {}, together := [] }

@[simp] theorem Datapath.pmnAdd_rest (d : Datapath) (j n : Nat) : (d.pmnAdd j n).pmnRest = d.pmnRest := by
  unfold Datapath.pmnAdd Datapath.pmnSet
  dsimp only
  repeat' split
  all_goals rfl

@[simp] theorem Datapath.pmnEvent_rest (d : Datapath) (e x n : Nat) (b : Bool) : (d.pmnEvent e x n b).pmnRest = d.pmnRest := by
  unfold Datapath.pmnEvent
  split
  · rfl
  · dsimp only
    generalize (if b = true then d.wr F.pmnCtl_RUN 1 else d) = d'
    refine loop_keeps (fun z : Datapath => z.pmnRest = d.pmnRest) _ (fun k z h => ?_) 8 d rfl
    split
    · exact (Datapath.pmnAdd_rest z k n).trans h
    · exact h

/-- A tick of the monitor changes nothing but its counters, the register file, and the notes of the present clock (R581, R587). -/
theorem Datapath.pmnClocks_rest (d : Datapath) (n : Nat) : (d.pmnClocks n).pmnRest = d.pmnRest := by
  unfold Datapath.pmnClocks
  split
  · rfl
  · have key : ∀ (z : Datapath) (p : Pmn), ({ z with pmn := p } : Datapath).pmnRest = z.pmnRest := fun _ _ => rfl
    dsimp only
    rw [key]
    refine loop_keeps (fun z : Datapath => z.pmnRest = d.pmnRest) _ (fun k z h => ?_) 40 _ (by simp)
    rw [Datapath.pmnEvent_rest, Datapath.pmnEvent_rest]
    exact h

/-- Clocks of clk_srp change nothing but the store-room ports (R471). -/
theorem Datapath.srpClocks_frame (d : Datapath) (n : Nat) : { d.srpClocks n with stp := d.stp } = d := by
  unfold Datapath.srpClocks
  dsimp only
  refine loop_keeps (fun e : Datapath => { e with stp := d.stp } = d) _ (fun k e h => ?_) 6 d rfl
  exact h

/-! ## The tick -/

/-- What one tick leaves before a step of the power sequencer is taken up. -/
def State.ticked (s : State) : State :=
  ((s.onDp Datapath.clockEnds).shfEdge.coreEdge.srpEdge.onSh Shepherd.aonEdge).onSh (fun h => { h with tick := h.tick + 1 })

theorem State.idle_eq (s : State) : s.idle = s.ticked.seqPoll := rfl

theorem State.shfEdge_sh (s : State) : s.shfEdge.sh = s.sh ∧ s.shfEdge.pending = s.pending ∧ s.shfEdge.freeSeed = s.freeSeed := by
  cases h2 : s.sh.runs 2 <;> cases h8 : s.sh.domOn 18 <;> cases h7 : s.sh.domOn 17 <;> simp [State.shfEdge, h2, h8, h7]

theorem State.coreEdge_sh (s : State) : s.coreEdge.sh = s.sh ∧ s.coreEdge.pending = s.pending ∧ s.coreEdge.freeSeed = s.freeSeed := by
  cases h0 : s.sh.runs 0 <;> cases h5 : s.sh.domOn 15 <;> cases h9 : s.sh.domOn 19 <;> simp [State.coreEdge, h0, h5, h9]

theorem State.srpEdge_sh (s : State) : s.srpEdge.sh = s.sh ∧ s.srpEdge.pending = s.pending ∧ s.srpEdge.freeSeed = s.freeSeed := by
  cases h1 : s.sh.runs 1 <;> cases h9 : s.sh.domOn 9 <;> simp [State.srpEdge, h1, h9]

/-- Of the shepherd a tick changes the tick count and, on the clk_aon edge of every eighth tick, a running sleep tally (R619); the
queue and the count of free values stay. -/
theorem State.ticked_sh (s : State) :
    s.ticked.sh = { s.sh with
      tick := s.sh.tick + 1
      sleepN := if s.sh.sleepRun = true ∧ s.sh.tick % 8 = 7 then (s.sh.sleepN + 1) % 2 ^ 64 else s.sh.sleepN } ∧
    s.ticked.pending = s.pending ∧ s.ticked.freeSeed = s.freeSeed := by
  obtain ⟨a1, a2, a3⟩ := (s.onDp Datapath.clockEnds).shfEdge_sh
  obtain ⟨b1, b2, b3⟩ := (s.onDp Datapath.clockEnds).shfEdge.coreEdge_sh
  obtain ⟨c1, c2, c3⟩ := (s.onDp Datapath.clockEnds).shfEdge.coreEdge.srpEdge_sh
  have hsh : (s.onDp Datapath.clockEnds).shfEdge.coreEdge.srpEdge.sh = s.sh := c1.trans (b1.trans a1)
  refine ⟨?_, c2.trans (b2.trans a2), c3.trans (b3.trans a3)⟩
  simp only [State.ticked, State.onSh_sh, hsh, Shepherd.aonEdge, Bool.and_eq_true, decide_eq_true_eq]
  by_cases h : s.sh.sleepRun = true ∧ s.sh.tick % 8 = 7 <;> simp [h]

end Sys2Proof.Machine
end

