-- ==== Sys2Proof/Laws/Memory.lean ====
section
/-! SUPPORT. The addressed memories of the block: a byte written reads back, every other byte stays, and every operation
keeps the canonical form. -/

namespace Sys2Proof.Machine

/-- A byte that was written reads as written, defined or not before. -/
theorem URam.read_write_same (m : URam) (a : Nat) (b : Byte) : (m.write a b).read a = b := by
  unfold URam.write URam.read
  dsimp only
  split
  · next x h =>
    split at h
    · rw [Tab.find_erase_same] at h; exact absurd h (by simp)
    · rw [Tab.find_set_same] at h; exact (Option.some.inj h).symm
  · next h =>
    split at h
    · next hc =>
      simp only [Bool.and_eq_true, decide_eq_true_eq, Bool.not_eq_true', List.any_eq_false] at hc
      have hn : m.undef.find? (fun r => r.1 ≤ a && a < r.2.1) = none := by
        rw [List.find?_eq_none]; intro r hr; simpa using hc.2 r hr
      rw [hn]; exact hc.1.symm
    · rw [Tab.find_set_same] at h; exact absurd h (by simp)

/-- A write leaves every other byte alone. -/
theorem URam.read_write_ne (m : URam) {a a' : Nat} (h : a' ≠ a) (b : Byte) : (m.write a b).read a' = m.read a' := by
  have e : Tab.find (m.write a b).cells a' = Tab.find m.cells a' := by
    unfold URam.write; dsimp only; split
    · exact Tab.find_erase_ne _ h
    · exact Tab.find_set_ne _ h b
  have u : (m.write a b).undef = m.undef := rfl
  unfold URam.read; rw [e, u]

/-- Writing bytes leaves every byte outside them alone. -/
theorem URam.read_writes_out (bs : List Byte) (m : URam) (a x : Nat) (h : x < a ∨ a + bs.length ≤ x) :
    (m.writes a bs).read x = m.read x := by
  induction bs generalizing m a with
  | nil => rfl
  | cons b bs ih =>
    simp only [URam.writes]
    rw [ih (m.write a b) (a + 1) (by simp only [List.length_cons] at h; omega),
      URam.read_write_ne m (by simp only [List.length_cons] at h; omega)]

/-- A write keeps the canonical form. -/
theorem URam.wf_write (m : URam) (a : Nat) (b : Byte) (h : m.wf = true) : (m.write a b).wf = true := by
  simp only [URam.wf, Bool.and_eq_true] at h
  unfold URam.wf URam.write
  dsimp only
  split
  · rw [Tab.rising_erase _ _ h.1, Tab.all_erase _ _ _ h.2]; rfl
  · next hc =>
    rw [Tab.rising_set _ _ _ h.1, Tab.all_set _ _ _ _ h.2 ?_]
    · rfl
    · cases hb : decide (b = 0) with
      | true =>
        rw [hb] at hc; simp only [Bool.true_and, Bool.not_eq_true, Bool.not_eq_false'] at hc
        rw [hc]; simp
      | false =>
        simp only [decide_eq_false_iff_not] at hb
        simp only [Bool.or_eq_true, decide_eq_true_eq]
        exact .inl hb

/-- Writing bytes keeps the canonical form. -/
theorem URam.wf_writes (bs : List Byte) (m : URam) (a : Nat) (h : m.wf = true) : (m.writes a bs).wf = true := by
  induction bs generalizing m a with
  | nil => exact h
  | cons b bs ih => exact ih _ _ (URam.wf_write m a b h)

/-- The loss of a range keeps the canonical form. -/
theorem URam.wf_lose (m : URam) (lo hi seed : Nat) (h : m.wf = true) : (m.lose lo hi seed).wf = true := by
  simp only [URam.wf, Bool.and_eq_true] at h
  unfold URam.wf URam.lose Tab.drop
  dsimp only
  rw [Tab.rising_filter _ _ h.1, Bool.true_and, List.all_eq_true]
  intro e he
  have := List.all_eq_true.1 h.2 e (List.mem_filter.1 he).1
  simp only [Bool.or_eq_true, List.any_cons] at this ⊢
  exact this.elim .inl (fun x => .inr (.inr x))

/-- Writing bytes into a byte table keeps its canonical form. -/
theorem memWrites_wf (bs : List Byte) (t : Tab Byte) (a : Nat) (h : Tab.wf t 0 = true) : Tab.wf (memWrites t a bs) 0 = true := by
  induction bs generalizing t a with
  | nil => exact h
  | cons b bs ih => exact ih _ _ (Tab.wf_put t a b 0 h)

/-- Writing bytes into a byte table leaves every byte outside them alone. -/
theorem get_memWrites_out (bs : List Byte) (t : Tab Byte) (a x : Nat) (h : x < a ∨ a + bs.length ≤ x) :
    Tab.get (memWrites t a bs) x 0 = Tab.get t x 0 := by
  induction bs generalizing t a with
  | nil => rfl
  | cons b bs ih =>
    simp only [memWrites]
    rw [ih _ (a + 1) (by simp only [List.length_cons] at h; omega)]
    exact Tab.get_put_ne t (by simp only [List.length_cons] at h; omega) b 0 0

/-- The memories of the reset state have the form. -/
theorem reset_memories_wf : State.reset.sh.fld.store.wf = true ∧ State.reset.dp.stage.wf = true ∧
    Tab.wf State.reset.dp.lines 0 = true := ⟨rfl, rfl, rfl⟩

end Sys2Proof.Machine
end

