-- ==== Sys2Proof/Laws/Seq.lean ====
section
/-! SUPPORT. What the power sequencer never touches: the register ports, their views, the mailboxes, the semaphores, the
tie token, the expert unlocks, rst_blk_n and the queue. -/

namespace Sys2Proof.Machine

/-- The master-facing state of the shepherd. -/
structure Face where
  portA : RegPort
  portB : RegPort
  viewA : View
  viewB : View
  mboxAB : Mailbox
  mboxBA : Mailbox
  sem : List (Option RPort)
  token : RPort
  expert : Nat
  blkN : Bool
  tick : Nat

/-- The master-facing state of a shepherd. -/
def Shepherd.face (h : Shepherd) : Face :=
  ⟨h.portA, h.portB, h.viewA, h.viewB, h.mboxAB, h.mboxBA, h.sem, h.token, h.expert, h.blkN, h.tick⟩

/-- A shepherd update that leaves the master-facing state alone. -/
abbrev SameH (h k : Shepherd) : Prop := k.face = h.face

/-- Two states agree on the shepherd's master-facing state and on the queue. -/
abbrev SameShp (s t : State) : Prop := (t.sh.face, t.pending) = (s.sh.face, s.pending)

theorem SameH.refl (h : Shepherd) : SameH h h := rfl

theorem SameH.trans {h k l : Shepherd} (a : SameH h k) (b : SameH k l) : SameH h l := Eq.trans b a

theorem SameShp.refl (s : State) : SameShp s s := rfl

theorem SameShp.trans {s t u : State} (h : SameShp s t) (k : SameShp t u) : SameShp s u := Eq.trans k h

theorem SameShp.face {s t : State} (h : SameShp s t) : t.sh.face = s.sh.face := congrArg Prod.fst h

theorem SameShp.pending {s t : State} (h : SameShp s t) : t.pending = s.pending := congrArg Prod.snd h

theorem SameShp.port {s t : State} (h : SameShp s t) (m : RPort) : t.sh.port m = s.sh.port m := by
  have h := h.face
  cases m
  · exact congrArg Face.portA h
  · exact congrArg Face.portB h

theorem SameShp.view {s t : State} (h : SameShp s t) (m : RPort) : t.sh.view m = s.sh.view m := by
  have h := h.face
  cases m
  · exact congrArg Face.viewA h
  · exact congrArg Face.viewB h

theorem SameShp.mboxOut {s t : State} (h : SameShp s t) (m : RPort) : t.sh.mboxOut m = s.sh.mboxOut m := by
  have h := h.face
  cases m
  · exact congrArg Face.mboxAB h
  · exact congrArg Face.mboxBA h

theorem SameShp.sem {s t : State} (h : SameShp s t) : t.sh.sem = s.sh.sem := congrArg Face.sem h.face

theorem SameShp.token {s t : State} (h : SameShp s t) : t.sh.token = s.sh.token := congrArg Face.token h.face

theorem SameShp.expert {s t : State} (h : SameShp s t) : t.sh.expert = s.sh.expert := congrArg Face.expert h.face

theorem SameShp.blkN {s t : State} (h : SameShp s t) : t.sh.blkN = s.sh.blkN := congrArg Face.blkN h.face

theorem SameH.foldl {α : Type} (f : Shepherd → α → Shepherd) (hf : ∀ h x, SameH h (f h x)) (l : List α) (h : Shepherd) :
    SameH h (l.foldl f h) := by
  induction l generalizing h with
  | nil => rfl
  | cons x xs ih => exact SameH.trans (hf h x) (ih _)

/-- An update of the shepherd alone. -/
theorem SameShp.onSh (s : State) (f : Shepherd → Shepherd) (hf : SameH s.sh (f s.sh)) : SameShp s (s.onSh f) :=
  congrArg (fun x => (x, s.pending)) hf

/-- An update of the datapath alone. -/
theorem SameShp.onDp (s : State) (f : Datapath → Datapath) : SameShp s (s.onDp f) := rfl

theorem SameShp.foldl {α : Type} (f : State → α → State) (hf : ∀ h x, SameShp h (f h x)) (l : List α) (h : State) :
    SameShp h (l.foldl f h) := by
  induction l generalizing h with
  | nil => rfl
  | cons x xs ih => exact SameShp.trans (hf h x) (ih _)

/-! ## Updates of the shepherd -/



@[simp] theorem SameH.wr (h : Shepherd) (f : RegField) (v i : Nat) : SameH h (h.wr f v i) := rfl
@[simp] theorem SameH.onSeq (h : Shepherd) (f : Seq → Seq) : SameH h (h.onSeq f) := rfl
@[simp] theorem SameH.onFld (h : Shepherd) (f : Loader → Loader) : SameH h (h.onFld f) := rfl
@[simp] theorem SameH.setDom (h : Shepherd) (d : Nat) (p : DomPins) : SameH h (h.setDom d p) := rfl
@[simp] theorem SameH.modDom (h : Shepherd) (d : Nat) (f : DomPins → DomPins) : SameH h (h.modDom d f) := rfl
@[simp] theorem SameH.setClk (h : Shepherd) (x : Nat) (p : ClkPins) : SameH h (h.setClk x p) := rfl
@[simp] theorem SameH.dropCauses (h : Shepherd) (d : Nat) : SameH h (h.dropCauses d) := rfl
@[simp] theorem SameH.seqIdle (h : Shepherd) (st : PState) : SameH h (h.seqIdle st) := rfl
@[simp] theorem SameH.quiesceBegin (h : Shepherd) : SameH h h.quiesceBegin := rfl
@[simp] theorem SameH.fldBegin (h : Shepherd) (m : RPort) (st : FldState) (a b c : Nat) : SameH h (h.fldBegin m st a b c) :=
  rfl
@[simp] theorem SameH.raiseClk (h : Shepherd) (x : Nat) : SameH h (h.raiseClk x) := by
  unfold Shepherd.raiseClk; split <;> exact rfl
@[simp] theorem SameH.lowerClk (h : Shepherd) (x : Nat) : SameH h (h.lowerClk x) := by
  unfold Shepherd.lowerClk; split <;> exact rfl
@[simp] theorem SameH.shfFollow (h : Shepherd) : SameH h h.shfFollow := by
  unfold Shepherd.shfFollow
  split
  · split
    · exact rfl
    · exact SameH.raiseClk h 2
  · split
    · exact SameH.lowerClk h 2
    · exact rfl
@[simp] theorem SameH.fldSend (h : Shepherd) : SameH h h.fldSend := by
  unfold Shepherd.fldSend; split <;> exact rfl
@[simp] theorem SameH.restoreBegin (h : Shepherd) : SameH h h.restoreBegin := by
  unfold Shepherd.restoreBegin; exact Eq.trans (SameH.fldSend _) rfl
@[simp] theorem SameH.avsNext (h : Shepherd) : SameH h h.avsNext := by
  unfold Shepherd.avsNext; split <;> exact rfl
@[simp] theorem SameH.avsResult (h : Shepherd) (f : AvsFrame) (g : Bool) (d : Nat) : SameH h (h.avsResult f g d) := by
  unfold Shepherd.avsResult; dsimp only; split <;> exact rfl

/-! ## The sequencer's functions -/

theorem State.pwrEvent_same (s : State) (f : RegField) : SameShp s (s.pwrEvent f) := rfl

theorem State.resetDomain_same (s : State) (d : Nat) (a b c : Bool) : SameShp s (s.resetDomain d a b c) := rfl

theorem State.domainDown_same (s : State) (d : Nat) (r : Bool) : SameShp s (s.domainDown d r) := by
  unfold State.domainDown
  dsimp only
  refine Eq.trans (State.resetDomain_same _ _ _ _ _) ?_
  refine Eq.trans (SameShp.onSh _ _ ?_) ?_
  · rfl
  · split <;> split <;> rfl

@[simp] theorem SameH.isolateLost (h : Shepherd) (d : Nat) : SameH h (h.isolateLost d) := by
  unfold Shepherd.isolateLost; dsimp only; split <;> exact rfl

@[simp] theorem SameH.lostDone (h : Shepherd) : SameH h h.lostDone := by
  unfold Shepherd.lostDone
  exact Eq.trans (SameH.onSeq _ _) (SameH.foldl _ SameH.isolateLost _ _)

@[simp] theorem SameH.loseDomain (h : Shepherd) (d : Nat) : SameH h (h.loseDomain d) := by
  have e : ∀ v w : Nat, SameH h ((h.wr F.pwrPdFault_FAULT v).wr F.pwrEvt_DOMAIN_FAULT w) :=
    fun v w => SameH.trans (SameH.wr h F.pwrPdFault_FAULT v 0) (SameH.wr _ F.pwrEvt_DOMAIN_FAULT w 0)
  unfold Shepherd.loseDomain
  generalize hk : (h.wr F.pwrPdFault_FAULT _).wr F.pwrEvt_DOMAIN_FAULT 1 = k
  have hk' : SameH h k := hk ▸ e _ _
  dsimp only
  split
  · exact hk'.trans (SameH.trans (SameH.onSeq _ _) (SameH.onSeq _ _))
  · exact hk'.trans (SameH.trans (SameH.onSeq _ _) (SameH.isolateLost _ _))

theorem State.domainLost_same (s : State) (d : Nat) : SameShp s (s.domainLost d) := by
  unfold State.domainLost
  dsimp only
  have h := (SameShp.onSh s (fun h => h.loseDomain d) (SameH.loseDomain s.sh d)).trans
    (State.resetDomain_same _ d false false false)
  split
  · exact h.trans (SameShp.onDp _ _)
  · exact h

theorem State.memoryDone_same (s : State) (ds : List Nat) (c : Bool) : SameShp s (s.memoryDone ds c) := by
  unfold State.memoryDone
  refine SameShp.trans ?_ (SameShp.onSh _ _ (SameH.foldl _ (fun h x => SameH.modDom h x _) ds _))
  split
  · refine SameShp.trans ?_ (SameShp.onSh _ _ (rfl))
    exact SameShp.foldl _ (fun s d => State.resetDomain_same s d _ _ _) ds s
  · split
    · exact SameShp.onDp _ _
    · exact rfl

theorem State.timeRestart_same (s : State) : SameShp s s.timeRestart := rfl

theorem State.isoFall_same (s : State) (d : Nat) : SameShp s (s.isoFall d) := by
  unfold State.isoFall
  dsimp only
  split <;> exact rfl

theorem State.seqWait_same (s : State) : SameShp s s.seqWait.1 := rfl

theorem State.seqPop_same (s : State) : SameShp s s.seqPop := rfl

theorem State.taken_same (s : State) (st : PState) : SameShp s (s.taken st) := rfl

theorem State.allEvents_same (s : State) : SameShp s s.allEvents := rfl

theorem State.mirror_same (s : State) : SameShp s s.mirror := rfl

theorem State.cruiseBar_same (s : State) : SameShp s s.cruiseBar := by
  unfold State.cruiseBar
  exact Eq.trans (State.pwrEvent_same _ _) (SameShp.onSh s _ rfl)

theorem State.seqTry_same (s : State) (x : SeqStep) : SameShp s (s.seqTry x).1 := by
  cases x with
  | phase n => exact rfl
  | avs r mv => unfold State.seqTry; dsimp only; split <;> exact rfl
  | settle => exact rfl
  | clkSel v =>
    unfold State.seqTry; dsimp only
    split
    · exact rfl
    · split
      · exact State.cruiseBar_same s
      · split <;> exact rfl
  | clkUp xs =>
    have h : SameShp s (s.onSh fun h => xs.foldl (fun h x => if (h.clk x).req then h else h.raiseClk x) h) := by
      refine SameShp.onSh _ _ (SameH.foldl _ (fun h x => ?_) xs _)
      split
      · exact rfl
      · exact SameH.raiseClk _ _
    unfold State.seqTry; dsimp only
    split
    · exact h
    · exact h.trans (State.seqWait_same _)
  | clkDown xs =>
    have h : SameShp s (s.onSh fun h => xs.foldl Shepherd.lowerClk h) :=
      SameShp.onSh _ _ (SameH.foldl _ (fun h x => SameH.lowerClk h x) xs _)
    unfold State.seqTry; dsimp only
    split
    · exact h
    · exact h.trans (State.seqWait_same _)
  | up d =>
    unfold State.seqTry; dsimp only
    split
    · exact rfl
    · split <;> exact rfl
  | down d r =>
    unfold State.seqTry; dsimp only
    split
    · split <;> exact rfl
    · split
      · exact rfl
      · split
        · exact rfl
        · split
          · exact (State.domainDown_same s d r).trans (State.seqWait_same _)
          · exact State.domainDown_same s d r
  | lower d => unfold State.seqTry; dsimp only; split <;> exact rfl
  | memory ds c => exact rfl
  | logic r =>
    unfold State.seqTry; dsimp only
    split
    · exact rfl
    · split <;> exact rfl
  | iso d => unfold State.seqTry; dsimp only; split <;> exact rfl
  | restore =>
    unfold State.seqTry; dsimp only
    split
    · exact rfl
    · split
      · exact (SameShp.onSh _ _ (SameH.restoreBegin _)).trans (State.seqWait_same _)
      · exact rfl
  | retry => exact rfl

theorem State.seqRest_same (s : State) : SameShp s s.seqRest := by
  have h : SameShp s (s.onSh Shepherd.shfFollow) := SameShp.onSh _ _ (SameH.shfFollow _)
  unfold State.seqRest; dsimp only
  split
  · exact h
  · split
    · exact h.trans (SameShp.onSh _ _ (rfl))
    · exact h.trans (SameShp.onSh _ _ (rfl))

theorem State.seqEnd_same (s : State) : SameShp s s.seqEnd := by
  unfold State.seqEnd; dsimp only
  split
  · exact (SameShp.onSh _ _ (rfl)).trans (State.seqRest_same _)
  · split
    · exact (SameShp.onSh (s.taken .run) _ (rfl)).trans (State.seqRest_same _)
    · exact (SameShp.onSh (s.taken .run) _ (rfl)).trans (State.seqRest_same _)
    · exact (SameShp.onSh (s.taken _) _ (rfl)).trans (State.seqRest_same _)
    · refine Eq.trans (State.seqRest_same _) ?_
      refine Eq.trans (State.pwrEvent_same _ _) ?_
      split
      · exact State.taken_same _ _
      · simp [State.taken, Shepherd.face, Shepherd.seqIdle, Shepherd.onSeq]
    · split
      · exact (SameShp.onSh _ _ (rfl)).trans (State.seqRest_same _)
      · refine Eq.trans (State.seqRest_same _) ?_
        refine Eq.trans (State.pwrEvent_same _ _) ?_
        split <;> simp [State.pwrEvent, State.taken, Shepherd.face, Shepherd.seqIdle, Shepherd.onSeq]
    · split
      · exact (State.pwrEvent_same (s.taken _) _).trans (State.seqRest_same _)
      · exact SameShp.onSh _ _ (rfl)
    · exact rfl

theorem State.seqRun_same (n : Nat) (s : State) : SameShp s (State.seqRun n s) := by
  induction n generalizing s with
  | zero => exact rfl
  | succ n ih =>
    unfold State.seqRun
    split
    · exact rfl
    · dsimp only
      split
      · split
        · exact ((State.seqTry_same s _).trans (State.seqPop_same _)).trans (State.seqEnd_same _)
        · exact ((State.seqTry_same s _).trans (State.seqPop_same _)).trans (ih _)
      · exact State.seqTry_same s _

theorem State.seqGo_same (s : State) : SameShp s s.seqGo := State.seqRun_same 64 s

theorem State.seqNext_same (s : State) : SameShp s s.seqNext := by
  unfold State.seqNext
  split
  · exact (State.seqPop_same s).trans (State.seqGo_same _)
  · exact (State.seqPop_same s).trans (State.seqEnd_same _)

theorem State.seqKick_same (s : State) : SameShp s s.seqKick :=
  ((SameShp.onSh s _ (SameH.lostDone _)).trans (State.seqGo_same _)).trans (SameShp.onSh _ _ (SameH.avsNext _))

@[simp] theorem Shepherd.avsNext_link (h : Shepherd) : h.avsNext.link = h.link := by
  unfold Shepherd.avsNext; split <;> rfl

@[simp] theorem Shepherd.lostDone_link (h : Shepherd) : h.lostDone.link = h.link := by
  have e : ∀ (l : List Nat) (k : Shepherd), (l.foldl Shepherd.isolateLost k).link = k.link := by
    intro l
    induction l with
    | nil => intro k; rfl
    | cons d l ih =>
      intro k
      refine (ih _).trans ?_
      unfold Shepherd.isolateLost; dsimp only; split <;> rfl
  exact e _ h

/-- With no step left the sequencer's turn isolates what waited for the link and starts a waiting AVSBus frame. -/
theorem State.seqKick_idle (s : State) (h : s.sh.seq.todo = []) :
    s.seqKick = s.onSh (fun h => h.lostDone.avsNext) := by
  have e : ∀ (l : List Nat) (k : Shepherd), (l.foldl Shepherd.isolateLost k).seq.todo = k.seq.todo := by
    intro l
    induction l with
    | nil => intro k; rfl
    | cons d l ih =>
      intro k
      refine (ih _).trans ?_
      unfold Shepherd.isolateLost; dsimp only; split <;> rfl
  have e2 : (s.onSh Shepherd.lostDone).sh.seq.todo = [] := by
    rw [← h]; exact e _ s.sh
  simp only [State.seqKick, State.seqGo, State.seqRun, e2]
  rfl

theorem State.seqFail_same (s : State) : SameShp s s.seqFail := by
  unfold State.seqFail
  exact (SameShp.onSh (s.pwrEvent _) _ (rfl)).trans (State.seqGo_same _)

theorem State.seqExpire_same (s : State) (f : RegField) : SameShp s (s.seqExpire f) := by
  unfold State.seqExpire
  dsimp only
  have h : SameShp s (if s.sh.seq.cold then s else s.pwrEvent f) := by split <;> exact rfl
  split
  · exact h.trans (State.seqFail_same _)
  · exact h.trans (State.seqNext_same _)

theorem State.seqStart_same (s : State) (k : SeqKind) (l : List SeqStep) : SameShp s (s.seqStart k l) := by
  unfold State.seqStart
  exact (SameShp.onSh _ _ (rfl)).trans (State.seqGo_same _)

theorem State.wakeTake_same (s : State) (t : PState) (c : Bool) : SameShp s (s.wakeTake t c) := by
  unfold State.wakeTake
  dsimp only
  split <;> exact rfl

theorem State.wakeStart_same (s : State) (t : PState) (c : Bool) : SameShp s (s.wakeStart t c) := by
  unfold State.wakeStart
  dsimp only
  split
  · exact (State.wakeTake_same s t c).trans (State.seqStart_same _ _ _)
  · exact ((State.wakeTake_same s t c).trans (SameShp.onSh _ _ rfl)).trans (State.seqStart_same _ _ _)

theorem State.wakeSource_same (s : State) (b : RegField) : SameShp s (s.wakeSource b) := by
  unfold State.wakeSource
  dsimp only
  split
  · exact rfl
  · exact SameShp.trans (SameShp.onSh s _ (rfl)) (State.wakeStart_same _ _ _)

theorem State.avsEnd_same (s : State) (g : Bool) (d : Nat) : SameShp s (s.avsEnd g d) := by
  unfold State.avsEnd
  split
  · exact rfl
  · next f own _ =>
    have h0 : SameShp s (s.onSh (fun h => { h with avsRun := none })) := rfl
    refine Eq.trans ?_ h0
    generalize s.onSh (fun h => { h with avsRun := none }) = u
    cases g <;> cases own <;>
      simp only [Bool.not_true, Bool.not_false, Bool.false_and, Bool.true_and, if_true, if_false, Bool.false_eq_true]
    · exact Eq.trans (State.seqKick_same _)
        (Eq.trans (SameShp.onSh _ _ (SameH.avsResult _ _ _ _)) (State.pwrEvent_same u _))
    · refine Eq.trans (SameShp.onSh _ _ (SameH.avsNext _)) ?_
      split
      · exact Eq.trans (State.seqFail_same _) (State.pwrEvent_same u _)
      · exact Eq.trans (State.seqNext_same _) (State.pwrEvent_same u _)
    · exact Eq.trans (State.seqKick_same _) (SameShp.onSh _ _ (SameH.avsResult _ _ _ _))
    · exact Eq.trans (SameShp.onSh _ _ (SameH.avsNext _)) (State.seqNext_same u)

theorem State.avsExpire_same (s : State) : SameShp s s.avsExpire := by
  unfold State.avsExpire
  split
  · exact rfl
  · next f own _ =>
    dsimp only
    split
    · refine Eq.trans (SameShp.onSh _ _ (SameH.avsNext _)) ?_
      refine Eq.trans (State.seqExpire_same _ _) ?_
      rfl
    · refine Eq.trans (State.seqKick_same _) ?_
      refine Eq.trans (SameShp.onSh _ _ (SameH.avsResult _ _ _ _)) ?_
      rfl

theorem State.latch_same (s : State) (m : RPort) (t : PState) (c : Bool) : SameShp s (s.latch m t c) := by
  unfold State.latch
  dsimp only
  split
  · exact Eq.trans (State.wakeStart_same _ _ _) rfl
  · split
    · split <;> simp [Shepherd.face, Shepherd.onSeq, Shepherd.quiesceBegin]
    · split
      · simp [Shepherd.face, Shepherd.onSeq, Shepherd.quiesceBegin]
      · refine Eq.trans (State.seqRest_same _) ?_
        simp [Shepherd.face, Shepherd.onSeq, Shepherd.seqIdle, State.taken, State.pwrEvent]

theorem State.pwrWait_same (s : State) (m : RPort) (be : BitVec 4) (w : Word) : SameShp s (s.pwrWait m be w) := by
  unfold State.pwrWait
  dsimp only
  split
  · exact State.pwrEvent_same _ _
  · split
    · exact State.pwrEvent_same _ _
    · split
      · exact State.pwrEvent_same _ _
      · split
        · exact State.pwrEvent_same _ _
        · split
          · exact rfl
          · split
            · exact State.pwrEvent_same _ _
            · exact State.latch_same _ _ _ _

theorem State.startMove_same (s : State) (r : List Byte) : SameShp s (s.startMove r) := by
  unfold State.startMove
  dsimp only
  split
  · exact State.pwrEvent_same _ _
  · refine SameShp.trans ?_ (State.seqStart_same _ _ _)
    split <;> exact rfl

theorem State.restored_same (s : State) : SameShp s s.restored := by
  unfold State.restored
  split
  · exact State.seqNext_same s
  · exact rfl

theorem State.fldFail_same (s : State) (e : FldErr) : SameShp s (s.fldFail e) := by
  unfold State.fldFail
  have h : SameH s.sh (s.sh.fldFail e) := by
    unfold Shepherd.fldFail
    dsimp only
    split <;> simp [SameH, Shepherd.face, Shepherd.onFld, Shepherd.fldIdle, Shepherd.fldErr]
  exact congrArg (fun x => (x, s.pending)) h

end Sys2Proof.Machine
end

