-- ==== Sys2Proof/Laws/SeqRegs.lean ====
section
/-! SUPPORT. Which registers the power sequencer writes: PWR_EVT, of which it only sets bits, and FLD_STAT. -/

namespace Sys2Proof.Machine

/-- The register file keeps every word but those of PWR_EVT and FLD_STAT, and every bit of PWR_EVT that is set stays set. -/
structure KeepRegs (h k : Shepherd) : Prop where
  find : ∀ a, a ≠ Reg.pwrEvt.addr 0 0 → a ≠ Reg.fldStat.addr 0 0 → Tab.find k.regs a = Tab.find h.regs a
  evt : ∀ b, b < 32 → (RegFile.word h.regs .pwrEvt 0 0).getLsbD b = true → (RegFile.word k.regs .pwrEvt 0 0).getLsbD b = true

theorem KeepRegs.of_eq {h k : Shepherd} (e : k.regs = h.regs) : KeepRegs h k :=
  ⟨fun _ _ _ => by rw [e], fun _ _ hb => by rw [e]; exact hb⟩

theorem KeepRegs.refl (h : Shepherd) : KeepRegs h h := KeepRegs.of_eq rfl

theorem KeepRegs.trans {h k l : Shepherd} (a : KeepRegs h k) (b : KeepRegs k l) : KeepRegs h l :=
  ⟨fun x hx hy => (b.find x hx hy).trans (a.find x hx hy), fun x hx hb => b.evt x hx (a.evt x hx hb)⟩

theorem KeepRegs.of_eq_right {h k l : Shepherd} (a : KeepRegs h k) (e : l.regs = k.regs) : KeepRegs h l :=
  a.trans (KeepRegs.of_eq e)

theorem KeepRegs.foldl {α : Type} (f : Shepherd → α → Shepherd) (hf : ∀ h x, KeepRegs h (f h x)) (l : List α) (h : Shepherd) :
    KeepRegs h (l.foldl f h) := by
  induction l generalizing h with
  | nil => exact KeepRegs.refl h
  | cons x xs ih => exact (hf h x).trans (ih _)

theorem KeepRegs.pre {h k l : Shepherd} (e : k.regs = h.regs) (b : KeepRegs k l) : KeepRegs h l := (KeepRegs.of_eq e).trans b

/-- A field of a register that the sequencer does not write. -/
theorem KeepRegs.rd {h k : Shepherd} (a : KeepRegs h k) (f : RegField) (i : Nat) (h1 : f.reg.addr i 0 ≠ Reg.pwrEvt.addr 0 0)
    (h2 : f.reg.addr i 0 ≠ Reg.fldStat.addr 0 0) : k.rd f i = h.rd f i := by
  simp only [Shepherd.rd, RegFile.rd, RegFile.word, Tab.get, a.find _ h1 h2]

/-- A one-bit flag of PWR_EVT that is set stays set. -/
theorem KeepRegs.flag {h k : Shepherd} (a : KeepRegs h k) (f : RegField) (hr : f.reg = .pwrEvt) (hb : f.hi = f.lo)
    (hl : f.hi < 32) (hs : h.rd f = 1) : k.rd f = 1 := by
  obtain ⟨r, hi, lo⟩ := f
  simp only at hr hb hl
  subst hr hb
  have hlt : ∀ w : Word, bitsOf w hi hi = if w.getLsbD hi then 1 else 0 := by
    intro w
    have e : hi + 1 - hi = 1 := by omega
    simp only [bitsOf, e, Nat.pow_one]
    rw [BitVec.getLsbD, Nat.testBit, Nat.and_comm, Nat.and_one_is_mod]
    have := Nat.mod_two_eq_zero_or_one (w.toNat >>> hi)
    rcases this with h | h <;> simp [h]
  simp only [Shepherd.rd, RegFile.rd, hlt] at hs ⊢
  have hset : (RegFile.word h.regs .pwrEvt 0 0).getLsbD hi = true := by
    cases hq : (RegFile.word h.regs .pwrEvt 0 0).getLsbD hi with
    | true => rfl
    | false => rw [hq] at hs; simp at hs
  rw [a.evt hi hl hset]; rfl

/-- The sequencer sets a bit of PWR_EVT. -/
theorem KeepRegs.wr_evt (h : Shepherd) (f : RegField) (hr : f.reg = .pwrEvt) (hb : f.hi = f.lo) (hl : f.hi < 32) :
    KeepRegs h (h.wr f 1) := by
  obtain ⟨r, hi, lo⟩ := f
  simp only at hr hb hl
  subst hr hb
  refine ⟨?_, ?_⟩
  · intro a h1 _
    simp only [Shepherd.wr, RegFile.wr, RegFile.setWord]
    exact Tab.find_put_ne _ h1 _ _
  · intro b hb' hs
    simp only [Shepherd.wr, RegFile.wr, RegFile.word_setWord_same, BitVec.getLsbD]
    rw [putBits_testBit _ _ _ _ _ hb']
    split
    · next hc => have : b = hi := by omega
                 subst this; simp
    · exact hs

/-- The sequencer writes a field of FLD_STAT. -/
theorem KeepRegs.wr_stat (h : Shepherd) (f : RegField) (v : Nat) (hr : f.reg = .fldStat) : KeepRegs h (h.wr f v) := by
  obtain ⟨r, hi, lo⟩ := f
  simp only at hr
  subst hr
  refine ⟨?_, ?_⟩
  · intro a _ h2
    simp only [Shepherd.wr, RegFile.wr, RegFile.setWord]
    exact Tab.find_put_ne _ h2 _ _
  · intro b _ hs
    simp only [Shepherd.wr, RegFile.wr]
    rw [RegFile.word_setWord_ne _ _ _ _ _ _ _ _ (by decide)]
    exact hs

/-- The same for states. -/
abbrev KeepR (s t : State) : Prop := KeepRegs s.sh t.sh

theorem KeepR.foldl {α : Type} (f : State → α → State) (hf : ∀ h x, KeepR h (f h x)) (l : List α) (h : State) :
    KeepR h (l.foldl f h) := by
  induction l generalizing h with
  | nil => exact KeepRegs.refl _
  | cons x xs ih => exact KeepRegs.trans (hf h x) (ih _)

theorem Shepherd.raiseClk_regs (h : Shepherd) (x : Nat) : (h.raiseClk x).regs = h.regs := by
  unfold Shepherd.raiseClk; split <;> rfl
theorem Shepherd.lowerClk_regs (h : Shepherd) (x : Nat) : (h.lowerClk x).regs = h.regs := by
  unfold Shepherd.lowerClk; split <;> rfl
theorem Shepherd.shfFollow_regs (h : Shepherd) : h.shfFollow.regs = h.regs := by
  unfold Shepherd.shfFollow
  split
  · split
    · rfl
    · exact Shepherd.raiseClk_regs h 2
  · split
    · exact Shepherd.lowerClk_regs h 2
    · rfl
theorem Shepherd.fldSend_regs (h : Shepherd) : h.fldSend.regs = h.regs := by
  unfold Shepherd.fldSend; split <;> rfl
theorem Shepherd.restoreBegin_regs (h : Shepherd) : h.restoreBegin.regs = h.regs := by
  unfold Shepherd.restoreBegin
  rw [Shepherd.fldSend_regs]
  simp [Shepherd.onFld, Shepherd.fldBegin]
theorem Shepherd.avsNext_regs (h : Shepherd) : h.avsNext.regs = h.regs := by
  unfold Shepherd.avsNext; split <;> rfl
theorem Shepherd.modDoms_regs (ds : List Nat) (f : DomPins → DomPins) (h : Shepherd) :
    (ds.foldl (fun h d => h.modDom d f) h).regs = h.regs := by
  induction ds generalizing h with
  | nil => rfl
  | cons d ds ih => exact (ih _).trans rfl
theorem State.resetDomains_sh (ds : List Nat) (a b c : Bool) (s : State) :
    (ds.foldl (fun s d => s.resetDomain d a b c) s).sh = s.sh := by
  induction ds generalizing s with
  | nil => rfl
  | cons d ds ih => exact (ih _).trans rfl

theorem State.domainDown_regs (s : State) (d : Nat) (r : Bool) : (s.domainDown d r).sh.regs = s.sh.regs := by
  unfold State.domainDown; dsimp only
  split <;> split <;> rfl

theorem State.memoryDone_regs (s : State) (ds : List Nat) (c : Bool) : (s.memoryDone ds c).sh.regs = s.sh.regs := by
  unfold State.memoryDone
  rw [State.onSh_sh, Shepherd.modDoms_regs]
  split
  · rw [State.onSh_sh]; dsimp only; rw [State.resetDomains_sh]
  · split <;> rfl

theorem State.isoFall_regs (s : State) (d : Nat) : (s.isoFall d).sh.regs = s.sh.regs := by
  unfold State.isoFall; dsimp only; split <;> rfl

theorem State.seqWait_regs (s : State) : s.seqWait.1.sh.regs = s.sh.regs := rfl

theorem State.seqTry_regs_of (s : State) (x : SeqStep) (hx : ∀ v, x ≠ .clkSel v) : (s.seqTry x).1.sh.regs = s.sh.regs := by
  cases x with
  | phase n => rfl
  | avs r mv => unfold State.seqTry; dsimp only; split <;> rfl
  | settle => rfl
  | clkSel v => exact absurd rfl (hx v)
  | clkUp xs =>
    clear hx
    have h : ∀ h : Shepherd, (xs.foldl (fun h x => if (h.clk x).req then h else h.raiseClk x) h).regs = h.regs := by
      induction xs with
      | nil => intro h; rfl
      | cons x xs ih =>
        intro h
        rw [List.foldl_cons, ih]
        split
        · rfl
        · exact Shepherd.raiseClk_regs _ _
    unfold State.seqTry; dsimp only
    split
    · exact h _
    · exact h _
  | clkDown xs =>
    clear hx
    have h : ∀ h : Shepherd, (xs.foldl Shepherd.lowerClk h).regs = h.regs := by
      induction xs with
      | nil => intro h; rfl
      | cons x xs ih => intro h; rw [List.foldl_cons, ih]; exact Shepherd.lowerClk_regs _ _
    unfold State.seqTry; dsimp only
    split
    · exact h _
    · exact h _
  | up d =>
    unfold State.seqTry; dsimp only
    split
    · rfl
    · split <;> rfl
  | down d r =>
    unfold State.seqTry; dsimp only
    split
    · split <;> rfl
    · split
      · rfl
      · split
        · rfl
        · split
          · exact State.domainDown_regs s d r
          · exact State.domainDown_regs s d r
  | lower d => unfold State.seqTry; dsimp only; split <;> rfl
  | memory ds c => rfl
  | logic r =>
    unfold State.seqTry; dsimp only
    split
    · rfl
    · split <;> rfl
  | iso d => unfold State.seqTry; dsimp only; split <;> rfl
  | restore =>
    unfold State.seqTry; dsimp only
    split
    · rfl
    · split
      · rw [State.seqWait_regs, State.onSh_sh, Shepherd.restoreBegin_regs]
      · rfl
  | retry => rfl

/-- A step changes no register of the shepherd but CRUISE_REFUSED, which it sets where it turns the cruise point away. -/
theorem State.seqTry_regs (s : State) (x : SeqStep) : (s.seqTry x).1.sh.regs = s.sh.regs ∨
    (s.seqTry x).1.sh.regs = (s.sh.wr F.pwrEvt_CRUISE_REFUSED 1).regs := by
  cases x with
  | clkSel v =>
    unfold State.seqTry; dsimp only
    split
    · exact .inl rfl
    · split
      · exact .inr rfl
      · split <;> exact .inl rfl
  | _ => exact .inl (State.seqTry_regs_of s _ (by simp))

theorem State.seqRest_regs (s : State) : s.seqRest.sh.regs = s.sh.regs := by
  have h : (s.onSh Shepherd.shfFollow).sh.regs = s.sh.regs := Shepherd.shfFollow_regs _
  unfold State.seqRest; dsimp only
  split
  · exact h
  · split
    · simpa [Shepherd.quiesceBegin, Shepherd.onSeq] using Shepherd.shfFollow_regs s.sh
    · simpa [Shepherd.onSeq] using Shepherd.shfFollow_regs s.sh

theorem State.pwrEvent_keep (s : State) (f : RegField) (hr : f.reg = .pwrEvt) (hb : f.hi = f.lo) (hl : f.hi < 32) :
    KeepR s (s.pwrEvent f) := KeepRegs.wr_evt _ f hr hb hl

theorem State.taken_regs (s : State) (st : PState) : (s.taken st).sh.regs = s.sh.regs := rfl

theorem State.seqEnd_keep (s : State) : KeepR s s.seqEnd := by
  have hev : ∀ (h : Shepherd) (f : RegField), f.reg = .pwrEvt → f.hi = f.lo → f.hi < 32 → KeepRegs h (h.wr f 1) :=
    fun h f a b c => KeepRegs.wr_evt h f a b c
  unfold State.seqEnd; dsimp only
  split
  · refine KeepRegs.of_eq ((State.seqRest_regs _).trans ?_)
    simp [Shepherd.onSeq, Shepherd.seqIdle]
  · split
    · refine KeepRegs.of_eq_right ?_ (State.seqRest_regs _)
      rw [State.onSh_sh]
      refine KeepRegs.pre ?_ (hev _ F.pwrEvt_COLD_DONE rfl rfl (by decide))
      simp [Shepherd.onSeq, State.taken_regs]
    · refine KeepRegs.of_eq_right ?_ (State.seqRest_regs _)
      rw [State.onSh_sh]
      refine KeepRegs.trans ?_ (hev _ F.pwrEvt_WAKE_DONE rfl rfl (by decide))
      refine KeepRegs.pre ?_ (hev _ F.pwrEvt_COLD_DONE rfl rfl (by decide))
      simp [Shepherd.onSeq, State.taken_regs]
    · refine KeepRegs.of_eq_right ?_ (State.seqRest_regs _)
      rw [State.onSh_sh]
      refine KeepRegs.pre ?_ (hev _ F.pwrEvt_WAKE_DONE rfl rfl (by decide))
      simp [Shepherd.onSeq, State.taken_regs]
    · refine KeepRegs.of_eq_right ?_ (State.seqRest_regs _)
      rw [State.pwrEvent, State.onSh_sh]
      refine KeepRegs.trans ?_ (hev _ F.pwrEvt_ENTERED rfl rfl (by decide))
      split
      · exact KeepRegs.of_eq (State.taken_regs _ _)
      · rw [State.onSh_sh]
        refine KeepRegs.of_eq_right (k := ((((s.taken s.sh.seq.latched).sh.wr F.fldStat_STORED_OK 0).wr F.fldStat_IN_FORCE 0).wr F.fldStat_CRUISE_OK 0)) ?_ ?_
        · refine KeepRegs.trans ?_ (KeepRegs.wr_stat _ F.fldStat_CRUISE_OK 0 rfl)
          refine KeepRegs.trans ?_ (KeepRegs.wr_stat _ F.fldStat_IN_FORCE 0 rfl)
          exact KeepRegs.pre (State.taken_regs _ _) (KeepRegs.wr_stat _ F.fldStat_STORED_OK 0 rfl)
        · rfl
    · split
      · exact KeepRegs.of_eq (State.seqRest_regs _)
      refine KeepRegs.of_eq_right ?_ (State.seqRest_regs _)
      rw [State.pwrEvent, State.onSh_sh]
      refine KeepRegs.trans ?_ (hev _ F.pwrEvt_ENTERED rfl rfl (by decide))
      split
      · rw [State.pwrEvent, State.onSh_sh]
        refine KeepRegs.pre ?_ (hev _ F.pwrEvt_CRUISE_EXIT rfl rfl (by decide))
        simp [Shepherd.onSeq, State.taken_regs]
      · refine KeepRegs.of_eq ?_
        simp [Shepherd.onSeq, State.taken_regs]
    · split
      · refine KeepRegs.of_eq_right ?_ (State.seqRest_regs _)
        rw [State.pwrEvent, State.onSh_sh]
        exact KeepRegs.pre (State.taken_regs _ _) (hev _ F.pwrEvt_ENTERED rfl rfl (by decide))
      · refine KeepRegs.of_eq ?_
        simp [Shepherd.onSeq, Shepherd.quiesceBegin]
    · exact KeepRegs.refl _

theorem State.seqPop_regs (s : State) : s.seqPop.sh.regs = s.sh.regs := rfl

theorem State.seqTry_keep (s : State) (x : SeqStep) : KeepR s (s.seqTry x).1 := by
  rcases State.seqTry_regs s x with e | e
  · exact KeepRegs.of_eq e
  · exact (KeepRegs.wr_evt s.sh F.pwrEvt_CRUISE_REFUSED rfl rfl (by decide)).trans (KeepRegs.of_eq e)

theorem State.seqRun_keep (n : Nat) (s : State) : KeepR s (State.seqRun n s) := by
  induction n generalizing s with
  | zero => exact KeepRegs.refl _
  | succ n ih =>
    unfold State.seqRun
    split
    · exact KeepRegs.refl _
    · dsimp only
      split
      · split
        · exact (State.seqTry_keep s _).trans (KeepRegs.pre (State.seqPop_regs _) (State.seqEnd_keep _))
        · exact (State.seqTry_keep s _).trans (KeepRegs.pre (State.seqPop_regs _) (ih _))
      · exact State.seqTry_keep s _

theorem State.seqGo_keep (s : State) : KeepR s s.seqGo := State.seqRun_keep 64 s

theorem State.seqNext_keep (s : State) : KeepR s s.seqNext := by
  unfold State.seqNext
  split
  · exact KeepRegs.pre (State.seqPop_regs _) (State.seqGo_keep _)
  · exact KeepRegs.pre (State.seqPop_regs _) (State.seqEnd_keep _)

theorem Shepherd.isolateLost_regs (h : Shepherd) (d : Nat) : (h.isolateLost d).regs = h.regs := by
  unfold Shepherd.isolateLost; dsimp only; split <;> rfl

theorem Shepherd.lostDone_regs (h : Shepherd) : h.lostDone.regs = h.regs := by
  have e : ∀ (l : List Nat) (h : Shepherd), (l.foldl Shepherd.isolateLost h).regs = h.regs := by
    intro l
    induction l with
    | nil => intro h; rfl
    | cons d l ih => intro h; exact (ih _).trans (Shepherd.isolateLost_regs h d)
  exact e _ h

theorem State.seqKick_keep (s : State) : KeepR s s.seqKick :=
  KeepRegs.of_eq_right (KeepRegs.pre (Shepherd.lostDone_regs s.sh) (State.seqGo_keep (s.onSh Shepherd.lostDone)))
    (Shepherd.avsNext_regs _)

theorem State.seqStart_keep (s : State) (k : SeqKind) (l : List SeqStep) : KeepR s (s.seqStart k l) := by
  unfold State.seqStart
  refine KeepRegs.pre ?_ (State.seqGo_keep _)
  simp [Shepherd.onSeq]

end Sys2Proof.Machine
end

