-- ==== Sys2Proof/Laws/SeqClk.lean ====
section
/-! SUPPORT. What the power sequencer does to the clock pairs and the domain signals: it changes no acknowledge and no
ready, raises a clock request only while its acknowledge is 0, changes clk_sel_core only while that of clk_core is 0, and
lowers no isolation. -/

namespace Sys2Proof.Machine

/-- The rules of the clock pairs and the inputs of the domains. -/
structure ClkKeep (h k : Shepherd) : Prop where
  ack : ∀ x, (k.clk x).ack = (h.clk x).ack
  req : ∀ x, (h.clk x).req = false → (k.clk x).req = true → (h.clk x).ack = false
  sel : k.selCore ≠ h.selCore → (h.clk 0).ack = false
  ready : ∀ d, (k.dom d).ready = (h.dom d).ready
  iso : ∀ d, (h.dom d).iso = true → (k.dom d).iso = true

theorem ClkKeep.of_eq {h k : Shepherd} (e1 : k.clks = h.clks) (e2 : k.selCore = h.selCore) (e3 : k.doms = h.doms) :
    ClkKeep h k := by
  refine ⟨?_, ?_, ?_, ?_, ?_⟩
  · intro x; simp only [Shepherd.clk, e1]
  · intro x a b; simp only [Shepherd.clk, e1] at b a; rw [a] at b; exact absurd b (by simp)
  · intro n; exact absurd e2 n
  · intro d; simp only [Shepherd.dom, e3]
  · intro d a; simp only [Shepherd.dom, e3] at a ⊢; exact a

theorem ClkKeep.refl (h : Shepherd) : ClkKeep h h := ClkKeep.of_eq rfl rfl rfl

theorem ClkKeep.trans {h k l : Shepherd} (a : ClkKeep h k) (b : ClkKeep k l) : ClkKeep h l := by
  refine ⟨fun x => (b.ack x).trans (a.ack x), ?_, ?_, fun d => (b.ready d).trans (a.ready d),
    fun d hd => b.iso d (a.iso d hd)⟩
  · intro x h1 h2
    cases hk : (k.clk x).req with
    | false => rw [← a.ack x]; exact b.req x hk h2
    | true => exact a.req x h1 hk
  · intro n
    by_cases hk : k.selCore = h.selCore
    · rw [← a.ack 0]; exact b.sel (by rw [hk]; exact n)
    · exact a.sel hk

theorem ClkKeep.foldl {α : Type} (f : Shepherd → α → Shepherd) (hf : ∀ h x, ClkKeep h (f h x)) (l : List α) (h : Shepherd) :
    ClkKeep h (l.foldl f h) := by
  induction l generalizing h with
  | nil => exact ClkKeep.refl h
  | cons x xs ih => exact (hf h x).trans (ih _)

/-- The signals of a domain after an update of one. -/
theorem Shepherd.dom_modDom (h : Shepherd) (d e : Nat) (f : DomPins → DomPins) :
    (h.modDom d f).dom e = if e = d ∧ d < h.doms.length then f (h.dom d) else h.dom e := by
  simp only [Shepherd.modDom, Shepherd.setDom, Shepherd.dom, getD_modAt]

/-- A clock pair after one was set. -/
theorem Shepherd.clk_setClk (h : Shepherd) (x y : Nat) (p : ClkPins) :
    (h.setClk x p).clk y = if y = x ∧ x < h.clks.length then p else h.clk y := by
  simp only [Shepherd.setClk, Shepherd.clk, getD_modAt]

theorem ClkKeep.raiseClk (h : Shepherd) (x : Nat) : ClkKeep h (h.raiseClk x) := by
  unfold Shepherd.raiseClk
  split
  · exact ClkKeep.refl h
  · next ha =>
    refine ⟨?_, ?_, ?_, fun _ => rfl, fun _ hd => hd⟩
    · intro y; rw [Shepherd.clk_setClk]; split
      · next e => rw [e.1]
      · rfl
    · intro y h1 h2
      rw [Shepherd.clk_setClk] at h2
      split at h2
      · next e => rw [e.1]; simpa using ha
      · rw [h1] at h2; exact absurd h2 (by simp)
    · intro n; exact absurd rfl n

theorem ClkKeep.lowerClk (h : Shepherd) (x : Nat) : ClkKeep h (h.lowerClk x) := by
  unfold Shepherd.lowerClk
  split
  · exact ClkKeep.refl h
  · refine ⟨?_, ?_, ?_, fun _ => rfl, fun _ hd => hd⟩
    · intro y; rw [Shepherd.clk_setClk]; split
      · next e => rw [e.1]
      · rfl
    · intro y h1 h2
      rw [Shepherd.clk_setClk] at h2
      split at h2
      · exact absurd h2 (by simp)
      · rw [h1] at h2; exact absurd h2 (by simp)
    · intro n; exact absurd rfl n

theorem ClkKeep.shfFollow (h : Shepherd) : ClkKeep h h.shfFollow := by
  unfold Shepherd.shfFollow
  split
  · split
    · exact ClkKeep.refl h
    · exact ClkKeep.raiseClk h 2
  · split
    · exact ClkKeep.lowerClk h 2
    · exact ClkKeep.refl h

/-- An update of a domain that keeps its ready and lowers no isolation. -/
theorem ClkKeep.modDom (h : Shepherd) (d : Nat) (f : DomPins → DomPins) (h1 : ∀ p, (f p).ready = p.ready)
    (h2 : ∀ p, p.iso = true → (f p).iso = true) : ClkKeep h (h.modDom d f) := by
  refine ⟨fun _ => rfl, ?_, fun n => absurd rfl n, ?_, ?_⟩
  · intro x a b; exact absurd (a.symm.trans b) (by simp)
  · intro e; rw [Shepherd.dom_modDom]; split
    · next he => rw [he.1, h1]
    · rfl
  · intro e he; rw [Shepherd.dom_modDom]; split
    · next hc => rw [hc.1] at he; exact h2 _ he
    · exact he

/-- The same for states. -/
abbrev ClkK (s t : State) : Prop := ClkKeep s.sh t.sh

theorem Shepherd.fldSend_pins (h : Shepherd) : h.fldSend.clks = h.clks ∧ h.fldSend.selCore = h.selCore ∧ h.fldSend.doms = h.doms := by
  unfold Shepherd.fldSend; split <;> exact ⟨rfl, rfl, rfl⟩

theorem ClkKeep.restoreBegin (h : Shepherd) : ClkKeep h h.restoreBegin := by
  unfold Shepherd.restoreBegin
  have e := Shepherd.fldSend_pins ((h.fldBegin .a .restore 0 0 0).onFld (fun l => { l with len := streamWords l.stream }))
  exact ClkKeep.of_eq (e.1.trans rfl) (e.2.1.trans rfl) (e.2.2.trans rfl)

theorem ClkKeep.avsNext (h : Shepherd) : ClkKeep h h.avsNext := by
  unfold Shepherd.avsNext; split
  · exact ClkKeep.of_eq rfl rfl rfl
  · exact ClkKeep.refl h

theorem State.domainDown_clk (s : State) (d : Nat) (r : Bool) : ClkK s (s.domainDown d r) := by
  have e : (s.domainDown d r).sh.clks = s.sh.clks ∧ (s.domainDown d r).sh.selCore = s.sh.selCore ∧
      (s.domainDown d r).sh.doms = (s.sh.modDom d (fun p => { p with iso := true, ret := r, pwrReq := false })).doms := by
    unfold State.domainDown; dsimp only; split <;> split <;> exact ⟨rfl, rfl, rfl⟩
  exact ClkKeep.trans (ClkKeep.modDom s.sh d (fun p => { p with iso := true, ret := r, pwrReq := false }) (fun _ => rfl) (fun _ _ => rfl))
    (ClkKeep.of_eq e.1 e.2.1 e.2.2)

theorem State.seqWait_clk (s : State) : ClkK s s.seqWait.1 := ClkKeep.of_eq rfl rfl rfl

/-- A step that waits. -/
theorem State.seqWait_after (s : State) (h : Shepherd) (e : ClkKeep h s.sh) : ClkKeep h s.seqWait.1.sh :=
  e.trans (State.seqWait_clk s)

theorem State.seqTry_clk (s : State) (x : SeqStep) : ClkK s (s.seqTry x).1 := by
  cases x with
  | phase n => exact ClkKeep.of_eq rfl rfl rfl
  | avs r mv => unfold State.seqTry; dsimp only; split <;> exact ClkKeep.of_eq rfl rfl rfl
  | settle => exact State.seqWait_clk s
  | clkSel v =>
    unfold State.seqTry; dsimp only
    split
    · exact ClkKeep.refl _
    · split
      · exact ClkKeep.of_eq rfl rfl rfl
      split
      · exact State.seqWait_clk s
      · next hc =>
        simp only [Bool.or_eq_true, not_or, Bool.not_eq_true] at hc
        refine ⟨fun _ => rfl, ?_, fun _ => hc.2, fun _ => rfl, fun _ hd => hd⟩
        intro y a b; exact absurd (a.symm.trans b) (by simp)
  | clkUp xs =>
    have h : ClkKeep s.sh (xs.foldl (fun h x => if (h.clk x).req then h else h.raiseClk x) s.sh) := by
      refine ClkKeep.foldl _ (fun h x => ?_) xs _
      split
      · exact ClkKeep.refl h
      · exact ClkKeep.raiseClk h x
    unfold State.seqTry; dsimp only
    split
    · exact h
    · exact State.seqWait_after _ _ h
  | clkDown xs =>
    have h : ClkKeep s.sh (xs.foldl Shepherd.lowerClk s.sh) := ClkKeep.foldl _ (fun h x => ClkKeep.lowerClk h x) xs _
    unfold State.seqTry; dsimp only
    split
    · exact h
    · exact State.seqWait_after _ _ h
  | up d =>
    have h : ClkKeep s.sh (s.sh.modDom d (fun p => { p with pwrReq := true })) :=
      ClkKeep.modDom _ _ _ (fun _ => rfl) (fun _ h => h)
    unfold State.seqTry; dsimp only
    split
    · exact ClkKeep.refl _
    · split
      · exact h
      · exact State.seqWait_after _ _ h
  | down d r =>
    unfold State.seqTry; dsimp only
    split
    · split
      · exact ClkKeep.of_eq rfl rfl rfl
      · exact ClkKeep.refl _
    · split
      · exact ClkKeep.refl _
      · split
        · exact ClkKeep.refl _
        · split
          · exact State.seqWait_after _ _ (State.domainDown_clk s d r)
          · exact State.domainDown_clk s d r
  | lower d =>
    have h : ClkKeep s.sh (s.sh.modDom d (fun p => { p with pwrReq := false })) :=
      ClkKeep.modDom _ _ _ (fun _ => rfl) (fun _ h => h)
    unfold State.seqTry; dsimp only
    split
    · exact State.seqWait_after _ _ h
    · exact h
  | memory ds c => exact State.seqWait_clk s
  | logic r =>
    unfold State.seqTry; dsimp only
    split
    · exact ClkKeep.of_eq rfl rfl rfl
    · split <;> exact ClkKeep.of_eq rfl rfl rfl
  | iso d =>
    unfold State.seqTry; dsimp only
    split
    · exact State.seqWait_clk s
    · exact ClkKeep.refl _
  | restore =>
    unfold State.seqTry; dsimp only
    split
    · exact ClkKeep.refl _
    · split
      · refine State.seqWait_after _ _ ?_
        rw [State.onSh_sh]
        exact ClkKeep.restoreBegin s.sh
      · exact ClkKeep.refl _
  | retry => exact State.seqWait_clk s

theorem State.seqRest_clk (s : State) : ClkK s s.seqRest := by
  have h : ClkK s (s.onSh Shepherd.shfFollow) := ClkKeep.shfFollow _
  unfold State.seqRest; dsimp only
  split
  · exact h
  · split <;> exact h.trans (ClkKeep.of_eq rfl rfl rfl)

theorem State.pwrEvent_clk (s : State) (f : RegField) : ClkK s (s.pwrEvent f) := ClkKeep.of_eq rfl rfl rfl

theorem State.seqEnd_clk (s : State) : ClkK s s.seqEnd := by
  have rest : ∀ t : State, t.sh.clks = s.sh.clks → t.sh.selCore = s.sh.selCore → t.sh.doms = s.sh.doms → ClkK s t.seqRest :=
    fun t a b c => ClkKeep.trans (ClkKeep.of_eq a b c) (State.seqRest_clk t)
  unfold State.seqEnd; dsimp only
  split
  · apply rest <;> simp [Shepherd.onSeq, Shepherd.seqIdle]
  · split
    · apply rest <;> simp [State.taken, Shepherd.onSeq, Shepherd.seqIdle]
    · apply rest <;> simp [State.taken, Shepherd.onSeq, Shepherd.seqIdle]
    · apply rest <;> simp [State.taken, Shepherd.onSeq, Shepherd.seqIdle]
    · split <;> apply rest <;> simp [State.taken, State.pwrEvent, Shepherd.seqIdle, Shepherd.onSeq]
    · split
      · apply rest <;> simp [Shepherd.onSeq, Shepherd.seqIdle]
      · split <;> apply rest <;> simp [State.taken, State.pwrEvent, Shepherd.onSeq, Shepherd.seqIdle]
    · split
      · apply rest <;> simp [State.taken, State.pwrEvent, Shepherd.onSeq, Shepherd.seqIdle]
      · exact ClkKeep.of_eq rfl rfl rfl
    · exact ClkKeep.refl _

theorem State.seqPop_clk (s : State) : ClkK s s.seqPop := ClkKeep.of_eq rfl rfl rfl

theorem State.seqRun_clk (n : Nat) (s : State) : ClkK s (State.seqRun n s) := by
  induction n generalizing s with
  | zero => exact ClkKeep.refl _
  | succ n ih =>
    unfold State.seqRun
    split
    · exact ClkKeep.refl _
    · dsimp only
      split
      · split
        · exact ((State.seqTry_clk s _).trans (State.seqPop_clk _)).trans (State.seqEnd_clk _)
        · exact ((State.seqTry_clk s _).trans (State.seqPop_clk _)).trans (ih _)
      · exact State.seqTry_clk s _

theorem State.seqGo_clk (s : State) : ClkK s s.seqGo := State.seqRun_clk 64 s

theorem State.seqNext_clk (s : State) : ClkK s s.seqNext := by
  unfold State.seqNext
  split
  · exact (State.seqPop_clk s).trans (State.seqGo_clk _)
  · exact (State.seqPop_clk s).trans (State.seqEnd_clk _)

theorem ClkKeep.isolateLost (h : Shepherd) (d : Nat) : ClkKeep h (h.isolateLost d) := by
  have e : ClkKeep h ((h.modDom d (fun p => { p with iso := true, ret := false, pwrReq := false })).dropCauses d) :=
    (ClkKeep.modDom h d (fun p => { p with iso := true, ret := false, pwrReq := false }) (fun _ => rfl) (fun _ _ => rfl)).trans (ClkKeep.of_eq rfl rfl rfl)
  unfold Shepherd.isolateLost; dsimp only
  split
  · exact e.trans (ClkKeep.of_eq rfl rfl rfl)
  · exact e

theorem ClkKeep.lostDone (h : Shepherd) : ClkKeep h h.lostDone := by
  unfold Shepherd.lostDone
  exact (ClkKeep.foldl _ ClkKeep.isolateLost _ h).trans (ClkKeep.of_eq rfl rfl rfl)

theorem State.seqKick_clk (s : State) : ClkK s s.seqKick :=
  (ClkKeep.trans (ClkKeep.lostDone s.sh) (State.seqGo_clk (s.onSh Shepherd.lostDone))).trans (ClkKeep.avsNext _)

theorem State.seqFail_clk (s : State) : ClkK s s.seqFail := by
  unfold State.seqFail
  exact ClkKeep.trans (k := ((s.pwrEvent _).onSh _).sh) (ClkKeep.of_eq rfl rfl rfl) (State.seqGo_clk _)

theorem State.seqExpire_clk (s : State) (f : RegField) : ClkK s (s.seqExpire f) := by
  unfold State.seqExpire; dsimp only
  split
  · refine ClkKeep.trans ?_ (State.seqFail_clk _)
    split
    · exact ClkKeep.refl _
    · exact State.pwrEvent_clk s f
  · refine ClkKeep.trans ?_ (State.seqNext_clk _)
    split
    · exact ClkKeep.refl _
    · exact State.pwrEvent_clk s f

theorem State.seqStart_clk (s : State) (k : SeqKind) (l : List SeqStep) : ClkK s (s.seqStart k l) := by
  unfold State.seqStart
  refine ClkKeep.trans ?_ (State.seqGo_clk _)
  exact ClkKeep.of_eq rfl rfl rfl

end Sys2Proof.Machine
end

