-- ==== Sys2Proof/WellFormed.lean ====
section
/-! DEFINITION. Which commands are well formed: every number lies in the range that the spec gives what it names. -/

namespace Sys2Proof

/-- Whether the operands of a command lie in their ranges. -/
def Instr.wf (i : Instr) : Bool :=
  match i with
  | .registerWrite _ addr _ _ _ => addr < 134217728 && addr % 4 = 0
  | .registerAccessTransfer _ _ addr _ _ => addr < 134217728
  | .linkRequestSend _ => true
  | .linkResponse _ _ => true
  | .linkTimeout _ => true
  | .drainPeriodEnd _ => true
  | .requestAbandon _ => true
  | .eventWord u => u < 51
  | .rgpResetAssert _ => true
  | .rgpResetRelease _ _ => true
  | .powerOnResetRelease => true
  | .blockResetAssert => true
  | .blockResetRelease => true
  | .avsFrameEnd _ data => data < 65536
  | .avsAckTimeout => true
  | .settleExpire => true
  | .clockAckChange x => x < 4
  | .clockHandshakeTimeout x => x < 4
  | .domainReadyChange d => 0 < d && d < 20
  | .domainReadyTimeout d => 0 < d && d < 20
  | .memoryInitDone => true
  | .logicReleaseDelayExpire => true
  | .isoLowerStep => true
  | .coldStartFail => true
  | .coldStartRetry => true
  | .semaphoreRead _ n => n < 32
  | .semaphoreRelease _ n _ _ _ => n < 32
  | .expertArm _ _ _ => true
  | .expertWrite _ _ _ _ => true
  | .mailboxDataWrite _ n _ _ => n < 8
  | .mailboxPost _ => true
  | .mailboxTake _ _ _ => true
  | .doorbellRing _ _ _ => true
  | .pull _ => true
  | .pullEnd => true
  | .peek _ => true
  | .peekEnd => true
  | .check _ => true
  | .checkEnd => true
  | .apply _ => true
  | .applyEnd => true
  | .refold _ pen => pen < 40
  | .refoldHoldEmpty => true
  | .refoldApplyEnd => true
  | .spliceEnd => true
  | .abort _ => true
  | .restoreEnd _ => true
  | .signalDetectChange slot _ => slot < 512
  | .linkAdminDown _ p _ _ => p < 512
  | .linkAdminUp _ p _ _ => p < 512
  | .linkLoopChange _ p mode _ _ => p < 512 && mode < 4
  | .laneLoss p => p < 512
  | .signalPresent p => p < 512
  | .lanesLocked p => p < 512
  | .lockLoss p lost _ => p < 512 && lost < 256
  | .deskewSuccess p => p < 512
  | .deskewFail p => p < 512
  | .upHoldExpire p => p < 512
  | .remoteFaultReceived p => p < 512
  | .remoteFaultCleared p => p < 512
  | .lpiEnter p => p < 512
  | .lpiWake p => p < 512
  | .lpiWakeDone p => p < 512
  | .rxLpiEnter p => p < 512
  | .rxLpiExit p => p < 512
  | .rxLpiTimeout p => p < 512
  | .rxFrameStart p smd frag => p < 512 && smd < 256 && frag < 256
  | .rxAddressFilter p bs => p < 512 && bs.length ≤ 16384
  | .rxFrameReady p bs => p < 512 && bs.length ≤ 16384
  | .rxFrameTruncate p bs => p < 512 && bs.length ≤ 16384
  | .rxFrameEnd p bs => p < 512 && bs.length ≤ 16384
  | .rxFrameCut p bs => p < 512 && bs.length ≤ 16384
  | .pauseTimerExpire p c => p < 512 && c < 8
  | .pauseWatchdogExpire p c => p < 512 && c < 8
  | .stormRestoreExpire p c => p < 512 && c < 8
  | .watchdogEnableWrite _ p _ _ => p < 512
  | .rxFragmentEnd p bs => p < 512 && bs.length ≤ 16384
  | .verifyFrameReceived p bs => p < 512 && bs.length ≤ 16384
  | .respondFrameReceived p bs => p < 512 && bs.length ≤ 16384
  | .parseStart pen slot => pen < 40 && slot < 2
  | .grazeBlockScan pen => pen < 40
  | .grazeDeadline pen _ => pen < 40
  | .lookupIssue => true
  | .lookupResult pen _ pos => pen < 40 && pos < 4
  | .verdictMerge pen len => pen < 40 && len < 16384
  | .meterRefresh => true
  | .lookupLineRead _ index => index < 131072
  | .lineWrite _ index => index < 131072
  | .meterRead _ index => index < 131072
  | .meterWrite _ index => index < 131072
  | .fcRead _ index => index < 131072
  | .fcReadClear _ index => index < 131072
  | .fcWrite _ index => index < 131072
  | .samplerConfig _ k _ _ => k < 128
  | .insert _ table copy => table < 16 && copy < 2
  | .delete _ table copy => table < 16 && copy < 2
  | .find _ table copy => table < 16 && copy < 2
  | .writeAt _ table copy => table < 16 && copy < 2
  | .readAt _ table copy => table < 16 && copy < 2
  | .hash _ table copy => table < 16 && copy < 2
  | .larCommandAccept => true
  | .larCommandTimeout _ => true
  | .larCommandEnd => true
  | .atticPush _ _ _ => true
  | .atticPushTimeout _ => true
  | .atticWrite => true
  | .liveWrite _ _ _ => true
  | .flip => true
  | .copySettle t x => t < 16 && x < 2
  | .cseedWrite _ n _ _ => n < 64
  | .epochRequest _ => true
  | .epochAdvance => true
  | .beatWrite _ _ => true
  | .loftSinkStart inPen outPen => inPen < 40 && outPen < 40
  | .sinkMove _ => true
  | .sinkEnd inPen outPen => inPen < 40 && outPen < 40
  | .sectorRead copies => copies.length ≤ 40
  | .badCopyDiscard _ q => q < 32768
  | .flushCommand _ port tcs => port < 1024 && tcs < 256
  | .flushRemove => true
  | .redSeedWrite _ _ _ => true
  | .queueConfigWrite _ n _ _ => n < 4160
  | .copyGrant pen => pen < 40
  | .launchJudge p c => p < 520 && c < 8
  | .launchDue p c => p < 520 && c < 8
  | .gateCommit _ n start len => n < 512 && start < 256 && len < 512
  | .gateDiscard _ n => n < 512
  | .gateEntryWrite _ _ m _ _ => m < 131072
  | .gateSwitch p => p < 520
  | .gateCycleStart p => p < 520
  | .copyStart p _ => p < 512
  | .txUnderrun p _ n => p < 512 && n < 16384
  | .txOversizeCut p _ => p < 512
  | .txFrameEnd p => p < 512
  | .copyEnd p _ => p < 520
  | .pauseRefreshExpire p => p < 512
  | .fcModeWrite _ n _ _ => n < 520
  | .controlFrameStart p => p < 512
  | .verifyTimerExpire p => p < 512
  | .verifyRestart _ p _ _ => p < 512
  | .verifyDisable _ p _ _ => p < 512
  | .fragmentEnd p k => p < 512 && k < 16384
  | .preemptResume p => p < 512
  | .preemptHold p => p < 512
  | .pollDue _ q => q < 32768
  | .pollIssue k _ => k < 6
  | .pollResult k => k < 6
  | .hotIdleExpire _ q => q < 32768
  | .txFetchStart k => k < 6
  | .txCompletionPlace _ => true
  | .rxCopyWriteStart q => q < 32768
  | .rxCompletionPlace q => q < 32768
  | .holdRelease r => r < 4096
  | .ciPollExpire r => r < 4096
  | .holdFullExpire k => k < 6
  | .queueEnable _ _ q => q < 32768
  | .queueStop _ _ q => q < 32768
  | .queueDisable _ _ q => q < 32768
  | .queueFlush _ _ q => q < 32768
  | .queueKick _ _ q => q < 32768
  | .queueDrained _ q => q < 32768
  | .ringEnable _ r => r < 4096
  | .ringDisable _ r => r < 4096
  | .ringKick _ r => r < 4096
  | .contextWrite _ addr _ _ => addr < 134217728 && addr % 4 = 0
  | .arbitration k => k < 6
  | .grantRelease k => k < 6
  | .holdCut k => k < 6
  | .quotaWindowStart k => k < 6
  | .readBeat k tag data resp _ => k < 6 && tag < 8192 && data.length = 256 && resp < 4
  | .writeResponse k resp => k < 6 && resp < 4
  | .step _ b _ => b < 8
  | .offset _ b _ => b < 8
  | .hold _ b => b < 8
  | .timeCommandApply b => b < 8
  | .timeSample _ b => b < 8
  | .corrWdExpire b => b < 8
  | .aonWindowEnd b => b < 8
  | .txLogPop _ => true
  | .rxLogPop _ => true
  | .pulseInputEdge n _ => n < 4
  | .pulseOutputEdge o => o < 4
  | .poutConfig _ o _ _ => o < 4
  | .helloTimer l => l < 32
  | .deadTimerExpire l => l < 32
  | .claimTimer => true
  | .claim _ => true
  | .release _ => true
  | .contextInit _ c => c < 16
  | .contextFeed _ c _ _ => c < 16
  | .contextStateWrite _ c _ _ => c < 16
  | .hdmaStart _ c _ _ => c < 16
  | .hdmaTimer c => c < 16
  | .hdmaSelect => true
  | .hdmaComplete => true
  | .hdmaRspTimeout _ _ => true
  | .hdmaDisable _ c _ _ => c < 16
  | .hdmaResume _ => true
  | .hdmaPop _ => true
  | .tallyLoRead _ pen m => pen < 40 && m < 2048
  | .tallyHiWrite _ pen m _ _ => pen < 40 && m < 2048
  | .tallyLoWrite _ pen m _ _ => pen < 40 && m < 2048
  | .tallySnap _ pen n _ => pen < 40 && n < 16
  | .tallyClear _ pen n => pen < 40 && n < 16
  | .pmnRun _ _ => true
  | .clearAll _ _ => true
  | .pmnLoRead _ j => j < 9
  | .pmnConfigWrite _ k _ _ => k < 8
  | .sleepTallyRead _ => true
  | .powerWait _ _ _ _ => true
  | .veto _ _ _ _ => true
  | .vetoWindowExpire => true
  | .quiesceClear => true
  | .quiesceTimeout => true
  | .wakeTimerExpire => true
  | .wakeFail => true
  | .wakeRetry => true
  | .domainFault d => 0 < d && d < 20
  | .trimGate pen => pen < 40
  | .trimUngate pen => pen < 40
  | .readVoltage _ _ _ _ => true
  | .readStatus _ _ _ _ => true
  | .writeVoltage _ _ _ _ => true
  | .srpRequestTransfer k => k < 6
  | .srpWriteBeatTransfer k => k < 6
  | .patternCheckerLock slot _ => slot < 512
  | .patternCheckerUnlock slot _ => slot < 512
  | .lpiRefresh p _ => p < 512
  | .rxLpiRefresh p _ => p < 512
  | .flockHeaderCheck p bs => p < 512 && bs.length ≤ 16384

/-- A well-formed command. -/
abbrev Instr.WellFormed (i : Instr) : Prop := i.wf = true

end Sys2Proof
end

