-- ==== Sys2Proof/Laws/PerInstr.lean ====
section
/-! SUPPORT. The family WellFormed of statements about commands: each row of the table has a well-formed command, so no
range of operands shuts a row out. One lemma per constructor. -/

namespace Sys2Proof.Laws.WellFormed

/-- Some well-formed command has the constructor of i. -/
def Statement (i : Instr) : Prop := ∃ j : Instr, j.wf = true ∧ j.ctorIdx = i.ctorIdx

theorem registerWrite (m : RPort) (addr : Nat) (be : BitVec 4) (data : Word) (tie : Option (BitVec 4 × Word)) : Statement (.registerWrite m addr be data tie) :=
  ⟨.registerWrite .a 0 0 0 none, by decide, rfl⟩

theorem registerAccessTransfer (m : RPort) (write : Bool) (addr : Nat) (be : BitVec 4) (data : Word) : Statement (.registerAccessTransfer m write addr be data) :=
  ⟨.registerAccessTransfer .a false 0 0 0, by decide, rfl⟩

theorem linkRequestSend (tie : Bool) : Statement (.linkRequestSend tie) :=
  ⟨.linkRequestSend false, by decide, rfl⟩

theorem linkResponse (m : RPort) (err : Bool) : Statement (.linkResponse m err) :=
  ⟨.linkResponse .a false, by decide, rfl⟩

theorem linkTimeout (m : RPort) : Statement (.linkTimeout m) :=
  ⟨.linkTimeout .a, by decide, rfl⟩

theorem drainPeriodEnd (m : RPort) : Statement (.drainPeriodEnd m) :=
  ⟨.drainPeriodEnd .a, by decide, rfl⟩

theorem requestAbandon (m : RPort) : Statement (.requestAbandon m) :=
  ⟨.requestAbandon .a, by decide, rfl⟩

theorem eventWord (u : Nat) : Statement (.eventWord u) :=
  ⟨.eventWord 0, by decide, rfl⟩

theorem rgpResetAssert (m : RPort) : Statement (.rgpResetAssert m) :=
  ⟨.rgpResetAssert .a, by decide, rfl⟩

theorem rgpResetRelease (m : RPort) (valid : Bool) : Statement (.rgpResetRelease m valid) :=
  ⟨.rgpResetRelease .a false, by decide, rfl⟩

theorem powerOnResetRelease : Statement (.powerOnResetRelease) :=
  ⟨.powerOnResetRelease, by decide, rfl⟩

theorem blockResetAssert : Statement (.blockResetAssert) :=
  ⟨.blockResetAssert, by decide, rfl⟩

theorem blockResetRelease : Statement (.blockResetRelease) :=
  ⟨.blockResetRelease, by decide, rfl⟩

theorem avsFrameEnd (good : Bool) (data : Nat) : Statement (.avsFrameEnd good data) :=
  ⟨.avsFrameEnd false 0, by decide, rfl⟩

theorem avsAckTimeout : Statement (.avsAckTimeout) :=
  ⟨.avsAckTimeout, by decide, rfl⟩

theorem settleExpire : Statement (.settleExpire) :=
  ⟨.settleExpire, by decide, rfl⟩

theorem clockAckChange (x : Nat) : Statement (.clockAckChange x) :=
  ⟨.clockAckChange 0, by decide, rfl⟩

theorem clockHandshakeTimeout (x : Nat) : Statement (.clockHandshakeTimeout x) :=
  ⟨.clockHandshakeTimeout 0, by decide, rfl⟩

theorem domainReadyChange (d : Nat) : Statement (.domainReadyChange d) :=
  ⟨.domainReadyChange 1, by decide, rfl⟩

theorem domainReadyTimeout (d : Nat) : Statement (.domainReadyTimeout d) :=
  ⟨.domainReadyTimeout 1, by decide, rfl⟩

theorem memoryInitDone : Statement (.memoryInitDone) :=
  ⟨.memoryInitDone, by decide, rfl⟩

theorem logicReleaseDelayExpire : Statement (.logicReleaseDelayExpire) :=
  ⟨.logicReleaseDelayExpire, by decide, rfl⟩

theorem isoLowerStep : Statement (.isoLowerStep) :=
  ⟨.isoLowerStep, by decide, rfl⟩

theorem coldStartFail : Statement (.coldStartFail) :=
  ⟨.coldStartFail, by decide, rfl⟩

theorem coldStartRetry : Statement (.coldStartRetry) :=
  ⟨.coldStartRetry, by decide, rfl⟩

theorem semaphoreRead (who : Option RPort) (n : Nat) : Statement (.semaphoreRead who n) :=
  ⟨.semaphoreRead none 0, by decide, rfl⟩

theorem semaphoreRelease (m : RPort) (n : Nat) (be : BitVec 4) (data : Word) (tie : Option (BitVec 4 × Word)) : Statement (.semaphoreRelease m n be data tie) :=
  ⟨.semaphoreRelease .a 0 0 0 none, by decide, rfl⟩

theorem expertArm (m : RPort) (be : BitVec 4) (data : Word) : Statement (.expertArm m be data) :=
  ⟨.expertArm .a 0 0, by decide, rfl⟩

theorem expertWrite (m : RPort) (be : BitVec 4) (data : Word) (tie : Option (BitVec 4 × Word)) : Statement (.expertWrite m be data tie) :=
  ⟨.expertWrite .a 0 0 none, by decide, rfl⟩

theorem mailboxDataWrite (m : RPort) (i' : Nat) (be : BitVec 4) (data : Word) : Statement (.mailboxDataWrite m i' be data) :=
  ⟨.mailboxDataWrite .a 0 0 0, by decide, rfl⟩

theorem mailboxPost (m : RPort) : Statement (.mailboxPost m) :=
  ⟨.mailboxPost .a, by decide, rfl⟩

theorem mailboxTake (m : RPort) (be : BitVec 4) (data : Word) : Statement (.mailboxTake m be data) :=
  ⟨.mailboxTake .a 0 0, by decide, rfl⟩

theorem doorbellRing (m : RPort) (be : BitVec 4) (data : Word) : Statement (.doorbellRing m be data) :=
  ⟨.doorbellRing .a 0 0, by decide, rfl⟩

theorem pull (m : RPort) : Statement (.pull m) :=
  ⟨.pull .a, by decide, rfl⟩

theorem pullEnd : Statement (.pullEnd) :=
  ⟨.pullEnd, by decide, rfl⟩

theorem peek (m : RPort) : Statement (.peek m) :=
  ⟨.peek .a, by decide, rfl⟩

theorem peekEnd : Statement (.peekEnd) :=
  ⟨.peekEnd, by decide, rfl⟩

theorem check (m : RPort) : Statement (.check m) :=
  ⟨.check .a, by decide, rfl⟩

theorem checkEnd : Statement (.checkEnd) :=
  ⟨.checkEnd, by decide, rfl⟩

theorem apply (m : RPort) : Statement (.apply m) :=
  ⟨.apply .a, by decide, rfl⟩

theorem applyEnd : Statement (.applyEnd) :=
  ⟨.applyEnd, by decide, rfl⟩

theorem refold (m : RPort) (pen : Nat) : Statement (.refold m pen) :=
  ⟨.refold .a 0, by decide, rfl⟩

theorem refoldHoldEmpty : Statement (.refoldHoldEmpty) :=
  ⟨.refoldHoldEmpty, by decide, rfl⟩

theorem refoldApplyEnd : Statement (.refoldApplyEnd) :=
  ⟨.refoldApplyEnd, by decide, rfl⟩

theorem spliceEnd : Statement (.spliceEnd) :=
  ⟨.spliceEnd, by decide, rfl⟩

theorem abort (m : RPort) : Statement (.abort m) :=
  ⟨.abort .a, by decide, rfl⟩

theorem restoreEnd (failed : Bool) : Statement (.restoreEnd failed) :=
  ⟨.restoreEnd false, by decide, rfl⟩

theorem signalDetectChange (slot : Nat) (level : Bool) : Statement (.signalDetectChange slot level) :=
  ⟨.signalDetectChange 0 false, by decide, rfl⟩

theorem linkAdminDown (src : Src) (p : Nat) (be : BitVec 4) (data : Word) : Statement (.linkAdminDown src p be data) :=
  ⟨.linkAdminDown .hdma 0 0 0, by decide, rfl⟩

theorem linkAdminUp (src : Src) (p : Nat) (be : BitVec 4) (data : Word) : Statement (.linkAdminUp src p be data) :=
  ⟨.linkAdminUp .hdma 0 0 0, by decide, rfl⟩

theorem linkLoopChange (src : Src) (p : Nat) (mode : Nat) (be : BitVec 4) (data : Word) : Statement (.linkLoopChange src p mode be data) :=
  ⟨.linkLoopChange .hdma 0 0 0 0, by decide, rfl⟩

theorem laneLoss (p : Nat) : Statement (.laneLoss p) :=
  ⟨.laneLoss 0, by decide, rfl⟩

theorem signalPresent (p : Nat) : Statement (.signalPresent p) :=
  ⟨.signalPresent 0, by decide, rfl⟩

theorem lanesLocked (p : Nat) : Statement (.lanesLocked p) :=
  ⟨.lanesLocked 0, by decide, rfl⟩

theorem lockLoss (p : Nat) (lost : Nat) (hiErr : Bool) : Statement (.lockLoss p lost hiErr) :=
  ⟨.lockLoss 0 0 false, by decide, rfl⟩

theorem deskewSuccess (p : Nat) : Statement (.deskewSuccess p) :=
  ⟨.deskewSuccess 0, by decide, rfl⟩

theorem deskewFail (p : Nat) : Statement (.deskewFail p) :=
  ⟨.deskewFail 0, by decide, rfl⟩

theorem upHoldExpire (p : Nat) : Statement (.upHoldExpire p) :=
  ⟨.upHoldExpire 0, by decide, rfl⟩

theorem remoteFaultReceived (p : Nat) : Statement (.remoteFaultReceived p) :=
  ⟨.remoteFaultReceived 0, by decide, rfl⟩

theorem remoteFaultCleared (p : Nat) : Statement (.remoteFaultCleared p) :=
  ⟨.remoteFaultCleared 0, by decide, rfl⟩

theorem lpiEnter (p : Nat) : Statement (.lpiEnter p) :=
  ⟨.lpiEnter 0, by decide, rfl⟩

theorem lpiWake (p : Nat) : Statement (.lpiWake p) :=
  ⟨.lpiWake 0, by decide, rfl⟩

theorem lpiWakeDone (p : Nat) : Statement (.lpiWakeDone p) :=
  ⟨.lpiWakeDone 0, by decide, rfl⟩

theorem rxLpiEnter (p : Nat) : Statement (.rxLpiEnter p) :=
  ⟨.rxLpiEnter 0, by decide, rfl⟩

theorem rxLpiExit (p : Nat) : Statement (.rxLpiExit p) :=
  ⟨.rxLpiExit 0, by decide, rfl⟩

theorem rxLpiTimeout (p : Nat) : Statement (.rxLpiTimeout p) :=
  ⟨.rxLpiTimeout 0, by decide, rfl⟩

theorem rxFrameStart (p : Nat) (smd : Nat) (frag : Nat) : Statement (.rxFrameStart p smd frag) :=
  ⟨.rxFrameStart 0 0 0, by decide, rfl⟩

theorem rxAddressFilter (p : Nat) (bs : List Byte) : Statement (.rxAddressFilter p bs) :=
  ⟨.rxAddressFilter 0 [], by decide, rfl⟩

theorem rxFrameReady (p : Nat) (bs : List Byte) : Statement (.rxFrameReady p bs) :=
  ⟨.rxFrameReady 0 [], by decide, rfl⟩

theorem rxFrameTruncate (p : Nat) (bs : List Byte) : Statement (.rxFrameTruncate p bs) :=
  ⟨.rxFrameTruncate 0 [], by decide, rfl⟩

theorem rxFrameEnd (p : Nat) (bs : List Byte) : Statement (.rxFrameEnd p bs) :=
  ⟨.rxFrameEnd 0 [], by decide, rfl⟩

theorem rxFrameCut (p : Nat) (bs : List Byte) : Statement (.rxFrameCut p bs) :=
  ⟨.rxFrameCut 0 [], by decide, rfl⟩

theorem pauseTimerExpire (p : Nat) (c : Nat) : Statement (.pauseTimerExpire p c) :=
  ⟨.pauseTimerExpire 0 0, by decide, rfl⟩

theorem pauseWatchdogExpire (p : Nat) (c : Nat) : Statement (.pauseWatchdogExpire p c) :=
  ⟨.pauseWatchdogExpire 0 0, by decide, rfl⟩

theorem stormRestoreExpire (p : Nat) (c : Nat) : Statement (.stormRestoreExpire p c) :=
  ⟨.stormRestoreExpire 0 0, by decide, rfl⟩

theorem watchdogEnableWrite (src : Src) (p : Nat) (be : BitVec 4) (data : Word) : Statement (.watchdogEnableWrite src p be data) :=
  ⟨.watchdogEnableWrite .hdma 0 0 0, by decide, rfl⟩

theorem rxFragmentEnd (p : Nat) (bs : List Byte) : Statement (.rxFragmentEnd p bs) :=
  ⟨.rxFragmentEnd 0 [], by decide, rfl⟩

theorem verifyFrameReceived (p : Nat) (bs : List Byte) : Statement (.verifyFrameReceived p bs) :=
  ⟨.verifyFrameReceived 0 [], by decide, rfl⟩

theorem respondFrameReceived (p : Nat) (bs : List Byte) : Statement (.respondFrameReceived p bs) :=
  ⟨.respondFrameReceived 0 [], by decide, rfl⟩

theorem parseStart (pen : Nat) (slot : Nat) : Statement (.parseStart pen slot) :=
  ⟨.parseStart 0 0, by decide, rfl⟩

theorem grazeBlockScan (pen : Nat) : Statement (.grazeBlockScan pen) :=
  ⟨.grazeBlockScan 0, by decide, rfl⟩

theorem grazeDeadline (pen : Nat) (k : Nat) : Statement (.grazeDeadline pen k) :=
  ⟨.grazeDeadline 0 0, by decide, rfl⟩

theorem lookupIssue : Statement (.lookupIssue) :=
  ⟨.lookupIssue, by decide, rfl⟩

theorem lookupResult (pen : Nat) (idx : Nat) (pos : Nat) : Statement (.lookupResult pen idx pos) :=
  ⟨.lookupResult 0 0 0, by decide, rfl⟩

theorem verdictMerge (pen : Nat) (len : Nat) : Statement (.verdictMerge pen len) :=
  ⟨.verdictMerge 0 0, by decide, rfl⟩

theorem meterRefresh : Statement (.meterRefresh) :=
  ⟨.meterRefresh, by decide, rfl⟩

theorem lookupLineRead (src : Src) (index : Nat) : Statement (.lookupLineRead src index) :=
  ⟨.lookupLineRead .hdma 0, by decide, rfl⟩

theorem lineWrite (src : Src) (index : Nat) : Statement (.lineWrite src index) :=
  ⟨.lineWrite .hdma 0, by decide, rfl⟩

theorem meterRead (src : Src) (index : Nat) : Statement (.meterRead src index) :=
  ⟨.meterRead .hdma 0, by decide, rfl⟩

theorem meterWrite (src : Src) (index : Nat) : Statement (.meterWrite src index) :=
  ⟨.meterWrite .hdma 0, by decide, rfl⟩

theorem fcRead (src : Src) (index : Nat) : Statement (.fcRead src index) :=
  ⟨.fcRead .hdma 0, by decide, rfl⟩

theorem fcReadClear (src : Src) (index : Nat) : Statement (.fcReadClear src index) :=
  ⟨.fcReadClear .hdma 0, by decide, rfl⟩

theorem fcWrite (src : Src) (index : Nat) : Statement (.fcWrite src index) :=
  ⟨.fcWrite .hdma 0, by decide, rfl⟩

theorem samplerConfig (src : Src) (k : Nat) (be : BitVec 4) (data : Word) : Statement (.samplerConfig src k be data) :=
  ⟨.samplerConfig .hdma 0 0 0, by decide, rfl⟩

theorem insert (src : Src) (table : Nat) (copy : Nat) : Statement (.insert src table copy) :=
  ⟨.insert .hdma 0 0, by decide, rfl⟩

theorem delete (src : Src) (table : Nat) (copy : Nat) : Statement (.delete src table copy) :=
  ⟨.delete .hdma 0 0, by decide, rfl⟩

theorem find (src : Src) (table : Nat) (copy : Nat) : Statement (.find src table copy) :=
  ⟨.find .hdma 0 0, by decide, rfl⟩

theorem writeAt (src : Src) (table : Nat) (copy : Nat) : Statement (.writeAt src table copy) :=
  ⟨.writeAt .hdma 0 0, by decide, rfl⟩

theorem readAt (src : Src) (table : Nat) (copy : Nat) : Statement (.readAt src table copy) :=
  ⟨.readAt .hdma 0 0, by decide, rfl⟩

theorem hash (src : Src) (table : Nat) (copy : Nat) : Statement (.hash src table copy) :=
  ⟨.hash .hdma 0 0, by decide, rfl⟩

theorem larCommandAccept : Statement (.larCommandAccept) :=
  ⟨.larCommandAccept, by decide, rfl⟩

theorem larCommandTimeout (m : RPort) : Statement (.larCommandTimeout m) :=
  ⟨.larCommandTimeout .a, by decide, rfl⟩

theorem larCommandEnd : Statement (.larCommandEnd) :=
  ⟨.larCommandEnd, by decide, rfl⟩

theorem atticPush (src : Src) (be : BitVec 4) (data : Word) : Statement (.atticPush src be data) :=
  ⟨.atticPush .hdma 0 0, by decide, rfl⟩

theorem atticPushTimeout (m : RPort) : Statement (.atticPushTimeout m) :=
  ⟨.atticPushTimeout .a, by decide, rfl⟩

theorem atticWrite : Statement (.atticWrite) :=
  ⟨.atticWrite, by decide, rfl⟩

theorem liveWrite (src : Src) (be : BitVec 4) (data : Word) : Statement (.liveWrite src be data) :=
  ⟨.liveWrite .hdma 0 0, by decide, rfl⟩

theorem flip : Statement (.flip) :=
  ⟨.flip, by decide, rfl⟩

theorem copySettle (t : Nat) (x : Nat) : Statement (.copySettle t x) :=
  ⟨.copySettle 0 0, by decide, rfl⟩

theorem cseedWrite (src : Src) (n : Nat) (be : BitVec 4) (data : Word) : Statement (.cseedWrite src n be data) :=
  ⟨.cseedWrite .hdma 0 0 0, by decide, rfl⟩

theorem epochRequest (src : Src) : Statement (.epochRequest src) :=
  ⟨.epochRequest .hdma, by decide, rfl⟩

theorem epochAdvance : Statement (.epochAdvance) :=
  ⟨.epochAdvance, by decide, rfl⟩

theorem beatWrite (f : Nat) (stall : Bool) : Statement (.beatWrite f stall) :=
  ⟨.beatWrite 0 false, by decide, rfl⟩

theorem loftSinkStart (inPen : Nat) (outPen : Nat) : Statement (.loftSinkStart inPen outPen) :=
  ⟨.loftSinkStart 0 0, by decide, rfl⟩

theorem sinkMove (e : Nat) : Statement (.sinkMove e) :=
  ⟨.sinkMove 0, by decide, rfl⟩

theorem sinkEnd (inPen : Nat) (outPen : Nat) : Statement (.sinkEnd inPen outPen) :=
  ⟨.sinkEnd 0 0, by decide, rfl⟩

theorem sectorRead (copies : List Nat) : Statement (.sectorRead copies) :=
  ⟨.sectorRead [], by decide, rfl⟩

theorem badCopyDiscard (rx : Bool) (q : Nat) : Statement (.badCopyDiscard rx q) :=
  ⟨.badCopyDiscard false 0, by decide, rfl⟩

theorem flushCommand (src : Src) (port : Nat) (tcs : Nat) : Statement (.flushCommand src port tcs) :=
  ⟨.flushCommand .hdma 0 0, by decide, rfl⟩

theorem flushRemove : Statement (.flushRemove) :=
  ⟨.flushRemove, by decide, rfl⟩

theorem redSeedWrite (src : Src) (be : BitVec 4) (data : Word) : Statement (.redSeedWrite src be data) :=
  ⟨.redSeedWrite .hdma 0 0, by decide, rfl⟩

theorem queueConfigWrite (src : Src) (n : Nat) (be : BitVec 4) (data : Word) : Statement (.queueConfigWrite src n be data) :=
  ⟨.queueConfigWrite .hdma 0 0 0, by decide, rfl⟩

theorem copyGrant (pen : Nat) : Statement (.copyGrant pen) :=
  ⟨.copyGrant 0, by decide, rfl⟩

theorem launchJudge (p : Nat) (c : Nat) : Statement (.launchJudge p c) :=
  ⟨.launchJudge 0 0, by decide, rfl⟩

theorem launchDue (p : Nat) (c : Nat) : Statement (.launchDue p c) :=
  ⟨.launchDue 0 0, by decide, rfl⟩

theorem gateCommit (src : Src) (n : Nat) (start : Nat) (len : Nat) : Statement (.gateCommit src n start len) :=
  ⟨.gateCommit .hdma 0 0 0, by decide, rfl⟩

theorem gateDiscard (src : Src) (n : Nat) : Statement (.gateDiscard src n) :=
  ⟨.gateDiscard .hdma 0, by decide, rfl⟩

theorem gateEntryWrite (src : Src) (hi : Bool) (m : Nat) (be : BitVec 4) (data : Word) : Statement (.gateEntryWrite src hi m be data) :=
  ⟨.gateEntryWrite .hdma false 0 0 0, by decide, rfl⟩

theorem gateSwitch (p : Nat) : Statement (.gateSwitch p) :=
  ⟨.gateSwitch 0, by decide, rfl⟩

theorem gateCycleStart (p : Nat) : Statement (.gateCycleStart p) :=
  ⟨.gateCycleStart 0, by decide, rfl⟩

theorem copyStart (p : Nat) (express : Bool) : Statement (.copyStart p express) :=
  ⟨.copyStart 0 false, by decide, rfl⟩

theorem txUnderrun (p : Nat) (express : Bool) (n : Nat) : Statement (.txUnderrun p express n) :=
  ⟨.txUnderrun 0 false 0, by decide, rfl⟩

theorem txOversizeCut (p : Nat) (express : Bool) : Statement (.txOversizeCut p express) :=
  ⟨.txOversizeCut 0 false, by decide, rfl⟩

theorem txFrameEnd (p : Nat) : Statement (.txFrameEnd p) :=
  ⟨.txFrameEnd 0, by decide, rfl⟩

theorem copyEnd (p : Nat) (express : Bool) : Statement (.copyEnd p express) :=
  ⟨.copyEnd 0 false, by decide, rfl⟩

theorem pauseRefreshExpire (p : Nat) : Statement (.pauseRefreshExpire p) :=
  ⟨.pauseRefreshExpire 0, by decide, rfl⟩

theorem fcModeWrite (src : Src) (n : Nat) (be : BitVec 4) (data : Word) : Statement (.fcModeWrite src n be data) :=
  ⟨.fcModeWrite .hdma 0 0 0, by decide, rfl⟩

theorem controlFrameStart (p : Nat) : Statement (.controlFrameStart p) :=
  ⟨.controlFrameStart 0, by decide, rfl⟩

theorem verifyTimerExpire (p : Nat) : Statement (.verifyTimerExpire p) :=
  ⟨.verifyTimerExpire 0, by decide, rfl⟩

theorem verifyRestart (src : Src) (p : Nat) (be : BitVec 4) (data : Word) : Statement (.verifyRestart src p be data) :=
  ⟨.verifyRestart .hdma 0 0 0, by decide, rfl⟩

theorem verifyDisable (src : Src) (p : Nat) (be : BitVec 4) (data : Word) : Statement (.verifyDisable src p be data) :=
  ⟨.verifyDisable .hdma 0 0 0, by decide, rfl⟩

theorem fragmentEnd (p : Nat) (k : Nat) : Statement (.fragmentEnd p k) :=
  ⟨.fragmentEnd 0 0, by decide, rfl⟩

theorem preemptResume (p : Nat) : Statement (.preemptResume p) :=
  ⟨.preemptResume 0, by decide, rfl⟩

theorem preemptHold (p : Nat) : Statement (.preemptHold p) :=
  ⟨.preemptHold 0, by decide, rfl⟩

theorem pollDue (rx : Bool) (q : Nat) : Statement (.pollDue rx q) :=
  ⟨.pollDue false 0, by decide, rfl⟩

theorem pollIssue (k : Nat) (late : Bool) : Statement (.pollIssue k late) :=
  ⟨.pollIssue 0 false, by decide, rfl⟩

theorem pollResult (k : Nat) : Statement (.pollResult k) :=
  ⟨.pollResult 0, by decide, rfl⟩

theorem hotIdleExpire (rx : Bool) (q : Nat) : Statement (.hotIdleExpire rx q) :=
  ⟨.hotIdleExpire false 0, by decide, rfl⟩

theorem txFetchStart (k : Nat) : Statement (.txFetchStart k) :=
  ⟨.txFetchStart 0, by decide, rfl⟩

theorem txCompletionPlace (n : Nat) : Statement (.txCompletionPlace n) :=
  ⟨.txCompletionPlace 0, by decide, rfl⟩

theorem rxCopyWriteStart (q : Nat) : Statement (.rxCopyWriteStart q) :=
  ⟨.rxCopyWriteStart 0, by decide, rfl⟩

theorem rxCompletionPlace (q : Nat) : Statement (.rxCompletionPlace q) :=
  ⟨.rxCompletionPlace 0, by decide, rfl⟩

theorem holdRelease (r : Nat) : Statement (.holdRelease r) :=
  ⟨.holdRelease 0, by decide, rfl⟩

theorem ciPollExpire (r : Nat) : Statement (.ciPollExpire r) :=
  ⟨.ciPollExpire 0, by decide, rfl⟩

theorem holdFullExpire (k : Nat) : Statement (.holdFullExpire k) :=
  ⟨.holdFullExpire 0, by decide, rfl⟩

theorem queueEnable (src : Src) (rx : Bool) (q : Nat) : Statement (.queueEnable src rx q) :=
  ⟨.queueEnable .hdma false 0, by decide, rfl⟩

theorem queueStop (src : Src) (rx : Bool) (q : Nat) : Statement (.queueStop src rx q) :=
  ⟨.queueStop .hdma false 0, by decide, rfl⟩

theorem queueDisable (src : Src) (rx : Bool) (q : Nat) : Statement (.queueDisable src rx q) :=
  ⟨.queueDisable .hdma false 0, by decide, rfl⟩

theorem queueFlush (src : Src) (rx : Bool) (q : Nat) : Statement (.queueFlush src rx q) :=
  ⟨.queueFlush .hdma false 0, by decide, rfl⟩

theorem queueKick (src : Src) (rx : Bool) (q : Nat) : Statement (.queueKick src rx q) :=
  ⟨.queueKick .hdma false 0, by decide, rfl⟩

theorem queueDrained (rx : Bool) (q : Nat) : Statement (.queueDrained rx q) :=
  ⟨.queueDrained false 0, by decide, rfl⟩

theorem ringEnable (src : Src) (r : Nat) : Statement (.ringEnable src r) :=
  ⟨.ringEnable .hdma 0, by decide, rfl⟩

theorem ringDisable (src : Src) (r : Nat) : Statement (.ringDisable src r) :=
  ⟨.ringDisable .hdma 0, by decide, rfl⟩

theorem ringKick (src : Src) (r : Nat) : Statement (.ringKick src r) :=
  ⟨.ringKick .hdma 0, by decide, rfl⟩

theorem contextWrite (src : Src) (addr : Nat) (be : BitVec 4) (data : Word) : Statement (.contextWrite src addr be data) :=
  ⟨.contextWrite .hdma 0 0 0, by decide, rfl⟩

theorem arbitration (k : Nat) : Statement (.arbitration k) :=
  ⟨.arbitration 0, by decide, rfl⟩

theorem grantRelease (k : Nat) : Statement (.grantRelease k) :=
  ⟨.grantRelease 0, by decide, rfl⟩

theorem holdCut (k : Nat) : Statement (.holdCut k) :=
  ⟨.holdCut 0, by decide, rfl⟩

theorem quotaWindowStart (k : Nat) : Statement (.quotaWindowStart k) :=
  ⟨.quotaWindowStart 0, by decide, rfl⟩

set_option maxRecDepth 8000 in
theorem readBeat (k : Nat) (tag : Nat) (data : List Byte) (resp : Nat) (last : Bool) : Statement (.readBeat k tag data resp last) :=
  ⟨.readBeat 0 0 (List.replicate 256 0) 0 false, by decide, rfl⟩

theorem writeResponse (k : Nat) (resp : Nat) : Statement (.writeResponse k resp) :=
  ⟨.writeResponse 0 0, by decide, rfl⟩

theorem step (src : Src) (b : Nat) (force : Bool) : Statement (.step src b force) :=
  ⟨.step .hdma 0 false, by decide, rfl⟩

theorem offset (src : Src) (b : Nat) (force : Bool) : Statement (.offset src b force) :=
  ⟨.offset .hdma 0 false, by decide, rfl⟩

theorem hold (src : Src) (b : Nat) : Statement (.hold src b) :=
  ⟨.hold .hdma 0, by decide, rfl⟩

theorem timeCommandApply (b : Nat) : Statement (.timeCommandApply b) :=
  ⟨.timeCommandApply 0, by decide, rfl⟩

theorem timeSample (src : Src) (b : Nat) : Statement (.timeSample src b) :=
  ⟨.timeSample .hdma 0, by decide, rfl⟩

theorem corrWdExpire (b : Nat) : Statement (.corrWdExpire b) :=
  ⟨.corrWdExpire 0, by decide, rfl⟩

theorem aonWindowEnd (b : Nat) : Statement (.aonWindowEnd b) :=
  ⟨.aonWindowEnd 0, by decide, rfl⟩

theorem txLogPop (src : Src) : Statement (.txLogPop src) :=
  ⟨.txLogPop .hdma, by decide, rfl⟩

theorem rxLogPop (src : Src) : Statement (.rxLogPop src) :=
  ⟨.rxLogPop .hdma, by decide, rfl⟩

theorem pulseInputEdge (i' : Nat) (rise : Bool) : Statement (.pulseInputEdge i' rise) :=
  ⟨.pulseInputEdge 0 false, by decide, rfl⟩

theorem pulseOutputEdge (o : Nat) : Statement (.pulseOutputEdge o) :=
  ⟨.pulseOutputEdge 0, by decide, rfl⟩

theorem poutConfig (src : Src) (o : Nat) (be : BitVec 4) (data : Word) : Statement (.poutConfig src o be data) :=
  ⟨.poutConfig .hdma 0 0 0, by decide, rfl⟩

theorem helloTimer (l : Nat) : Statement (.helloTimer l) :=
  ⟨.helloTimer 0, by decide, rfl⟩

theorem deadTimerExpire (l : Nat) : Statement (.deadTimerExpire l) :=
  ⟨.deadTimerExpire 0, by decide, rfl⟩

theorem claimTimer : Statement (.claimTimer) :=
  ⟨.claimTimer, by decide, rfl⟩

theorem claim (src : Src) : Statement (.claim src) :=
  ⟨.claim .hdma, by decide, rfl⟩

theorem release (src : Src) : Statement (.release src) :=
  ⟨.release .hdma, by decide, rfl⟩

theorem contextInit (src : Src) (c : Nat) : Statement (.contextInit src c) :=
  ⟨.contextInit .hdma 0, by decide, rfl⟩

theorem contextFeed (src : Src) (c : Nat) (be : BitVec 4) (data : Word) : Statement (.contextFeed src c be data) :=
  ⟨.contextFeed .hdma 0 0 0, by decide, rfl⟩

theorem contextStateWrite (src : Src) (c : Nat) (be : BitVec 4) (data : Word) : Statement (.contextStateWrite src c be data) :=
  ⟨.contextStateWrite .hdma 0 0 0, by decide, rfl⟩

theorem hdmaStart (src : Src) (c : Nat) (be : BitVec 4) (data : Word) : Statement (.hdmaStart src c be data) :=
  ⟨.hdmaStart .hdma 0 0 0, by decide, rfl⟩

theorem hdmaTimer (c : Nat) : Statement (.hdmaTimer c) :=
  ⟨.hdmaTimer 0, by decide, rfl⟩

theorem hdmaSelect : Statement (.hdmaSelect) :=
  ⟨.hdmaSelect, by decide, rfl⟩

theorem hdmaComplete : Statement (.hdmaComplete) :=
  ⟨.hdmaComplete, by decide, rfl⟩

theorem hdmaRspTimeout (write : Bool) (pos : Nat) : Statement (.hdmaRspTimeout write pos) :=
  ⟨.hdmaRspTimeout false 0, by decide, rfl⟩

theorem hdmaDisable (src : Src) (c : Nat) (be : BitVec 4) (data : Word) : Statement (.hdmaDisable src c be data) :=
  ⟨.hdmaDisable .hdma 0 0 0, by decide, rfl⟩

theorem hdmaResume (src : Src) : Statement (.hdmaResume src) :=
  ⟨.hdmaResume .hdma, by decide, rfl⟩

theorem hdmaPop (src : Src) : Statement (.hdmaPop src) :=
  ⟨.hdmaPop .hdma, by decide, rfl⟩

theorem tallyLoRead (src : Src) (pen : Nat) (m : Nat) : Statement (.tallyLoRead src pen m) :=
  ⟨.tallyLoRead .hdma 0 0, by decide, rfl⟩

theorem tallyHiWrite (src : Src) (pen : Nat) (m : Nat) (be : BitVec 4) (data : Word) : Statement (.tallyHiWrite src pen m be data) :=
  ⟨.tallyHiWrite .hdma 0 0 0 0, by decide, rfl⟩

theorem tallyLoWrite (src : Src) (pen : Nat) (m : Nat) (be : BitVec 4) (data : Word) : Statement (.tallyLoWrite src pen m be data) :=
  ⟨.tallyLoWrite .hdma 0 0 0 0, by decide, rfl⟩

theorem tallySnap (src : Src) (pen : Nat) (i' : Nat) (clear : Bool) : Statement (.tallySnap src pen i' clear) :=
  ⟨.tallySnap .hdma 0 0 false, by decide, rfl⟩

theorem tallyClear (src : Src) (pen : Nat) (i' : Nat) : Statement (.tallyClear src pen i') :=
  ⟨.tallyClear .hdma 0 0, by decide, rfl⟩

theorem pmnRun (src : Src) (run : Bool) : Statement (.pmnRun src run) :=
  ⟨.pmnRun .hdma false, by decide, rfl⟩

theorem clearAll (src : Src) (run : Bool) : Statement (.clearAll src run) :=
  ⟨.clearAll .hdma false, by decide, rfl⟩

theorem pmnLoRead (src : Src) (j : Nat) : Statement (.pmnLoRead src j) :=
  ⟨.pmnLoRead .hdma 0, by decide, rfl⟩

theorem pmnConfigWrite (src : Src) (k : Nat) (be : BitVec 4) (data : Word) : Statement (.pmnConfigWrite src k be data) :=
  ⟨.pmnConfigWrite .hdma 0 0 0, by decide, rfl⟩

theorem sleepTallyRead (m : RPort) : Statement (.sleepTallyRead m) :=
  ⟨.sleepTallyRead .a, by decide, rfl⟩

theorem powerWait (m : RPort) (be : BitVec 4) (data : Word) (tie : Option (BitVec 4 × Word)) : Statement (.powerWait m be data tie) :=
  ⟨.powerWait .a 0 0 none, by decide, rfl⟩

theorem veto (m : RPort) (be : BitVec 4) (data : Word) (tie : Option (BitVec 4 × Word)) : Statement (.veto m be data tie) :=
  ⟨.veto .a 0 0 none, by decide, rfl⟩

theorem vetoWindowExpire : Statement (.vetoWindowExpire) :=
  ⟨.vetoWindowExpire, by decide, rfl⟩

theorem quiesceClear : Statement (.quiesceClear) :=
  ⟨.quiesceClear, by decide, rfl⟩

theorem quiesceTimeout : Statement (.quiesceTimeout) :=
  ⟨.quiesceTimeout, by decide, rfl⟩

theorem wakeTimerExpire : Statement (.wakeTimerExpire) :=
  ⟨.wakeTimerExpire, by decide, rfl⟩

theorem wakeFail : Statement (.wakeFail) :=
  ⟨.wakeFail, by decide, rfl⟩

theorem wakeRetry : Statement (.wakeRetry) :=
  ⟨.wakeRetry, by decide, rfl⟩

theorem domainFault (d : Nat) : Statement (.domainFault d) :=
  ⟨.domainFault 1, by decide, rfl⟩

theorem trimGate (pen : Nat) : Statement (.trimGate pen) :=
  ⟨.trimGate 0, by decide, rfl⟩

theorem trimUngate (pen : Nat) : Statement (.trimUngate pen) :=
  ⟨.trimUngate 0, by decide, rfl⟩

theorem readVoltage (m : RPort) (be : BitVec 4) (data : Word) (tie : Option (BitVec 4 × Word)) : Statement (.readVoltage m be data tie) :=
  ⟨.readVoltage .a 0 0 none, by decide, rfl⟩

theorem readStatus (m : RPort) (be : BitVec 4) (data : Word) (tie : Option (BitVec 4 × Word)) : Statement (.readStatus m be data tie) :=
  ⟨.readStatus .a 0 0 none, by decide, rfl⟩

theorem writeVoltage (m : RPort) (be : BitVec 4) (data : Word) (tie : Option (BitVec 4 × Word)) : Statement (.writeVoltage m be data tie) :=
  ⟨.writeVoltage .a 0 0 none, by decide, rfl⟩

theorem srpRequestTransfer (k : Nat) : Statement (.srpRequestTransfer k) :=
  ⟨.srpRequestTransfer 0, by decide, rfl⟩

theorem srpWriteBeatTransfer (k : Nat) : Statement (.srpWriteBeatTransfer k) :=
  ⟨.srpWriteBeatTransfer 0, by decide, rfl⟩

theorem patternCheckerLock (slot : Nat) (errs : Nat) : Statement (.patternCheckerLock slot errs) :=
  ⟨.patternCheckerLock 0 0, by decide, rfl⟩

theorem patternCheckerUnlock (slot : Nat) (errs : Nat) : Statement (.patternCheckerUnlock slot errs) :=
  ⟨.patternCheckerUnlock 0 0, by decide, rfl⟩

theorem lpiRefresh (p : Nat) (quiet : Bool) : Statement (.lpiRefresh p quiet) :=
  ⟨.lpiRefresh 0 false, by decide, rfl⟩

theorem rxLpiRefresh (p : Nat) (quiet : Bool) : Statement (.rxLpiRefresh p quiet) :=
  ⟨.rxLpiRefresh 0 false, by decide, rfl⟩

theorem flockHeaderCheck (p : Nat) (bs : List Byte) : Statement (.flockHeaderCheck p bs) :=
  ⟨.flockHeaderCheck 0 [], by decide, rfl⟩

end Sys2Proof.Laws.WellFormed
end

