-- ==== Sys2Proof/Tests/Slice0.lean ====
section
/-! SUPPORT. Tests: ill-formed commands are refused by WellFormed, each statement's hypotheses are met by a concrete state
and operands, and single steps from small states give what the spec states. -/

namespace Sys2Proof.Tests

open Sys2Proof.Machine

-- One theorem after the other: each waits for the kernel, and together they would hold too many threads.
set_option Elab.async false

/-- The block in RUN: every clock runs, every domain is on, no sequence runs. -/
def up : State :=
  { State.reset with
    sh := { State.reset.sh with
      doms := List.replicate 20 ⟨true, true, false, false⟩, clks := List.replicate 4 ⟨true, true⟩
      dpRstN := true, seq := {}, avsRun := none } }

/-- The next state of a step, or the state itself where there is none. -/
def after (c : Instr) (s : State) : State :=
  match step { s with pending := [c] } with
  | .next t => t
  | _ => s

/-! ## Witnesses: register ports and the link -/

theorem wit_StepRunsFrontCommand : ({ State.reset with pending := [.quiesceClear] }).pending = .quiesceClear :: [] ∧
    State.reset.pending = [] := by decide +kernel

theorem wit_AccessTransferRoutes : up.sh.accepts .a = true ∧ State.reset.sh.accepts .b = false ∧
    (5 % 4 ≠ 0) ∧ (0x7FFFFFC % 4 = 0 ∧ domainOf 0x7FFFFFC = 0 ∧ Reg.ofAddr 0x7FFFFFC = none) ∧
    (Reg.ofAddr (Reg.shpSem.addr 31 0) = some (.shpSem, 31, 0) ∧ domainOf (Reg.shpSem.addr 31 0) = 0) ∧
    (Reg.ofAddr (Reg.pwrStat.addr 0 0) = some (.pwrStat, 0, 0) ∧ domainOf (Reg.pwrStat.addr 0 0) = 0 ∧
      Reg.pwrStat.readsAtCore = false) ∧
    (domainOf (Reg.pmnCtl.addr 0 0) ≠ 0 ∧ up.sh.awake (Reg.pmnCtl.addr 0 0) = true) ∧
    State.reset.sh.awake (Reg.pmnCtl.addr 0 0) = false ∧ Reg.pmnCtl.addr 0 0 % 4 = 0 := by decide +kernel

/-- A read of PMN_CTL that waits, was sent or was performed. -/
def req (m : RPort) (w : Bool) : LinkReq := ⟨m, false, w, Reg.pmnCtl.addr 0 0, 0xF, 0⟩

/-- A state with a request of port A that waits, its access at port A. -/
def waiting (s : State) (w : Bool) : State :=
  s.onSh (fun h => { h with portA := { acc := some ⟨w, Reg.pmnCtl.addr 0 0, 0xF, 0, .waitLink, false⟩ }
                            link := { h.link with fifo := [req .a w] } })

/-- A request of port A for an address, in slot A, performed if it has a word, with its access at the port. -/
def sentTo (s : State) (w : Bool) (a : Nat) (done : Option Word) : State :=
  s.onSh (fun h => { h with portA := { acc := some ⟨w, a, 0xF, 1, .inFlight, false⟩ }
                            link := { h.link with slotA := ⟨some ⟨.a, false, w, a, 0xF, 1⟩, some ⟨⟨.a, false, w, a, 0xF, 1⟩, done⟩,
                              none, false, false⟩ } })

theorem wit_LinkRequestGoesOut : (waiting up false).sh.link.next false = some (req .a false) ∧
    (waiting up false).sh.domOn 19 = true ∧ ((waiting up false).sh.port .a).acc.isSome = true ∧ (req .a false).write = false ∧
    (req .a true).loader = false ∧ fldValue (req .a true).addr = false := by decide +kernel

theorem wit_LinkRequestGoesOut_tie :
    (({ fifo := [req .a false, req .b true] } : Link).candidate .a = some (req .a false) ∧
    ({ fifo := [req .a false, req .b true] } : Link).candidate .b = some (req .b true)) := by decide +kernel

/-- A block with one request that waits: a write of FLD_LEN, a register that the shepherd mirrors. -/
def mirrorWait : State := up.onSh (fun h => { h with link := { h.link with fifo := [⟨.b, false, true, Reg.fldLen.addr 0 0, 0xF, 64⟩] } })

theorem wit_LinkRequestGoesOut_mirrored :
    mirrorWait.sh.link.next true = some ⟨.b, false, true, Reg.fldLen.addr 0 0, 0xF, 64⟩ ∧ mirrorWait.sh.domOn 19 = true ∧
    fldValue (Reg.fldLen.addr 0 0) = true ∧ (mirrorWait.sh.link.slot RPort.b.peer).dp = none ∧
    (waiting State.reset true).sh.domOn 19 = false := by decide +kernel

theorem wit_LinkResponseAnswersPort :
    ((sentTo up false (Reg.pmnCtl.addr 0 0) (some 7)).sh.link.slot .a).sent = some ⟨.a, false, false, Reg.pmnCtl.addr 0 0, 0xF, 1⟩ ∧
    ((sentTo up false (Reg.pmnCtl.addr 0 0) (some 7)).sh.link.slot .a).dp =
      some ⟨⟨.a, false, false, Reg.pmnCtl.addr 0 0, 0xF, 1⟩, some 7⟩ ∧
    (sentTo up false (Reg.pmnCtl.addr 0 0) (some 7)).sh.answers (Reg.pmnCtl.addr 0 0) = true ∧
    ((sentTo up false (Reg.pmnCtl.addr 0 0) (some 7)).sh.port .a).acc.map (·.stage) = some .inFlight ∧
    ((sentTo up false (Reg.pmnCtl.addr 0 0) none).sh.link.slot .a).dp =
      some ⟨⟨.a, false, false, Reg.pmnCtl.addr 0 0, 0xF, 1⟩, none⟩ ∧ (sentTo up false (Reg.pmnCtl.addr 0 0) none).sh.seq.todo = [] ∧
    (req .b true).write = true ∧ (req .a false).write = false := by decide +kernel

/-- A block whose larder engine runs a command. -/
def larBusy : State := up.onDp (fun d => d.larAccept 1)

theorem wit_LinkResponseAnswersPort_held :
    ((sentTo larBusy true (Reg.larCmd.addr 0 0) none).sh.link.slot .a).dp =
      some ⟨⟨.a, false, true, Reg.larCmd.addr 0 0, 0xF, 1⟩, none⟩ ∧ mirroredFld (Reg.larCmd.addr 0 0) = false ∧
    (sentTo larBusy true (Reg.larCmd.addr 0 0) none).sh.answers (Reg.larCmd.addr 0 0) = true ∧
    ((sentTo larBusy true (Reg.larCmd.addr 0 0) none).performWrite (.port .a) (Reg.larCmd.addr 0 0) 0xF 1).2 = false := by
  decide +kernel

theorem wit_LinkTimeoutReported :
    ((sentTo up true (Reg.pmnCtl.addr 0 0) none).sh.link.slot .a).sent = some ⟨.a, false, true, Reg.pmnCtl.addr 0 0, 0xF, 1⟩ ∧
    (sentTo up true (Reg.pmnCtl.addr 0 0) none).answered .a = false ∧ (sentTo up true (Reg.pmnCtl.addr 0 0) none).sh.seq.todo = [] ∧
    ((sentTo up true (Reg.pmnCtl.addr 0 0) none).sh.port .a).acc.map (·.stage) = some .inFlight ∧
    (sentTo up true (Reg.pmnCtl.addr 0 0) (some 0)).answered .a = true := by decide +kernel

theorem wit_SlotEndsAndEventWords : up.sh.unitSends 50 = true ∧ up.sh.unitSends 0 = true ∧ up.watching = false ∧
    up.answered .b = false ∧ (sentTo up true (Reg.pmnCtl.addr 0 0) (some 0)).answered .a = true := by decide +kernel

/-! ## Witnesses: the shepherd's registers and resets -/

theorem wit_RegisterPortResets : (up.sh.port .b).rstN = true := by decide +kernel

/-- A block whose port A is held in reset. -/
def portLow : State := up.onSh (fun h => { h with portA := { rstN := false } })

/-- The same with clk_shf stopped. -/
def portLowStill : State := portLow.onSh (fun h => h.setClk 2 ⟨false, false⟩)

theorem wit_RegisterPortResets_release : (portLow.sh.port .a).rstN = false ∧ (portLow.sh.port .a).overlap = false ∧
    portLow.sh.blkN = true ∧ (portLow.sh.clk 2).ack = true ∧ (portLow.sh.port .a).pulses = 0 ∧
    (portLowStill.sh.port .a).rstN = false ∧ (portLowStill.sh.clk 2).ack = false ∧ portLowStill.sh.blkN = true := by decide +kernel

/-- A block in which port A holds semaphore 31 and reads it. -/
def holding : State :=
  up.onSh (fun h => { h with
    sem := modAt (fun _ => some .a) h.sem 31
    portA := { acc := some ⟨false, Reg.shpSem.addr 31 0, 0xF, 0, .atCore, false⟩ } })

theorem wit_SemaphoreReadAcquires : 31 < holding.sh.sem.length ∧ holding.portOpen .a = true ∧ up.portOpen .b = true ∧
    portLow.portOpen .a = false ∧ up.portOpen .a = true ∧
    holding.sh.atCore .a false (Reg.shpSem.addr 31 0) = true ∧ up.sh.sem.getD 0 none = none ∧ 0 < up.sh.sem.length := by decide +kernel

theorem wit_SemaphoreReleaseByHolder : 31 < holding.sh.sem.length ∧ holding.sh.sem.getD 31 none = some .a ∧
    holding.portOpen .a = true ∧ holding.portOpen .b = true ∧
    holding.sh.sem.getD 31 none ≠ some .b ∧ F.shpSem_RELEASE.wo 0 1 = 0 ∧ F.shpSem_RELEASE.wo 1 0 = 0 := by decide +kernel

theorem wit_ExpertKeyAndUnlocks : (0 : Nat) < 15 ∧ (14 : Nat) < 15 ∧ up.portOpen .a = true ∧
    ((up.onSh (fun h => { h with portA := { acc := some ⟨true, Reg.shpExpert.addr 0 0, 0xF, 1, .atCore, true⟩ } })).sh.armedFor .a
      (Reg.shpExpert.addr 0 0) = true) := by decide +kernel

theorem wit_MailboxHandshake : 7 < (up.sh.mboxOut .a).data.length ∧ up.portOpen .a = true ∧ (0x200 : Word).getLsbD 9 = true ∧
    (1 : Word).getLsbD 9 = false := by decide +kernel

theorem wit_DoorbellSetsPeerBits : (31 : Nat) < 32 ∧ (8 : BitVec 4).getLsbD (31 / 8) = true ∧ up.portOpen .a = true ∧
    (0x80000000 : Word).getLsbD 31 = true := by decide +kernel

theorem wit_FieldsFollowAccessCodes : (∃ f ∈ Reg.pwrEvt.fields, f.lo ≤ 0 ∧ 0 ≤ f.hi) ∧
    (∃ k, k < 32 ∧ ∀ f, f ∈ Reg.pwrVeto.fields → ¬ (f.lo ≤ k ∧ k ≤ f.hi)) := by
  refine ⟨by decide +kernel, 31, by decide +kernel, by decide +kernel⟩

theorem wit_PlainRegisterWrite :
    Reg.ofAddr (Reg.timRate.addr 7 0) = some (.timRate, 7, 0) ∧ up.reaches (.port .a) (Reg.timRate.addr 7 0) true = true ∧
    up.dp.hasReg .timRate 7 0 = true ∧ domainOf (Reg.timRate.addr 7 0) ≠ 0 ∧ up.portOpen .a = true ∧
    (up.onSh (fun h => h.modDom (domainOf (Reg.timRate.addr 7 0)) (fun _ => ⟨false, false, true, false⟩))).reaches (.port .a)
      (Reg.timRate.addr 7 0) true = false ∧
    (up.onSh (fun h => h.modDom (domainOf (Reg.timRate.addr 7 0)) (fun _ => ⟨false, false, true, false⟩))).portOpen .a = true ∧
    portLow.portOpen .a = false ∧ Reg.ofAddr (Reg.shpIntEn.addr 0 0) = some (.shpIntEn, 0, 0) ∧
    Reg.ofAddr (Reg.shpIntRoute.addr 0 0) = some (.shpIntRoute, 0, 0) ∧
    Reg.ofAddr (Reg.shpDbInMask.addr 0 0) = some (.shpDbInMask, 0, 0) := by decide +kernel

theorem wit_PowerOnResetStartsColdStart : up.sh.blkN = true := by decide +kernel

/-- A block held in its block reset. -/
def blockLow : State := up.onSh (fun h => { h with blkN := false })

theorem wit_BlockResetKeepsPowerOnOnly : up.sh.blkN = true ∧ blockLow.sh.blkN = false ∧ 9 < blockLow.sh.doms.length ∧
    blockLow.sh.avsRun = none := by decide +kernel

/-! ## Witnesses: the power sequencer -/

/-- The block in RUN with a master's AVSBus frame running. -/
def frameRuns : State := up.onSh (fun h => { h with avsRun := some (⟨1, 0, 0⟩, false) })

/-- A cold start that waits at a step. -/
def coldAt (l : List SeqStep) : State :=
  State.reset.onSh (fun h => { h with seq := { kind := .cold, todo := l, started := true }, avsRun := none })

theorem wit_AvsFramesReported : frameRuns.sh.avsRun = some (⟨1, 0, 0⟩, false) ∧
    State.reset.sh.avsRun = some (⟨3, 0, 750⟩, true) ∧
    (∃ r, State.reset.sh.seq.todo = .avs 0 750 :: .settle :: r) ∧
    (coldAt [.settle, .clkSel false, .clkUp [0, 1, 2, 3]]).sh.seq.started = true ∧
    (coldAt [.settle, .clkSel false, .clkUp [0, 1, 2, 3]]).sh.selCore = false ∧
    (coldAt [.settle, .clkSel false, .clkUp [0, 1, 2, 3]]).sh.clks.length = 4 ∧
    (∀ x, x < 4 → ((coldAt [.settle, .clkSel false, .clkUp [0, 1, 2, 3]]).sh.clk x).ack = false) := by
  refine ⟨by decide +kernel, by decide +kernel, ⟨_, rfl⟩, by decide +kernel⟩

theorem wit_ClockAndDomainInputs : 2 < State.reset.sh.clks.length ∧ (State.reset.sh.clk 2).ack ≠ (State.reset.sh.clk 2).req ∧
    19 < (up.onSh (fun h => h.modDom 19 (fun p => { p with pwrReq := false }))).sh.doms.length ∧
    ((up.onSh (fun h => h.modDom 19 (fun p => { p with pwrReq := false }))).sh.dom 19).ready ≠
      ((up.onSh (fun h => h.modDom 19 (fun p => { p with pwrReq := false }))).sh.dom 19).pwrReq ∧
    19 ∉ (up.onSh (fun h => h.modDom 19 (fun p => { p with pwrReq := false }))).sh.seq.lost ∧
    (coldAt [.clkUp [3]]).sh.awaitsClk 3 = true ∧ (coldAt [.clkUp [3]]).sh.seq.cold = true ∧
    (coldAt [.clkUp [3]]).sh.seq.failed = false ∧ (coldAt [.up 19]).sh.awaitsReady 19 = true := by decide +kernel

theorem wit_ColdStartPhases : (coldAt [.memory raiseOrder true, .logic true]).sh.seq.started = true ∧
    (coldAt [.logic true, .iso 19]).sh.seq.started = true ∧ ((coldAt [.logic true, .iso 19]).sh.dom 19).iso = true ∧
    19 ∉ (coldAt [.logic true, .iso 19]).sh.seq.faulted ∧
    1 < (coldAt [.iso 1, .iso 2]).sh.doms.length ∧ 18 < (coldAt [.iso 18, .iso 1]).sh.doms.length ∧
    ((coldAt [.iso 1, .iso 2]).sh.dom 2).iso = true ∧
    (coldAt [.iso 17]).sh.seq.kind = .cold ∧ (coldAt [.iso 17]).sh.seq.cruiseExit = false ∧
    (coldAt [.up 1]).sh.seq.cold = true ∧ (coldAt [.up 1]).sh.attemptWaits = true ∧
    (coldAt [.retry]).sh.seq.todo = .retry :: [] ∧ (coldAt [.retry]).sh.avsRun = none := by decide +kernel

/-- The block with PWR_MODE.TARGET at a code and the veto window at a number of microseconds. -/
def asked (target window : Nat) : State :=
  up.onSh (fun h => (h.wr F.pwrMode_TARGET target).wr F.pwrVetoWindow_US window)

theorem wit_PowerWaitDecides : (asked 2 0).portOpen .a = true ∧ (asked 6 0).portOpen .b = true ∧
    (asked 1 0).portOpen .a = true ∧ (asked 2 5).portOpen .b = true ∧ PState.ofCode ((asked 6 0).sh.rd F.pwrMode_TARGET) = none ∧
    PState.ofCode ((asked 2 0).sh.rd F.pwrMode_TARGET) = some .doze ∧ (asked 2 0).sh.seq.kind = .none ∧
    (asked 2 0).sh.seq.stopped = false ∧ (asked 2 0).sh.flag F.pwrMode_CRUISE = false ∧
    ((asked 2 0).onSh (fun h => h.wr F.pwrMode_CRUISE 1)).sh.flag F.pwrMode_CRUISE = true ∧
    ((asked 2 0).onSh (fun h => h.wr F.pwrMode_CRUISE 1)).sh.flag F.fldStat_CRUISE_OK = false ∧
    (asked 2 0).sh.seq.state.asleep = false ∧ PState.doze.asleep = true ∧
    (asked 2 0).sh.rd F.pwrVetoWindow_US = 0 ∧ (asked 2 5).sh.rd F.pwrVetoWindow_US ≠ 0 ∧
    PState.ofCode ((asked 1 0).sh.rd F.pwrMode_TARGET) = some .trim ∧ PState.trim ≠ (asked 1 0).sh.seq.state ∧
    (asked 1 0).sh.seq.cruiseOn = false ∧ (asked 1 0).sh.seq.cruiseExit = false := by decide +kernel

/-- The block in a kind of sequence towards a state. -/
def seqIn (k : SeqKind) (p : PState) : State := up.onSh (fun h => h.onSeq (fun q => { q with kind := k, latched := p }))

theorem wit_EntryPhases : (seqIn .window .doze).portOpen .b = true ∧ (seqIn .window .doze).sh.seq.kind = .window ∧ (seqIn .window .doze).sh.seq.cruiseExit = false ∧
    up.sh.seq.kind ≠ .window ∧ (seqIn .quiesce .doze).sh.seq.kind = .quiesce ∧ (seqIn .quiesce .doze).blocking = 0 ∧
    (seqIn .quiesce .doze).sh.clks.length = 4 ∧ ((seqIn .quiesce .doze).sh.clk 0).ack = true ∧
    (seqIn .quiesce .hibernate).blocking = 0 ∧ ((seqIn .quiesce .hibernate).sh.dom 1).ready = true ∧
    1 ∉ (seqIn .quiesce .hibernate).sh.seq.faulted ∧ (seqIn .quiesce .hibernate).sh.link.busyWith 1 = false := by decide +kernel

/-- A block asleep in HIBERNATE with its clocks stopped, at a step of a wake if `l` has one. -/
def asleepAt (k : SeqKind) (l : List SeqStep) : State :=
  State.reset.onSh (fun h => { (h.wr F.pwrWakeTimer_MS 1).wr F.pwrWakeEn_TIMER 1 with
    seq := { kind := k, todo := l, started := !l.isEmpty, state := .hibernate }, avsRun := none })

/-- The sleeping block in DOZE whose RUN column writes 800 mV on rail 1 and whose DOZE column addresses it. -/
def dozing : State := (asleepAt .none []).onSh (fun h =>
  { ((h.wr F.pwrVolt_MV 800 5).wr F.pwrVolt_MV 700 7) with seq := { h.seq with state := .doze } })

/-- The sleeping block that latched the cruise point, with clk_core acknowledged, under an image that admits it or not. -/
def cruiseAsleep (ok : Bool) : State := (asleepAt .none []).onSh (fun h =>
  { h.wr F.fldStat_CRUISE_OK (b2n ok) with
      seq := { h.seq with state := .watch, retCruise := true }, clks := [⟨true, true⟩, ⟨false, false⟩, ⟨true, true⟩, ⟨false, false⟩] })

theorem wit_WakesAndFaults_timer : (asleepAt .none []).sh.seq.state.asleep = true ∧ (asleepAt .none []).sh.seq.state ≠ .off ∧
    (asleepAt .none []).sh.rd F.pwrWakeTimer_MS ≠ 0 ∧ (asleepAt .none []).sh.flag F.pwrWakeEn_TIMER = true ∧
    (asleepAt .none []).sh.seq.kind = .none ∧ (asleepAt .none []).sh.avsRun = none ∧ (asleepAt .none []).sh.clks.length = 4 ∧
    ((asleepAt .none []).sh.clk 0).ack = false ∧ (asleepAt .none []).sh.railSteps 0 = [] ∧ (asleepAt .none []).sh.selCore = false ∧
    (asleepAt .wake [.up 1]).sh.seq.kind ≠ .none ∧ dozing.sh.railSteps 2 ≠ [] ∧ dozing.sh.railSteps 0 = [.avs 1 800] ∧
    dozing.sh.seq.state = .doze ∧ (dozing.sh.clk 0).ack = false ∧
    ((cruiseAsleep true).sh.clk 0).ack = true ∧ ((cruiseAsleep true).sh.clk 1).ack = false ∧
    (cruiseAsleep true).sh.selCore ≠ ((cruiseAsleep true).sh.seq.retCruise && (cruiseAsleep true).sh.flag F.fldStat_CRUISE_OK) ∧
    (cruiseAsleep true).sh.railSteps 1 = [] ∧ (cruiseAsleep false).sh.flag F.fldStat_CRUISE_OK = false ∧
    (cruiseAsleep false).sh.seq.retCruise = true ∧ up.sh.seq.state.asleep = false := by decide +kernel

theorem wit_WakesAndFaults :
    (asleepAt .wake [.up 1]).sh.seq.kind = .wake ∧ (asleepAt .wake [.up 1]).sh.attemptWaits = true ∧
    (asleepAt .wake [.up 1]).sh.seqHead = some (.up 1) ∧ (asleepAt .wake [.up 1]).sh.seq.attempt + 1 < 3 ∧
    (asleepAt .wake [.clkUp [0]]).sh.seqHead = some (.clkUp [0]) ∧ (asleepAt .wake [.clkUp [0]]).sh.attemptWaits = true ∧
    (asleepAt .wake [.avs 0 750]).sh.seqHead = some (.avs 0 750) ∧ (asleepAt .wake [.avs 0 750]).sh.attemptWaits = true ∧
    (asleepAt .wake [.retry]).sh.seq.started = true ∧ (asleepAt .wake [.retry]).sh.seq.wakeCruise = false ∧
    (asleepAt .wake [.retry]).sh.selCore = false ∧ (asleepAt .wake [.retry]).sh.railSteps 0 = [] ∧
    (asleepAt .wake [.retry]).sh.clks.length = 4 ∧ (∀ x, x < 4 → ((asleepAt .wake [.retry]).sh.clk x).ack = false) ∧
    up.sh.doms.length = 20 ∧ (up.sh.dom 1).ready = true ∧ (up.sh.dom 1).pwrReq = true ∧ (up.sh.dom 18).ready = true ∧
    (up.sh.dom 18).pwrReq = true ∧ (up.sh.dom 19).ready = true ∧ (up.sh.dom 19).pwrReq = true ∧ up.sh.seq.todo = [] ∧
    up.sh.seq.lost = [] ∧ up.sh.link.busyWith 1 = false ∧ up.sh.link.busyWith 18 = false ∧ up.sh.link.busyWith 19 = false ∧
    up.portOpen .a = true ∧ (up.onSh (fun h => h.setPort .a { h.port .a with rstN := false })).portOpen .a = false ∧
    (State.reset.sh.dom 18).ready = false := by decide +kernel

theorem wit_WakesAndFaults_tally :
    (up.onSh (fun h => { h with portA := { acc := some ⟨false, Reg.pwrSleepTallyLo.addr 0 0, 0xF, 0, .atCore, false⟩ } })).sh.atCore
      .a false (Reg.pwrSleepTallyLo.addr 0 0) = true := by decide +kernel

/-- The block in TRIM. -/
def trimmed : State := up.onSh (fun h => h.onSeq (fun q => { q with state := .trim }))

theorem wit_TrimAndVoltageCommands : up.portOpen .a = true ∧ trimmed.sh.seq.state = .trim ∧ (31 < 32 ∨ 38 ≤ 31) ∧ trimmed.dp.penIdle 31 = true ∧
    (39 < 32 ∨ 38 ≤ 39) ∧ trimmed.dp.penIdle 39 = true ∧ up.sh.avsRun = none ∧ up.sh.avsWait = none := by decide +kernel

/-! ## Witnesses: fold loader -/

/-- An image of one LANE_CARVE section, for pen 31, that carves nothing, for any block version; full or partial. Its CRCs
are those of the CRC-32C of R120, computed outside the model. -/
def smallImage (part : Bool) : List Byte :=
  [0x49, 0x46, 0x44, 0x51, 0, 0, 1, 0, 0, 0, 0, 0, 255, 255, 255, 255, 92, 0, 0, 0, 1, 0, 0, 0] ++
  (if part then [127, 36, 237, 141, 1, 0, 0, 0] else [125, 203, 227, 249, 0, 0, 0, 0]) ++ List.replicate 32 0 ++
  [7, 0, 31, 0, 16, 0, 0, 0, 234, 154, 112, 66] ++ List.replicate 16 0

/-- The loader of a block whose store holds the full image at 0 and the partial one at 0x400. -/
def stored : Loader :=
  { store := { cells := (List.range 92).zip (smallImage false) ++ ((List.range 92).map (· + 0x400)).zip (smallImage true) } }

/-- A block in RUN with that store, its loader in a state. -/
def fldIn (st : FldState) (len pos : Nat) : State :=
  up.onSh (fun h => { h with fld := { stored with state := st, len := len, pos := pos, pen := 31, ofs := 0x400 } })

/-- The same block with an image in force and registers set for a command. -/
def fldForce (st : FldState) : State :=
  (fldIn st 0 0).onSh (fun h => ((((h.wr F.fldStat_IN_FORCE 1).wr F.fldForceLen_LEN 92).wr F.fldOfs_WOFS 0x100).wr
    F.fldLen_LEN 32768).wr F.fldStat_STORED_OK 1)

/-- FLD_LEN at a length, no image in force. -/
def fldLen (n : Nat) : State := (fldIn .idle 0 0).onSh (fun h => h.wr F.fldLen_LEN n)

/-- FLD_CMD is written where a command of the loader stands. -/
def takesCmd (s : State) : Bool := s.reaches (.port .a) (Reg.fldCmd.addr 0 0) true

theorem wit_StagingCommands : (fldLen 4).reaches (.port .b) (Reg.fldCmd.addr 0 0) true = true ∧ takesCmd (fldLen 32768) = true ∧
    takesCmd (fldLen 0) = true ∧ takesCmd (fldLen 32772) = true ∧ takesCmd (fldForce .idle) = true ∧
    takesCmd ((fldForce .idle).onSh (fun h => h.wr F.fldOfs_WOFS 22)) = true ∧ takesCmd (fldIn .check 0 0) = true ∧ (fldLen 4).sh.fld.state = .idle ∧
    (fldLen 4).sh.stageRangeOk = true ∧ (fldLen 32768).sh.stageRangeOk = true ∧ (fldLen 0).sh.stageRangeOk = false ∧
    (fldLen 32772).sh.stageRangeOk = false ∧ (fldLen 4).sh.flag F.fldStat_IN_FORCE = false ∧
    (fldForce .idle).sh.stageRangeOk = true ∧ (fldForce .idle).sh.flag F.fldStat_IN_FORCE = true ∧
    (fldForce .idle).sh.rd F.fldForceLen_LEN ≤ (fldForce .idle).sh.fldByte ∧
    ((fldForce .idle).onSh (fun h => h.wr F.fldOfs_WOFS 22)).sh.fldByte <
      ((fldForce .idle).onSh (fun h => h.wr F.fldOfs_WOFS 22)).sh.rd F.fldForceLen_LEN ∧
    (fldIn .check 0 0).sh.fld.state ≠ .idle ∧ (fldIn .pull 1 0).sh.fld.state = .pull ∧
    (fldIn .pull 1 0).sh.fld.len = (fldIn .pull 1 0).sh.fld.pos + 1 ∧ (fldIn .peek 8192 8191).sh.fld.state = .peek ∧
    (fldIn .peek 8192 8191).sh.fld.len = (fldIn .peek 8192 8191).sh.fld.pos + 1 ∧
    (fldIn .pull 1 0).sh.fld.busyRefused = false := by decide +kernel

/-- A header passes its tests against every version in its range. -/
theorem headerErr_none (h : List Byte) (room v : Nat) (part : Bool) (h1 : le h 0 4 = 0x51444649) (h2 : le h 4 4 = 0x00010000)
    (h3 : le h 8 4 = 0) (h4 : le h 12 4 = 0xFFFFFFFF) (hv : v < 2 ^ 32)
    (h5 : (le h 0x10 4 % 4 = 0 && 76 ≤ le h 0x10 4 && le h 0x10 4 ≤ 1048576 && le h 0x10 4 ≤ room) = true)
    (h6 : (1 ≤ le h 0x14 4 && le h 0x14 4 ≤ 1023) = true) (h7 : le h 0x1C 4 < 2) (h8 : zeros h 0x28 24 = true)
    (h9 : bit (le h 0x1C 4) 0 = part) : headerErr h room v part = none := by
  have hv' : v ≤ 0xFFFFFFFF := by omega
  simp only [headerErr, h1, h2, h3, h4, h5, h6, h7, h8, h9, Nat.zero_le, hv', decide_true, if_true, firstFail]

theorem wit_image_ok : (fldIn .check 0 0).sh.fld.check 0 none = none := by
  have h : headerErr ((fldIn .check 0 0).sh.fld.store.reads 0 64) (1048576 - 0) blockVersion false = none := by
    exact headerErr_none _ _ _ _ (by decide +kernel) (by decide +kernel) (by decide +kernel) (by decide +kernel)
      (BitVec.isLt _) (by decide +kernel) (by decide +kernel) (by decide +kernel) (by decide +kernel) (by decide +kernel)
  have b : bodyErr ((fldIn .check 0 0).sh.fld.image 0) none [] = none := by decide +kernel
  unfold Loader.check
  rw [show (none : Option Nat).isSome = false from rfl, h]
  exact b

theorem wit_partial_ok : (fldForce .idle).sh.fld.check (fldForce .idle).sh.fldByte (some 31) = none := by
  have e : (fldForce .idle).sh.fldByte = 0x400 := by decide +kernel
  rw [e]
  have h : headerErr ((fldForce .idle).sh.fld.store.reads 0x400 64) (1048576 - 0x400) blockVersion true = none := by
    exact headerErr_none _ _ _ _ (by decide +kernel) (by decide +kernel) (by decide +kernel) (by decide +kernel)
      (BitVec.isLt _) (by decide +kernel) (by decide +kernel) (by decide +kernel) (by decide +kernel) (by decide +kernel)
  have b : bodyErr ((fldForce .idle).sh.fld.image 0x400) (some 31) ((fldForce .idle).sh.fld.sects 0) = none := by decide +kernel
  unfold Loader.check
  rw [show (some 31 : Option Nat).isSome = true from rfl, h]
  exact b

/-- An image checked, none in force, the digest locked or not (to a digest that is not its own). -/
def fldStored (lock : Nat) : State :=
  (fldIn .idle 0 0).onSh (fun h => ((h.wr F.fldStat_STORED_OK 1).wr F.fldCtl_DIGEST_LOCK lock).wr F.fldExpect_H 1 7)

theorem wit_ChecksAndApplies : takesCmd (fldIn .idle 0 0) = true ∧ takesCmd (fldForce .idle) = true ∧ (fldIn .check 0 0).sh.fld.state = .check ∧ (fldIn .check 0 0).sh.fld.check 0 none = none ∧
    (∃ e, ((fldIn .check 0 0).onSh (fun h => h.onFld (fun l => { l with store := {} }))).sh.fld.check 0 none = some e) ∧
    (fldIn .idle 0 0).sh.flag F.fldStat_STORED_OK = false ∧ (fldForce .idle).sh.flag F.fldStat_IN_FORCE = true ∧
    (fldForce .idle).sh.flag F.fldStat_STORED_OK = true ∧ (fldStored 0).sh.flag F.fldCtl_DIGEST_LOCK = false ∧
    powerPlanOf ((fldIn .idle 0 0).sh.fld.sects 0) = none ∧
    powerPlanOf ((fldIn .apply 4 4).sh.fld.sects 0) = none ∧
    (fldStored 0).sh.flag F.fldStat_STORED_OK = true ∧ (fldStored 0).sh.flag F.fldStat_IN_FORCE = false ∧
    takesCmd (fldStored 0) = true ∧ powerPlanOf ((fldStored 0).sh.fld.sects 0) = none ∧
    takesCmd (fldStored 1) = true ∧ (fldStored 1).sh.flag F.fldCtl_DIGEST_LOCK = true ∧ (fldStored 1).sh.digestOk = false ∧
    (fldIn .apply 4 4).sh.fld.state = .apply ∧ (fldIn .apply 4 4).sh.fld.pos = (fldIn .apply 4 4).sh.fld.len := by
  refine ⟨by decide +kernel, by decide +kernel, by decide +kernel, wit_image_ok, ⟨_, rfl⟩, ?_⟩
  decide +kernel

/-- The block with the domain of pen 31 off. -/
def penOff : State :=
  (fldForce .idle).onSh (fun h => { h with doms := h.doms.set (penDomain 31) {} })

theorem wit_RefoldPhases : (31 : Nat) < 64 ∧ takesCmd (fldForce .idle) = true ∧ takesCmd (fldForce .hold) = true ∧ (fldForce .idle).sh.fld.state = .idle ∧
    (fldForce .idle).sh.flag F.fldStat_IN_FORCE = true ∧ (fldForce .idle).sh.domOn (penDomain 31) = true ∧
    (fldForce .idle).sh.flag F.fldCtl_DIGEST_LOCK = false ∧
    up64 ((fldForce .idle).sh.rd F.fldForceLen_LEN) ≤ (fldForce .idle).sh.fldByte ∧
    (fldForce .idle).sh.fldByte + up64 ((fldForce .idle).sh.fld.lengthAt (fldForce .idle).sh.fldByte) +
      ((fldForce .idle).sh.fld.spliced (fldForce .idle).sh.fldByte 31).length ≤ 1048576 ∧
    penOff.sh.domOn (penDomain 31) = false ∧ takesCmd penOff = true ∧ penOff.sh.fld.state = .idle ∧
    penOff.sh.flag F.fldStat_IN_FORCE = true ∧
    (fldForce .hold).sh.fld.state = .hold ∧ (fldForce .hold).dp.passesOf (fldForce .hold).sh.fld.pen = [] ∧
    (fldForce .refold).sh.fld.pos = (fldForce .refold).sh.fld.len ∧ (fldForce .splice).sh.fld.state = .splice ∧
    (fldForce .splice).sh.seq.cruiseOn = false ∧ (fldForce .restore).sh.fld.state = .restore := by decide +kernel

/-! ## Witnesses: lanes -/

/-- A block with ports on slots 0 and 511 of one lane at 25 Gbit/s with low-power idle, and on slots 16 and 17 of two
lanes at 100 Gbit/s; signal on every lane; links in a state with their locks. -/
def linked (st lock : Nat) : State :=
  up.onDp (fun d =>
    let pm (i : Nat) : List Byte := leBytes 2 i ++ List.replicate 6 0 ++ [8] ++ List.replicate 7 0
    let d := { d with carve := [(0, 0x84), (16, 0xA8), (17, 0xA8), (511, 0x84)]
                      portMode := [(0, pm 0), (16, pm 0), (511, pm 15)]
                      sigDet := [(0, true), (16, true), (17, true), (511, true)] }
    [(0, 0), (1, 0), (31, 15)].foldl (fun d x =>
      ((d.wr F.penLinkStat_STATE st x.1 x.2).wr F.penLinkStat_LOCK (if x.1 = 1 ∧ lock = 1 then 3 else lock) x.1 x.2)) d)

/-- The same with the signal gone. -/
def dark (st : Nat) : State := (linked st 1).onDp (fun d => { d with sigDet := [] })

theorem wit_LinkStateMachine : (linked 1 0).dp.hasLink 511 = true ∧ (linked 1 0).dp.linkState 511 = LS.noSignal ∧
    (linked 1 0).dp.laneLoss 511 = false ∧ (linked 2 0).dp.linkState 511 = LS.locking ∧ (linked 2 0).dp.laneLoss 511 = false ∧
    (linked 3 1).dp.linkSound 511 LS.aligning = true ∧ (linked 3 1).dp.width 511 = 1 ∧
    (linked 3 1).dp.linkSound 16 LS.aligning = true ∧ (linked 3 1).dp.width 16 ≠ 1 ∧
    (linked 4 1).dp.linkSound 0 LS.upHold = true ∧ (dark 2).dp.hasLink 0 = true ∧ LS.locking ≤ (dark 2).dp.linkState 0 ∧
    (dark 2).dp.laneLoss 0 = true ∧ LS.aligning ≤ (linked 3 1).dp.linkState 0 ∧ (linked 3 1).dp.laneLoss 0 = false ∧
    (linked 3 1).dp.flag F.penLinkStat_RX_LPI 0 0 = false ∧ (linked 5 1).dp.linkSound 16 LS.up = true ∧ (linked 5 1).dp.loopMode 16 ≠ 1 ∧ (linked 6 1).dp.loopMode 16 ≠ 1 ∧
    (linked 6 1).dp.linkSound 16 LS.remoteFault = true := by decide +kernel

/-- A link in UP that is idle in low power in both directions. -/
def lpi : State :=
  (linked 5 1).onDp (fun d => (d.wr F.penLinkStat_TX_LPI 1 31 15).wr F.penLinkStat_RX_LPI 1 31 15)

theorem wit_LowPowerIdle : (linked 5 1).dp.hasLink 511 = true ∧ (linked 5 1).dp.pmLpiEn 511 = true ∧
    (linked 5 1).dp.lpiOf 511 ≠ .none ∧ (linked 5 1).dp.pmGated 511 = false ∧ (linked 5 1).dp.loopMode 511 = 0 ∧
    (linked 5 1).dp.linkState 511 = LS.up ∧ (linked 5 1).dp.lpiBlocks 511 = false ∧
    (linked 5 1).dp.frameReady (linked 5 1).lead 511 = false ∧
    (linked 5 1).dp.lpiOf 16 = .fastWake ∧ (linked 4 1).dp.hasLink 16 = true ∧ LS.upHold ≤ (linked 4 1).dp.linkState 16 ∧
    lpi.dp.flag F.penLinkStat_TX_LPI (511 / 16) (511 % 16) = true ∧ lpi.dp.lpiOf 511 = .deepSleep ∧
    lpi.dp.flag F.penLinkStat_RX_LPI (511 / 16) (511 % 16) = true := by decide +kernel

/-- A link in low-power idle for which a pause frame waits. -/
def lpiFrame : State := lpi.onDp (fun d => d.setTx 511 { d.txPort 511 with ctrlPend := true })

theorem wit_LowPowerIdle_wake : lpiFrame.dp.flag F.penLinkStat_TX_LPI (511 / 16) (511 % 16) = true ∧
    lpiFrame.dp.frameReady lpiFrame.lead 511 = true := by decide +kernel

/-- A link in low-power idle whose signal is gone. -/
def lpiDark : State := lpi.onDp (fun d => { d with sigDet := [] })

theorem wit_LowPowerIdle_timeout : lpiDark.dp.flag F.penLinkStat_RX_LPI (511 / 16) (511 % 16) = true ∧
    lpiDark.dp.hasLink 511 = true ∧ LS.locking ≤ lpiDark.dp.linkState 511 ∧ lpiDark.dp.sigOf 511 ≠ lpiDark.dp.allLanes 511 ∧
    lpiDark.dp.flag F.penLinkCtl_SIG_DET_IGNORE (511 / 16) (511 % 16) = false := by decide +kernel

theorem wit_LinkControlAndPatterns : (linked 5 1).reaches (.port .a) (Reg.penLinkCtl.addr (511 / 16) (511 % 16)) true = true ∧
    (linked 0 0).reaches .apply (Reg.penLinkCtl.addr (511 / 16) (511 % 16)) true = true ∧ (linked 0 0).dp.carved 511 = true ∧
    (linked 5 1).dp.carved 511 = true ∧ (linked 0 0).dp.linkState 511 = LS.disabled ∧ (linked 5 1).dp.linkState 511 ≠ LS.disabled ∧
    (linked 5 1).dp.loopMode 511 ≠ 1 ∧ (linked 5 1).dp.loopMode 511 ≠ 2 := by decide +kernel

/-- A disabled port whose lane checks pattern 8, locked. -/
def checking : State :=
  (linked 0 0).onDp (fun d => ((d.wr F.penLinkCtl_ADMIN 0 31 15).wr F.penLaneTest_RX_PAT 8 31 15).wr F.penLaneTest_CHK_LOCK 1 31 15)

theorem wit_LinkControlAndPatterns_checker : checking.dp.checkerRuns 511 = true ∧ (256 ≤ 256) ∧
    checking.dp.flag F.penLaneTest_CHK_LOCK (511 / 16) (511 % 16) = true ∧ checking.dp.slotUsed 511 = true ∧
    checking.dp.linkState (checking.dp.portOfSlot 511) = LS.disabled ∧ (7 ≤ 7 ∧ (7 : Nat) < 8) ∧ (13 ≤ 13 ∧ (13 : Nat) < 14) := by
  decide +kernel

/-! ## Witnesses: receive -/

/-- A frame of 60 bytes without its FCS, from 02:00:00:00:00:02 to 02:00:00:00:00:01. -/
def body60 : List Byte := [2, 0, 0, 0, 0, 1, 2, 0, 0, 0, 0, 2, 8, 0] ++ List.replicate 46 0

/-- The FCS of that frame, and its mCRC, computed outside the model. -/
def fcs60 (m : Bool) : List Byte := if m then [18, 181, 179, 152] else [237, 74, 179, 152]

/-- A frame in reception on port 0 that was accepted as frame 0; `n` of its bytes have arrived. -/
def receiving (n : Nat) (filtered : Bool) : State :=
  (linked 5 1).onDp (fun d =>
    ({ d with frames := [(0, { pen := 0, port := 0, staged := true, resv := 1536 })], nextFrame := 1 }).setRx 0
      { express := some { raw := body60.take n, fid := some 0, accepted := true, filtered := filtered } })

/-- The same on a port with the address filter on. -/
def filtering (n : Nat) : State := (receiving n false).onDp (fun d => d.wr F.penRxFiltCtl_FILT_EN 1 0 0)

/-- A frame in reception that staging did not accept. -/
def refused : State :=
  (linked 5 1).onDp (fun d => d.setRx 0 { express := some { raw := body60.take 5 } })

/-- A member of a flock whose link 0 is port 0, with a flock frame in reception. -/
def flocking (kind : Nat) : State :=
  (receiving 0 true).onDp (fun d =>
    ({ d with flockRole := leBytes 2 0 ++ [1, 0] ++ leBytes 2 7 ++ leBytes 2 0 ++ leBytes 8 1 ++ leBytes 2 0x8000 ++
        List.replicate 78 0 }).setRx 0
      { express := some { raw := body60.take 12 ++ [0x88, 0xB5, BitVec.ofNat 8 (0x10 + kind), 1, 0], fid := some 0
                          accepted := true, filtered := true } })

theorem wit_FrameStartsAndFilter : (linked 5 1).dp.carved 511 = true ∧ (linked 5 1).dp.rxOpen 511 = true ∧ (linked 5 1).dp.loopMode 511 ≠ 1 ∧
    (linked 5 1).dp.stageAccepts (penOf 511) ((linked 5 1).dp.reservation 511) = true ∧
    ((receiving 5 false).dp.rxPort 0).express.isSome = true ∧ 6 ≤ (body60.take 5 ++ [1]).length ∧
    (body60.take 5 ++ [1]).length < 15 ∧ (filtering 5).dp.loopMode 0 ≠ 1 ∧ refused.dp.loopMode 0 ≠ 1 ∧ (flocking 0).dp.loopMode 0 ≠ 1 ∧
    ((receiving 5 false).dp.rxPort 0).express.map (·.frag) = some [] ∧ 6 ≤ (body60.take 5 ++ [1, 0, 0, 0, 0, 0, 0, 0, 0]).length ∧
    (body60.take 5 ++ [1, 0, 0, 0, 0, 0, 0, 0, 0]).length < 15 ∧ (filtering 5).dp.filterDrops 0 (daOf (body60.take 6)) = true ∧
    (receiving 5 false).dp.filterDrops 0 (daOf (body60.take 6)) = false ∧
    (refused.dp.rxPort 0).express.map (fun y => (y.accepted, y.fid, y.filtered, y.dropped)) = some (false, none, false, false) ∧
    ((receiving 5 false).dp.rxPort 0).express.map (fun y => (y.accepted, y.filtered, y.dropped)) = some (true, false, false) := by
  decide +kernel

theorem wit_FrameStartsAndFilter_full :
    (up.onDp (fun d => { d with frames := (List.range 128).map (fun f => (f, { pen := 0, port := 0, staged := true, inPen := 0 })) })).dp.stageAccepts
      0 1536 = false := by decide +kernel

theorem wit_FrameStartsAndFilter_ready : ((receiving 60 true).dp.rxPort 0).express.map (fun y =>
      (y.filtered, y.fid, y.flk)) = some (true, some 0, .plain) ∧
    ((receiving 60 true).dp.frame 0).map (fun z => (z.strip, z.ready)) = some (none, false) ∧
    (receiving 60 true).watching = false ∧ (receiving 60 true).dp.flkLinkOf 0 = none ∧
    64 ≤ (body60 ++ fcs60 false).length ∧ (receiving 60 true).dp.isControl (penOf 0) (body60 ++ fcs60 false) = false ∧
    (∀ g ∈ (receiving 60 true).dp.readyOf 0, (receiving 60 true).dp.meets .ready g = false) ∧
    256 ≤ (body60 ++ List.replicate 200 0).length ∧ (receiving 60 true).dp.loopMode 0 ≠ 1 := by decide +kernel

theorem wit_FrameStartsAndFilter_flock : (flocking 0).dp.flkLinkOf 0 = some 0 ∧ (flocking 0).watching = false ∧
    ((flocking 0).dp.rxPort 0).express.map (fun y => (y.raw.length, y.filtered, y.fid, y.flk)) = some (17, true, some 0, .plain) ∧
    (flocking 0).dp.flkFrame 0 (body60.take 12 ++ [0x88, 0xB5, 0x10, 1, 0, 0]) = true ∧
    (flocking 0).dp.tagsOf 0 (body60.take 12 ++ [0x88, 0xB5, 0x10, 1, 0, 0]) = 0 ∧
    ((flocking 1).dp.flkHeader 0 (body60.take 12 ++ [0x88, 0xB5, 0x11, 1, 0, 0])).1 = .control ∧
    ((flocking 0).dp.flkHeader 0 (body60.take 12 ++ [0x88, 0xB5, 0x10, 1, 0, 0])).1 = .bad := by decide +kernel

theorem wit_FrameEnds : fcsKind (body60 ++ fcs60 false) = .good ∧ (body60 ++ fcs60 false).length = 64 ∧
    (body60 ++ fcs60 false).length ≤ (receiving 60 true).dp.effMaxLen 0 (body60 ++ fcs60 false) ∧
    fcsKind (body60.take 30) ≠ .good ∧ (body60.take 30).length ≤ 63 ∧ (receiving 30 true).dp.isControl (penOf 0) (body60.take 30) = false ∧ (body60.take 60 ++ [1, 2, 3]).length ≤ 63 ∧
    64 ≤ (body60 ++ fcs60 false).length ∧ (receiving 30 true).dp.loopMode 0 ≠ 1 ∧
    ((receiving 30 true).dp.rxPort 0).express.map (fun y => (y.dropped, y.accepted)) = some (false, true) := by decide +kernel

/-- A fragment in reception on the reassembly path of port 0. -/
def fragment : State :=
  (linked 5 1).onDp (fun d => d.setRx 0
    { pre := some { frag := body60, filtered := true, accepted := true, inFrag := true, fid := some 0 } })

theorem wit_FrameEnds_fragment : (fragment.dp.rxPort 0).express = none ∧ fragment.dp.loopMode 0 ≠ 1 ∧ (fragment.dp.rxPort 0).mmFrame = none ∧
    (fragment.dp.rxPort 0).pre.map (fun y => (y.inFrag, y.filtered, y.flk)) = some (true, true, .plain) ∧
    fragment.dp.flkLinkOf 0 = none ∧ fcsKind (body60 ++ fcs60 true) = .mcrc := by decide +kernel

/-- A port with a class in a pause state. -/
def pausing (c : Nat) (x : PauseClass) (wd : Bool) : State :=
  (linked 5 1).onDp (fun d => (d.wrBit F.penRxCtl_WD_EN c wd 0 0).setPause 0 c x)

theorem wit_PauseAndStorm : (7 : Nat) < 8 ∧ 7 < ((pausing 7 { st := .paused, quanta := 1, wLimit := true } true).dp.rxPort 0).pause.length ∧
    ((pausing 7 { st := .paused, quanta := 1, wLimit := true } true).dp.pauseOf 0 7).st = .paused ∧ (pausing 7 { st := .paused, quanta := 1, wLimit := true } true).dp.wdEn 0 7 = true ∧
    (pausing 7 { st := .paused, quanta := 1 } false).dp.wdEn 0 7 = false ∧ ((pausing 0 { st := .storm } true).dp.pauseOf 0 0).st = .storm ∧
    ((pausing 7 { st := .paused, quanta := 1, wLimit := true } false).dp.rxPort 0).pause.length = 8 ∧
    (pausing 7 { st := .storm } true).dp.meets .pauseFrame (8 * 0 + 7) = false ∧
    (pausing 7 { st := .paused, quanta := 1, wLimit := true } false).reaches (.port .b) (Reg.penRxCtl.addr (penOf 0) (slotOf 0)) true = true ∧
    (pausing 7 { st := .paused, quanta := 1, wLimit := true } false).dp.carved 0 = true ∧
    (pausing 0 { st := .storm } true).reaches .hdma (Reg.penRxCtl.addr (penOf 0) (slotOf 0)) true = true ∧
    (pausing 0 { st := .storm } true).dp.carved 0 = true ∧ (0 : Word).getLsbD (8 + 0) = false ∧
    ((pausing 7 { st := .paused, quanta := 1, wLimit := true } false).dp.pauseOf 0 7).wLimit = true ∧ (0x8000 : Word).getLsbD (8 + 7) = true := by
  decide +kernel

/-- A port with flow control in a mode and an XOFF state. -/
def flowing (mode xoff : Nat) (t : TxPort) : State :=
  (linked 5 1).onDp (fun d => ((d.wr F.celPortCfg_FC_MODE mode 0).wr F.celFcStat_XOFF xoff 0).setTx 0 t)

theorem wit_ControlFramesSent : (flowing 1 1 {}).dp.fcMode 0 ≠ 0 ∧ (flowing 1 1 {}).dp.fcMode 0 = 1 ∧
    (flowing 1 1 {}).dp.rd F.celFcStat_XOFF 0 ≠ 0 ∧ (flowing 1 1 {}).dp.linkState 0 = LS.up ∧ 511 < 512 ∧
    (linked 5 1).reaches (.port .a) (Reg.celPortCfg.addr 511 0) true = true ∧ (flowing 1 1 { ctrlPend := true }).dp.loopMode 0 ≠ 1 ∧ (linked 5 1).dp.linkState 511 = LS.up ∧
    (flowing 1 1 { ctrlPend := true }).dp.sendable 0 = true ∧ ((flowing 1 1 { ctrlPend := true }).dp.txPort 0).tail = none ∧
    (flowing 1 1 { ctrlPend := true }).dp.inService 0 true = none ∧ (flowing 1 1 { ctrlPend := true }).dp.inService 0 false = none ∧
    (flowing 1 1 { ctrlPend := true }).dp.lpiBlocks 0 = false ∧ ((flowing 1 1 { ctrlPend := true }).dp.fcFrame 0).isSome = true ∧
    (flowing 0 0 { ctrlPend := true }).dp.fcFrame 0 = none ∧ ((flowing 0 0 { respPend := true }).dp.txPort 0).respPend = true ∧
    ((flowing 0 0 { verPend := true }).dp.txPort 0).verPend = true := by decide +kernel

/-- A port that receives a verify or respond frame, in a verification state. -/
def verifying (smd ver tries limit : Nat) : State :=
  (linked 5 1).onDp (fun d => (((d.wr F.penRxCtl_MM_RX_EN 1 0 0).wr F.penMmStat_VERIFY ver 0 0).wr F.penMmStat_TRIES tries 0 0).wr
    F.penMmCtl_VERIFY_LIMIT limit 0 0 |>.setRx 0 { mmFrame := some (smd, List.replicate 60 0) })

theorem wit_MergeVerification : ((verifying 0x07 0 0 1).dp.rxPort 0).mmFrame = some (0x07, List.replicate 60 0) ∧
    mmValid (List.replicate 60 0 ++ [247, 118, 18, 4]) = true ∧ mmValid (List.replicate 60 0 ++ [8, 137, 18, 4]) = false ∧
    (verifying 0x07 0 0 1).dp.flag F.penRxCtl_MM_RX_EN (penOf 0) (slotOf 0) = true ∧
    ((verifying 0x19 1 1 1).dp.rxPort 0).mmFrame = some (0x19, List.replicate 60 0) ∧
    (verifying 0x19 1 1 1).dp.verState 0 = VS.verifying ∧
    (verifying 0x19 1 1 3).dp.rd F.penMmStat_TRIES 0 0 < max ((verifying 0x19 1 1 3).dp.rd F.penMmCtl_VERIFY_LIMIT 0 0) 1 ∧
    max ((verifying 0x19 1 1 0).dp.rd F.penMmCtl_VERIFY_LIMIT 0 0) 1 ≤ (verifying 0x19 1 1 0).dp.rd F.penMmStat_TRIES 0 0 ∧
    (linked 5 1).reaches (.port .b) (Reg.penMmCtl.addr (penOf 511) (slotOf 511)) true = true ∧
    (linked 5 1).dp.carved 511 = true ∧ (verifying 0x07 0 0 1).dp.loopMode 0 ≠ 1 ∧ (verifying 0x19 1 1 1).dp.loopMode 0 ≠ 1 := by decide +kernel

theorem wit_MergeVerification_restart :
    ((linked 5 1).onDp (fun d => { d with portMode := Tab.set d.portMode 0 (List.replicate 7 0 ++ [1] ++ List.replicate 8 0) })).dp.pmPreemptTc 0 ≠ 0 ∧
    ((linked 5 1).onDp (fun d => { d with portMode := Tab.set d.portMode 0 (List.replicate 7 0 ++ [1] ++ List.replicate 8 0) })).reaches
      (.port .a) (Reg.penMmCtl.addr (penOf 0) (slotOf 0)) true = true ∧
    (linked 5 1).dp.carved 0 = true ∧ (linked 5 1).dp.linkState 0 = LS.up ∧ (0 : Word).getLsbD 1 = false := by decide +kernel

/-! ## Witnesses: transmit -/

/-- A block whose port 0 has a copy of a stored frame in service. -/
def sending (e : Bool) (c : Copy) (x : Frame) : State :=
  (linked 5 1).onDp (fun d => { d with
    frames := [(0, { x with bytes := body60, ended := true, len := 64, ready := true, admitted := true, written := 2 })]
    copies := [(0, { c with granted := true, expressStream := e })], nextFrame := 1, nextCopy := 1
    lines := [(16, 20), (17, 0x80)] })

/-- A frame of port 0. -/
def frame0 : Frame := { pen := 0, port := 0 }

theorem wit_CopiesOnTheWire_start :
    ((sending true { fid := 0, q := 0, read := 2 } frame0).dp.inService 0 true).isSome = true ∧
    ((sending true { fid := 0, q := 0, read := 2 } frame0).dp.frame 0).isSome = true ∧ isLine 0 = true ∧
    (sending true { fid := 0, q := 0, read := 2 } frame0).dp.sendable 0 = true ∧
    (sending false { fid := 0, q := 0, read := 2 } frame0).dp.preHeld 0 = false ∧
    (sending true { fid := 0, q := 0, read := 2 } frame0).dp.wireTaken 0 true = false ∧
    (sending true { fid := 0, q := 0, read := 2 } frame0).dp.lpiBlocks 0 = false ∧
    (sending true { fid := 0, q := 0, read := 2 } frame0).dp.linkState 0 = LS.up ∧
    ((sending true { fid := 0, q := 0, read := 2 } frame0).dp.inService 0 true).map (fun c =>
      ((sending true { fid := 0, q := 0, read := 2 } frame0).dp.frame 0).map (fun x =>
        ((sending true { fid := 0, q := 0, read := 2 } frame0).dp.dataReady c.2 x,
         (sending true { fid := 0, q := 0, read := 2 } frame0).dp.tplReady c.2 x, c.2.isBad x,
         (sending true { fid := 0, q := 0, read := 2 } frame0).dp.mtuBad c.2 x,
         ((sending true { fid := 0, q := 0, read := 2 } frame0).dp.outBytes { c.2 with started := true } x).isSome))) =
      some (some (true, true, false, false, true)) := by decide +kernel

/-- What COPY_START asks of the granted copy of port 0 and its frame. -/
def startable (s : State) (f : Copy → Frame → Bool) : Bool :=
  match s.dp.inService 0 true, s.dp.frame 0 with
  | some c, some x =>
    c.2.fid = 0 && !c.2.started && !s.dp.wireTaken 0 true && !s.dp.lpiBlocks 0 && s.dp.sendable 0 && s.dp.dataReady c.2 x &&
      s.dp.tplReady c.2 x && f c.2 x
  | _, _ => false

theorem wit_CopiesOnTheWire_bad :
    startable (sending true { fid := 0, q := 0, read := 2 } { frame0 with rxErr := RC.fcs }) (fun c x => c.isBad x) = true := by
  decide +kernel

/-- A frame of 1,600 bytes, a copy of which was granted before its length was known, on a port with MTU_CHK. -/
def tooLong : State :=
  (sending true { fid := 0, q := 0, read := 2 } frame0).onDp (fun d =>
    { d.wr F.penTxCtl_MTU_CHK 1 0 0 with
        frames := [(0, { frame0 with bytes := body60 ++ List.replicate 1540 0, ended := true, len := 1604, written := 50 })] })

theorem wit_CopiesOnTheWire_tooLong :
    startable tooLong (fun c x => !c.isBad x && tooLong.dp.mtuBad c x) = true := by decide +kernel

theorem wit_CopiesOnTheWire_expired :
    ((sending true { fid := 0, q := 0, read := 2, tpl := some 0 } frame0).dp.inService 0 true).map (fun c =>
      ((sending true { fid := 0, q := 0, read := 2, tpl := some 0 } frame0).dp.frame 0).map (fun x =>
        (sending true { fid := 0, q := 0, read := 2, tpl := some 0 } frame0).dp.outBytes { c.2 with
          started := true, tplData := (c.2.tpl.map (sending true { fid := 0, q := 0, read := 2, tpl := some 0 } frame0).dp.line).getD [] } x)) =
      some (some none) := by decide +kernel

theorem wit_CopiesOnTheWire_ends :
    ((sending false { fid := 0, q := 0, read := 1, started := true } frame0).dp.inService 0 false).map (fun c =>
      ((sending false { fid := 0, q := 0, read := 1, started := true } frame0).dp.frame 0).map (fun x => (c.2.kind, readAll c.2 x))) =
      some (some (0, false)) ∧
    ((sending false { fid := 0, q := 0, read := 2, started := true } frame0).dp.inService 0 false).map (fun c =>
      ((sending false { fid := 0, q := 0, read := 2, started := true } frame0).dp.frame 0).map (fun x =>
        (c.2.kind, c.2.flock, readAll c.2 x, c.2.started))) = some (some (0, false, true, true)) ∧
    ((sending false { fid := 0, q := 0 } frame0).dp.txPort 0).away = false ∧
    startable (sending true { fid := 0, q := 0, read := 2, tpl := some 0 } frame0) (fun c x => !c.isBad x &&
      !(sending true { fid := 0, q := 0, read := 2, tpl := some 0 } frame0).dp.mtuBad c x) = true ∧
    (sending false { fid := 0, q := 0, read := 1, started := true } frame0).dp.loopMode 0 ≠ 1 ∧
    (up.onDp (fun d => d.setTx 511 { d.txPort 511 with tail := some { bytes := body60, bad := false } })).dp.loopMode 511 ≠ 1 ∧
    ((up.onDp (fun d => d.setTx 511 { d.txPort 511 with tail := some { bytes := body60, bad := false } })).dp.txPort 511).tail.map
      (fun w => (w.flock, w.pre, w.bad)) = some (none, false, false) ∧
    ((sending false { fid := 0, q := 0 } frame0).dp.txPort 0).tail = none ∧
    ((up.onDp (fun d => d.setTx 511 { d.txPort 511 with tail := some { bytes := body60, bad := true } })).dp.txPort 511).tail =
      some { bytes := body60, bad := true } := by decide +kernel

/-- The same with MTU_CHK and a frame of 1,600 bytes. -/
def oversize : State :=
  (sending true { fid := 0, q := 0, started := true } frame0).onDp (fun d =>
    { d.wr F.penTxCtl_MTU_CHK 1 0 0 with frames := [(0, { frame0 with bytes := body60 ++ List.replicate 1540 0, ended := true })] })

theorem wit_CopiesOnTheWire_oversize : oversize.dp.loopMode 0 ≠ 1 ∧
    (oversize.dp.inService 0 true).map (fun c => (c.2.started, c.2.kind, c.2.flock)) = some (true, 0, false) ∧ oversize.dp.flag F.penTxCtl_MTU_CHK (penOf 0) (slotOf 0) = true ∧
    (oversize.dp.inService 0 true).map (fun c => (oversize.dp.frame 0).map (fun x => decide
      (oversize.dp.effMaxLen 0 ((oversize.dp.outBytes c.2 x).getD []) < max ((oversize.dp.outBytes c.2 x).getD []).length 60 + 4))) =
      some (some true) := by decide +kernel

/-- A preemptable frame of 200 bytes on the wire of a port whose preemption is active, and an express copy in service. -/
def preempting (t : TxPort) : State :=
  (linked 5 1).onDp (fun d =>
    ({ (d.wr F.drvPortCfg_PREEMPT_FORCE 1 0).wr F.penMmStat_VERIFY 2 0 0 with
        frames := [(0, { frame0 with bytes := body60 ++ List.replicate 140 0, ended := true })]
        copies := [(0, { fid := 0, q := 0, granted := true, started := true, expressStream := false, read := 7 }),
                   (1, { fid := 0, q := 7, granted := true, read := 7 })] }).setTx 0 t)

/-- The transmit MAC of a port while a preemptable frame that it may split is on the wire. -/
def onWire : TxPort := { split := true }

theorem wit_Preemption : ((preempting onWire).dp.inService 0 false).isSome = true ∧ ((preempting onWire).dp.frame 0).isSome = true ∧
    (preempting onWire).dp.preemptActive 0 = true ∧ ((preempting onWire).dp.txPort 0).away = false ∧ (preempting onWire).dp.loopMode 0 ≠ 1 ∧
    ((preempting onWire).dp.txPort 0).split = true ∧
    ((preempting onWire).dp.txPort 0).tail = none ∧ (preempting onWire).dp.expressReady 0 = true ∧
    ((preempting onWire).dp.txPort 0).sentTo ≤ 63 ∧
    64 * (1 + (preempting onWire).dp.rd F.penMmCtl_ADD_FRAG (penOf 0) (slotOf 0)) ≤ 63 + 1 - ((preempting onWire).dp.txPort 0).sentTo + 4 ∧
    ((preempting onWire).dp.inService 0 false).map (fun c => ((preempting onWire).dp.frame 0).map (fun x =>
      (x.ended, decide (63 + 1 + 60 ≤ (preempting onWire).dp.heldBytes c.2 x),
        decide (63 + 1 ≤ (((preempting onWire).dp.outBytes c.2 x).getD []).length)))) = some (some (true, true, true)) := by
  decide +kernel

/-- A preempted frame that waits for its continuation. -/
def preempted : State :=
  (preempting { away := true, sentTo := 64, frags := 1 }).onDp (fun d => { d with copies := d.copies.take 1 })

/-- A port in use for preemption whose express class 0 holds a copy that waits for its launch time. -/
def launching : State :=
  (linked 5 1).onDp (fun d =>
    { ((d.wr F.drvPortCfg_PREEMPT_FORCE 1 0).wr F.penMmStat_VERIFY 2 0 0).wr F.drvClassCfg_LT_EN 1 0 with
        frames := [(0, frame0)], copies := [(0, { fid := 0, q := 0, launch := some {}, judge := .held })]
        portMode := [(0, List.replicate 5 0 ++ [1] ++ List.replicate 10 0)] })

theorem wit_Preemption_resume : (preempted.dp.txPort 0).away = true ∧ preempted.dp.inService 0 true = none ∧
    preempted.dp.ctrlPending 0 = false ∧ (preempted.dp.txPort 0).tail = none ∧ preempted.dp.preHeld 0 = false ∧
    launching.dp.preemptActive 0 = true ∧ launching.dp.nearLaunch launching.lead 0 = [0] ∧
    (preempting onWire).dp.nearLaunch (preempting onWire).lead 0 = [] ∧
    (launching.dp.setTx 0 { launching.dp.txPort 0 with hold := [0] }).preHeld 0 = true ∧
    (onWire.split = true ∧ onWire.frags = 0) ∧ (({ onWire with frags := 1 } : TxPort).frags ≠ 0) := by decide +kernel

/-! ## Witnesses: parse, lookups and verdicts -/

/-- A block whose pen 0 has frame 0 ready to be parsed; `sort` tells whether its sort table has an entry for it, which
names profile 3. -/
def parsable (sort : Bool) : State :=
  ((linked 5 1).onSh (fun h => h.wr F.fldStat_IN_FORCE 1)).onDp (fun d =>
    ({ d with
        frames := [(0, { frame0 with bytes := body60, ended := true, len := 64, ready := true, staged := true })], nextFrame := 1
        sortTab := if sort then [(0, [0, 0, 3, 1] ++ List.replicate 20 0)] else []
        profile := [(3, [3, 0, 1, 0] ++ List.replicate 140 0)] }).setReady 0 [0])

theorem wit_ParsePasses : (parsable true).quiet = false ∧ (parsable true).forwards = true ∧ (parsable false).forwards = true ∧ (parsable true).penHeld 0 = false ∧ 0 ∉ (parsable true).dp.gated ∧
    (parsable true).dp.pipeHolds 0 = false ∧ (parsable true).dp.readyOf 0 = 0 :: [] ∧
    ((parsable true).dp.frame 0).any (fun x =>
      x.inPen = 0 && !x.transit && x.info.pass = 1 && !isLoop x.info.port &&
       (parsable true).dp.sortSelect 0 ((parsable true).dp.sortKey 0 { x with epoch := (parsable true).dp.rd F.larEpoch_CUR, inside := true }
        ((parsable true).dp.hintOf x) (dataEndOf x)) = some 3 &&
       (match (parsable true).dp.runProfile 0 3 { x with epoch := (parsable true).dp.rd F.larEpoch_CUR, inside := true }
          ((parsable true).dp.hintOf x) (dataEndOf x) with
        | .ok p _ _ => p = 3
        | _ => false)) = true := by decide +kernel

theorem wit_ParsePasses_none :
    ((parsable false).dp.frame 0).map (fun x => ((parsable false).dp.sortSelect 0 ((parsable false).dp.sortKey 0
      { x with epoch := (parsable false).dp.rd F.larEpoch_CUR, inside := true } ((parsable false).dp.hintOf x) (dataEndOf x)),
      (parsable false).dp.defMode x.info.port)) = some (none, 0) ∧
    (asleepAt .none []).quiet = true ∧ up.forwards = false ∧ (fldIn .apply 0 0).forwards = false ∧ (fldIn .hold 0 0).penHeld 31 = true := by decide +kernel

/-- A block with a pass of frame 0 in pen 0. -/
def passing (p : Pass) : State := (parsable true).onDp (fun d => d.setPasses 0 [p])

theorem wit_ParsePasses_graze :
    ((passing { fid := 0, slot := 0, window := some ⟨0, 60, 0, false⟩ }).dp.passesOf 0).length = 1 ∧
    ((passing { fid := 0, slot := 0 }).dp.frame 0).map (fun x =>
      (scannable x { fid := 0, slot := 0, window := some ⟨0, 60, 0, false⟩ },
       (windowBytes x { fid := 0, slot := 0 } ⟨0, 60, 0, false⟩).2)) = some (true, true) ∧
    ({ fid := 0, slot := 0, window := some ⟨0, 60, 0, false⟩ } : Pass).lookupsDone = true := by decide +kernel

/-- A lookup in a state. -/
def lookupIn (st : LookupState) : Lookup := ⟨0, 15, [0, 0, 0, 0], st⟩

theorem wit_ParsePasses_lookup :
    (passing { fid := 0, slot := 0, lookups := [lookupIn (.waiting 0)] }).dp.waiters.length = 1 ∧
    (passing { fid := 0, slot := 0, lookups := [lookupIn (.waiting 0)] }).dp.waiters.map (fun w =>
      ((((passing { fid := 0, slot := 0, lookups := [lookupIn (.waiting 0)] }).dp.passesOf w.pen)[w.idx]?).bind
        (fun p => p.lookups[w.pos]?)).isSome) = [true] ∧
    (passing { fid := 0, slot := 0, lookups := [lookupIn (.waiting 0)] }).dp.lar.eng = none ∧
    (((passing { fid := 0, slot := 0, lookups := [lookupIn (.reading true [1])] }).dp.passesOf 0)[0]?).bind
      (fun p => p.lookups[0]?) = some (lookupIn (.reading true [1])) := by decide +kernel

/-- A pass whose only lookup hit a record. -/
def judged (r : List Byte) : Pass := { fid := 0, slot := 0, lookups := [lookupIn (.done true r)] }

/-- A block with such a pass, room in the landing of pen 0 and a minimum of one cell at every queue used. -/
def judging (r : List Byte) : State :=
  (passing (judged r)).onDp (fun d =>
    { d.wr F.celQCfg_MIN 1 4088 with bufferPlan := List.replicate 0x28 0 ++ List.replicate 88 0x7F })

/-- Whether a merge gives a drop cause or none, and a target, and nothing else. -/
def gives (m : Merged) (drop : Option Nat) (fwd : Fwd) : Bool :=
  m.drop = drop && !m.default' && !m.ckBad && m.v.fwd = some fwd && m.v.edit = none && m.v.loop = none && m.v.meter = none &&
    m.v.count = none && m.v.sample = none && m.v.ts = none && m.v.tc = 0 && m.v.colour = 0

theorem wit_VerdictMergeForwards_drop :
    ((judging [1, 0, 0xC0, 0, 0, 0, 0, 0]).dp.frame 0).any (fun x =>
      Datapath.mergeReady (judged [1, 0, 0xC0, 0, 0, 0, 0, 0]) x && !isLoop x.info.port &&
      (judged [1, 0, 0xC0, 0, 0, 0, 0, 0]).graze.state ≠ 2 &&
      gives ((judging [1, 0, 0xC0, 0, 0, 0, 0, 0]).dp.merge 0 x (judged [1, 0, 0xC0, 0, 0, 0, 0, 0])) (some T.VERDICT_DROP)
        ⟨3, 0, 0, false⟩) = true := by decide +kernel

/-- The datapath of the merge that sends to a port, in which the frame stands without its pass. -/
def merged (port : Byte) : Datapath :=
  ((judging [1, port, 1, 0, 0, 0, 0, 0]).dp.setPasses 0 []).setFrame 0
    { frame0 with bytes := body60, ended := true, len := 64, ready := true, staged := true }

theorem wit_VerdictMergeForwards :
    ((judging [1, 0xFF, 1, 0, 0, 0, 0, 0]).dp.frame 0).any (fun x =>
      Datapath.mergeReady (judged [1, 0xFF, 1, 0, 0, 0, 0, 0]) x && x.strip.isNone && x.tx.isNone && !isLoop x.info.port &&
      (judged [1, 0xFF, 1, 0, 0, 0, 0, 0]).graze.state ≠ 2 &&
      gives ((judging [1, 0xFF, 1, 0, 0, 0, 0, 0]).dp.merge 0 x (judged [1, 0xFF, 1, 0, 0, 0, 0, 0])) none
        ⟨0, 511, 0, false⟩) = true ∧
    ((judging [1, 0xFE, 1, 0, 0, 0, 0, 0]).dp.frame 0).any (fun x =>
      Datapath.mergeReady (judged [1, 0xFE, 1, 0, 0, 0, 0, 0]) x && x.strip.isNone && x.tx.isNone && !isLoop x.info.port &&
      gives ((judging [1, 0xFE, 1, 0, 0, 0, 0, 0]).dp.merge 0 x (judged [1, 0xFE, 1, 0, 0, 0, 0, 0])) none
        ⟨0, 510, 0, false⟩) = true ∧
    (judging [1, 0xFF, 1, 0, 0, 0, 0, 0]).dp.validTarget 511 = true ∧
    (judging [1, 0xFE, 1, 0, 0, 0, 0, 0]).dp.validTarget 510 = false ∧ (merged 0xFF).discarding 4088 = false ∧
    (merged 0xFF).noRecord = false ∧ ((merged 0xFF).frame 0).map (fun x => (merged 0xFF).noLanding x) = some false ∧
    (merged 0xFF).overThreshold 4088 ((merged 0xFF).rd F.celQCfg_POOL 4088) ((merged 0xFF).rd F.celQCfg_MIN 4088) = false ∧
    (merged 0xFF).flag F.celRedLo_EN (3 * (merged 0xFF).rd F.celQCfg_RED 4088) = false ∧
    ((merged 0xFF).pmExpressTc 511).testBit 0 = false ∧ Tab.rising up.dp.meters = true := by decide +kernel

theorem wit_ActTableCommands : up.reaches (.port .a) (Reg.actCmd.addr 0 0) true = true ∧ up.reaches .hdma (Reg.actCmd.addr 0 0) true = true ∧ 4095 < 4096 ∧ 16383 < 16384 ∧ 131071 < 131072 ∧
    4096 ≤ 4096 ∧ 16384 ≤ 131071 ∧ up.reaches (.port .b) (Reg.actSampCfg.addr 127 0) true = true := by decide +kernel

/-! ## Witnesses: larder -/

/-- A block with table 0: keys of 4 bytes, results of 8, banks 0 and 1 with one bucket each, with an attic. -/
def tabled (l : Larder) : State :=
  up.onDp (fun d => { d with
    larderGeom := [(0, [0, 0, 4, 8, 0, 1, 0, 0, 0, 1, 0, 0, 1, 0, 0, 0, 2, 0, 0, 0]), (1, [1, 0, 4, 8, 2, 1, 0, 0, 0, 0, 0, 0, 1, 0, 0, 0, 2, 0, 0, 0])]
    lar := l })

/-- An engine at work on table 0, copy 0, its reads issued. -/
def engine (op loc : Nat) : LarCmd :=
  { op := op
    table := 0
    copy := 0
    loc := loc
    stage := [0, 0, 0, 0x80] ++ List.replicate 60 7
    reads := 64 }

/-- The block whose engine runs a command on table 0. -/
def engineRuns (op loc : Nat) : State := tabled { eng := some (engine op loc) }

/-- What LAR_COMMAND_END asks of a command that is done. -/
def engineDone (s : State) (e : LarCmd) : Bool :=
  s.dp.lar.eng = some e && s.dp.larTest e (s.sh.domOn 16) = none && (s.dp.geom e.table).isSome && !s.dp.larWaits e &&
    decide ((s.dp.larReads e).length ≤ e.reads)

theorem wit_LarderEngine : up.reaches (.port .a) (Reg.larCmd.addr 0 0) true = true ∧ up.dp.lar.eng = none ∧
    (engineRuns 1 0).reaches .hdma (Reg.larCmd.addr 0 0) true = true ∧ (engineRuns 1 0).dp.lar.eng ≠ none ∧
    (tabled { cmdWait := [(.port .a, 0x101)] }).dp.lar.cmdWait = (.port .a, 0x101) :: [] ∧
    (tabled { cmdWait := [(.port .a, 0x101)] }).dp.lar.eng = none ∧ (tabled {}).dp.hdm.run = none ∧
    (Src.port .a, 0x101) ∈ (tabled { cmdWait := [(.port .a, 0x101)] }).dp.lar.cmdWait ∧
    engineDone (engineRuns 1 0) (engine 1 0) = true ∧ engineDone (engineRuns 2 0) (engine 2 0) = true ∧
    engineDone (engineRuns 4 0x00010003) (engine 4 0x00010003) = true ∧
    engineDone (engineRuns 5 0x00010003) (engine 5 0x00010003) = true ∧ engineDone (engineRuns 6 0) (engine 6 0) = true ∧
    ((engineRuns 1 0).dp.geom 0).any (fun g =>
      (match (engineRuns 1 0).dp.insertPlan 0 0 g (slice (engine 1 0).stage 4 g.kw) with
       | .place _ _ _ => true
       | _ => false) && !((engineRuns 2 0).dp.lookup 0 0 (slice (engine 2 0).stage 4 g.kw)).1 &&
      entryValid (slice (engine 4 0).stage 0 g.es)) = true := by decide +kernel

theorem wit_LarderEngine_tests :
    (engineRuns 7 0).dp.larTest (engine 7 0) ((engineRuns 7 0).sh.domOn 16) = some LC.badOp ∧
    (engineRuns 4 0x00020000).dp.larTest (engine 4 0x00020000) ((engineRuns 4 0x00020000).sh.domOn 16) = some LC.badLoc ∧
    (tabled { eng := some (engine 1 0), settling := [(0, [5])] }).dp.larTest (engine 1 0) true = none ∧
    (tabled { eng := some (engine 1 0), settling := [(0, [5])] }).dp.larWaits (engine 1 0) = true ∧
    ({ engine 1 0 with reads := 1 } : LarCmd).reads < ((engineRuns 1 0).dp.larReads { engine 1 0 with reads := 1 }).length ∧
    ((engineRuns 1 0).onSh (fun h => { h with doms := List.replicate 20 {} })).sh.domOn 16 = false ∧
    (1 ≤ (engine 1 0).op ∧ (engine 5 0).op < 6) := by decide +kernel

/-- Table 0 with an entry for the key 7, 7, 7, 7 in the first slot of its first candidate bucket. -/
def found (op : Nat) : State :=
  match (tabled {}).dp.geom 0 with
  | some g =>
    let q := (tabled {}).dp.candidate 0 0 g [7, 7, 7, 7] 0
    tabled (({ eng := some (engine op 0) } : Larder).putEntry g q.1 (g.phys 0 q.2) 0 (slice (engine op 0).stage 0 g.es))
  | none => up

theorem wit_LarderEngine_find : engineDone (found 3) (engine 3 0) = true ∧ engineDone (found 1) (engine 1 0) = true ∧
    engineDone (found 2) (engine 2 0) = true ∧ ((found 3).dp.geom 0).any (fun g =>
      ((g.matchSlot ((found 3).dp.lar.bucket ((found 3).dp.candidate 0 0 g (slice (engine 3 0).stage 4 g.kw) 0).1
        (g.phys 0 ((found 3).dp.candidate 0 0 g (slice (engine 3 0).stage 4 g.kw) 0).2)) (slice (engine 3 0).stage 4 g.kw)).isSome) &&
      (match (found 1).dp.insertPlan 0 0 g (slice (engine 1 0).stage 4 g.kw) with
       | .update _ _ _ => true
       | _ => false) && ((found 2).dp.lookup 0 0 (slice (engine 2 0).stage 4 g.kw)).1) = true := by decide +kernel

/-- Table 0 with no room: the candidate buckets of the keys 7, 7, 7, 7 and 1, 2, 3, 4 are full of entries for the second, and an
insertion moves one entry at most. -/
def noRoom : State :=
  match (tabled {}).dp.geom 0 with
  | some g =>
    let cand (key : List Byte) (c : Nat) := (tabled {}).dp.candidate 0 0 g key c
    let fill (l : Larder) (q : Nat × Nat) := l.writeBucket g q.1 (g.phys 0 q.2)
      (List.replicate 4 ([0, 0, 0, 0x80, 1, 2, 3, 4] ++ List.replicate 8 (0 : Byte))).flatten
    (tabled ([cand [7, 7, 7, 7] 0, cand [7, 7, 7, 7] 1, cand [1, 2, 3, 4] 0, cand [1, 2, 3, 4] 1].foldl fill
      { eng := some (engine 1 0) })).onDp (fun d => d.wr F.larEngCfg_MAX_MOVES 1)
  | none => up

theorem wit_LarderEngine_noRoom : engineDone noRoom (engine 1 0) = true ∧ (noRoom.dp.geom 0).any (fun g =>
    match noRoom.dp.insertPlan 0 0 g (slice (engine 1 0).stage 4 g.kw) with
    | .fail _ => true
    | _ => false) = true := by decide +kernel

/-- An attic record for copy 1 of table 0. -/
def attic1 : AtticRec := ⟨1, 0, 1, 0, List.replicate 64 0⟩

/-- Table 0 with the words of an attic record written, its table and copy as given. -/
def pushing (table copy : Nat) (l : Larder) : State :=
  (tabled l).onDp (fun d => { d with
    regs := RegFile.setWord d.regs .larAttic0 0 0 (BitVec.ofNat 32 (copy * 2 ^ 28 + table * 2 ^ 24 + 2 * table * 2 ^ 16)) })

/-- The record that an ATTIC_PUSH of the words written makes. -/
def pushed (s : State) : AtticRec := (s.dp.writeAtticWord .larAttic 15 0xF 0).atticRecord

theorem wit_AtticLiveAndEpoch : (pushing 0 1 {}).reaches (.port .a) (Reg.larAttic.addr 15 0) true = true ∧
    (pushing 0 1 {}).dp.lar.fifo.length < 64 ∧
    (pushing 0 1 { fifo := List.replicate 64 attic1 }).reaches .hdma (Reg.larAttic.addr 15 0) true = true ∧
    64 ≤ (pushing 0 1 { fifo := List.replicate 64 attic1 }).dp.lar.fifo.length ∧
    (pushed (pushing 0 1 {})).table = 0 ∧ (pushed (pushing 0 1 {})).copy = 1 ∧
    ((pushing 0 1 {}).dp.geom 0).any (fun g => g.attic && g.hasBank (pushed (pushing 0 1 {})).bank &&
      decide ((pushed (pushing 0 1 {})).bucket < g.rows)) = true ∧
    b2n ((pushing 0 1 {}).dp.lar.live.testBit 0) ≠ 1 ∧
    (pushing 1 1 {}).reaches (.port .a) (Reg.larAttic.addr 15 0) true = true ∧
    (pushed (pushing 1 1 {})).table = 1 ∧ ((pushing 1 1 {}).dp.geom 1).any (fun g => !g.attic) = true ∧
    (pushing 2 1 {}).reaches (.port .a) (Reg.larAttic.addr 15 0) true = true ∧
    (pushing 2 1 {}).dp.geom (pushed (pushing 2 1 {})).table = none ∧
    (Src.port .b, attic1) ∈ (tabled { pushWait := [(.port .b, attic1)] }).dp.lar.pushWait := by decide +kernel

/-- Table 0 with records at the loader and pushes that wait. -/
def loading (settling : Bool) (waits : List (Src × AtticRec)) : State :=
  tabled { fifo := [attic1], pushWait := waits, settling := if settling then [(1, [5])] else [] }

theorem wit_AtticLiveAndEpoch_write : (loading false []).dp.lar.fifo = attic1 :: [] ∧ (loading false []).dp.lar.pushWait = [] ∧
    (loading false []).dp.settlingCopy 0 1 = false ∧ ((loading false []).dp.geom 0).isSome = true ∧
    (loading false []).dp.meets .engineWrite 1 = false ∧ (loading false []).dp.hdm.run = none ∧
    (loading false [(.port .a, attic1)]).dp.lar.fifo = attic1 :: [] ∧ (loading false [(.port .a, attic1)]).dp.settlingCopy 0 1 = false ∧
    (loading false [(.port .a, attic1)]).dp.meets .engineWrite 1 = false ∧ (loading false [(.port .a, attic1)]).dp.hdm.run = none ∧
    ((loading false [(.port .a, attic1)]).dp.geom 0).any (fun h => h.attic &&
      b2n ((loading false [(.port .a, attic1)]).dp.lar.live.testBit 0) ≠ 1 && h.hasBank 1 && decide (0 < h.rows)) = true ∧
    (loading true []).dp.lar.fifo = attic1 :: [] ∧ (loading true []).dp.lar.pushWait = [] ∧
    (loading true []).dp.settlingCopy 0 1 = true := by decide +kernel

theorem wit_AtticLiveAndEpoch_flip : up.reaches (.port .a) (Reg.larLive.addr 0 0) true = true ∧
    (tabled { flips := [some 1] }).dp.lar.flips = some 1 :: [] ∧
    (∀ r, r ∈ (tabled { flips := [some 1], fifo := [⟨0, 1, 0, 0, []⟩] }).dp.lar.fifo →
      Nat.testBit 1 r.table = (tabled { flips := [some 1], fifo := [⟨0, 1, 0, 0, []⟩] }).dp.lar.live.testBit r.table) ∧
    Nat.testBit 1 0 ≠ (tabled { flips := [some 1] }).dp.lar.live.testBit 0 ∧
    Tab.find (tabled { settling := [(0, [5])] }).dp.lar.settling (2 * 0 + 0) = some [5] ∧
    (∀ f, f ∈ [5] → f ∉ (tabled { settling := [(0, [5])] }).dp.waitingFrames) ∧
    (tabled {}).reaches (.port .a) (Reg.larCseed.addr 2 0) true = true ∧ (tabled {}).reaches .apply (Reg.larCseed.addr 0 0) true = true ∧
    (tabled {}).reaches (.port .b) (Reg.larCseed.addr 63 0) true = true ∧ (tabled {}).dp.geom (63 / 4) = none ∧
    (tabled {}).reaches (.port .b) (Reg.larCseed.addr 7 0) true = true ∧ ((tabled {}).dp.geom (7 / 4)).any (fun g => !g.attic) = true ∧ (tabled {}).dp.lar.seedWait = [] ∧
    ((tabled {}).dp.geom (2 / 4)).any (fun g => g.attic) = true ∧
    ((tabled {}).dp.rd F.larLive_COPY).testBit (2 / 4) ≠ decide (2 / 2 % 2 = 1) ∧ (tabled {}).dp.copyFree (2 / 4) (2 / 2 % 2) = true ∧
    ((tabled {}).dp.rd F.larLive_COPY).testBit (0 / 4) = decide (0 / 2 % 2 = 1) ∧
    up.reaches .hdma (Reg.larEpochReq.addr 0 0) true = true ∧ (tabled { flips := [none] }).dp.lar.flips = none :: [] ∧
    ((tabled {}).dp.epochCur + 65536 - (tabled {}).dp.epochOldest) % 65536 < 15 := by decide +kernel

theorem wit_AtticLiveAndEpoch_refused :
    15 ≤ (((linked 5 1).onDp (fun d => { d.wr F.larEpoch_CUR 15 with frames := [(0, { frame0 with inside := true })] })).dp.epochCur +
      65536 - ((linked 5 1).onDp (fun d => { d.wr F.larEpoch_CUR 15 with frames := [(0, { frame0 with inside := true })] })).dp.epochOldest) %
      65536 := by decide +kernel

/-! ## Witnesses: cellar, lofts, drover, time -/

/-- A frame of five sectors, of which two are stored in cell 0, which pen 0 holds open, as does a sink engine cell 1; the writers
whose bank another holds. -/
def storing (second : List Nat) : State :=
  (linked 5 1).onDp (fun d => { d with
    frames := [(0, { frame0 with bytes := body60 ++ List.replicate 100 0, ended := true, admitted := true, written := 2, locs := [1, 3] })]
    cel := { cells := [(0, ⟨2, 2, true⟩), (1, ⟨1, 1, true⟩)], openCell := [(0, 0), (40, 1)], second := second } })

/-- A frame in the loft of pen 0 to pen 0 with its copy. -/
def lofted (sinking : Bool) : State :=
  (linked 5 1).onDp (fun d => { d with
    frames := [(0, { frame0 with bytes := body60, ended := true, admitted := true, written := 2, locs := [0, 2], loft := some 0, moving := sinking })]
    copies := [(0, { fid := 0, q := 0 })]
    cel := { cells := [(1, ⟨1, 1, true⟩)], openCell := [(40, 1)], lofts := [(0, { wpos := 2, frames := if sinking then [] else [0], moving := if sinking then [0] else [], sinking := sinking })]
             sinkOrder := if sinking then [0] else [] } })

/-- A loft that sinks and holds no frame. -/
def sunk : State := up.onDp (fun d => { d with
  cel := { openCell := [(40, 1)], lofts := [(1599, { sinking := true, engine := some 0 })], sinkOrder := [1599] } })

theorem wit_CellarSectors : ((storing []).dp.frame 0).any (fun x => x.admitted && x.loft.isNone && x.written < x.available) = true ∧
    Tab.find (storing []).dp.cel.openCell 0 = some 0 ∧ (Tab.get (storing []).dp.cel.cells 0 {}).fill < 8 ∧
    (storing []).dp.cel.second.contains 0 = false ∧ (storing [0]).dp.cel.second.contains 0 = true ∧
    ((storing [0]).dp.frame 0).any (fun x => x.admitted && x.loft.isNone && x.written < x.available && x.inPen = 0) = true ∧
    Tab.find (storing [0]).dp.cel.openCell 0 = some 0 ∧ (Tab.get (storing [0]).dp.cel.cells 0 {}).fill < 8 ∧
    (lofted false).dp.loft (40 * 0 + 0) = { wpos := 2, frames := [0] } ∧ (lofted false).dp.loftFree (40 * 0 + 0) ≠ 256 ∧
    ((lofted false).dp.frame 0).isSome = true ∧
    (lofted false).dp.copiesOf 0 = (0, { fid := 0, q := 0 }) :: [] ∧ ((lofted true).dp.loft (40 * 0 + 0)).sinking = true ∧
    sunk.dp.loftFree (40 * 39 + 39) = 256 ∧
    (lofted true).dp.sinkLoft 0 = some 0 ∧ (lofted true).dp.nextMoving 0 = some 0 ∧
    Tab.find (lofted true).dp.cel.openCell (40 + 0) = some 1 ∧ (lofted true).dp.cel.second.contains (40 + 0) = false ∧
    ((lofted true).dp.frame 0).any (fun x => ((List.range x.locs.length).filter (fun j => x.locs.getD j 1 % 2 = 0)).length ≤
      8 - (Tab.get (lofted true).dp.cel.cells 1 {}).fill) = true ∧
    (sunk.dp.loft (40 * 39 + 39)).sinking = true ∧ (sunk.dp.loft (40 * 39 + 39)).frames = [] ∧
    (sunk.dp.loft (40 * 39 + 39)).moving = [] ∧ (sunk.dp.loft (40 * 39 + 39)).engine = some 0 := by decide +kernel

/-- A copy that has read one sector of a frame that has two, in the cellar or in a loft as its places say. -/
def reading (moving : Bool) (locs : List Nat) : State :=
  sending true { fid := 0, q := 0, read := 1 } { frame0 with locs := locs, moving := moving }

/-- What SECTOR_READ asks of that copy. -/
def sectorDue (s : State) : Bool :=
  (s.dp.copy 0).any (fun c => c.granted && c.next.isNone && c.ahead.isEmpty && (s.dp.frame c.fid).any (fun x =>
    x.written = c.read + 1 && c.read < x.locs.length && (!x.moving || x.locs.getD c.read 0 % 2 = 1)))

theorem wit_CellarSectors_read : sectorDue (reading false [1, 3]) = true ∧ sectorDue (reading true [1, 3]) = true ∧
    sectorDue (reading false [0, 2]) = true := by decide +kernel

/-- A bad frame's copy at the head of class queue 0. -/
def badHead : State := (linked 5 1).onDp (fun d => { d with
  frames := [(0, { frame0 with bytes := body60, ended := true, rxErr := RC.cut })], copies := [(0, { fid := 0, q := 0 })]
  cel := { sw := [0] } })

theorem wit_DiscardsAndQueues : badHead.sh.seq.state = .run ∧
    ((badHead.dp.classQueue 0).filter (fun c => c.2.rxq.isNone)).find? (fun c => c.2.notLeft) = some (0, { fid := 0, q := 0 }) ∧
    (badHead.dp.frame 0).any (fun x => x.ended && x.rxErr ≠ RC.none) = true ∧
    badHead.reaches (.port .a) (Reg.celFlushCmd.addr 0 0) true = true ∧ up.reaches .hdma (Reg.celFlushCmd.addr 0 0) true = true ∧ 519 < 520 ∧ 255 < 256 ∧ badHead.dp.classQueue 0 ≠ [] ∧
    (∀ c, c < 8 → up.dp.classQueue (8 * 519 + c) = []) ∧ up.dp.cel.sw = [] ∧
    badHead.dp.copies.filter (fun c => badHead.dp.flushable c.2) = [(0, { fid := 0, q := 0 })] ∧
    up.reaches (.port .a) (Reg.celQCfg.addr 4159 0) true = true ∧ up.reaches .hdma (Reg.celQCfg.addr 0 0) true = true ∧
    up.reaches .apply (Reg.celRedSeed.addr 0 0) true = true ∧
    up.dp.rd F.celQCfg_MIN 0 < (up.dp.writeReg .celQCfg false 0xF 0xFFFFFFFF 0).rd F.celQCfg_MIN 0 ∧
    up.dp.minReserve < (up.dp.writeReg .celQCfg false 0xF 0xFFFFFFFF 0).minSum ∧
    (up.dp.writeReg .celQCfg false 0xF 0 0).rd F.celQCfg_MIN 0 ≤ up.dp.rd F.celQCfg_MIN 0 := by decide +kernel

/-- A block whose port 0 has a copy that waits at the head of class 0, the class strict or not, with deficit. -/
def waitingCopy (strict : Bool) (launch : Option Time) (j : Judge) : State :=
  ((linked 5 1).onSh (fun h => h.wr F.fldStat_IN_FORCE 1)).onDp (fun d => { (d.wr F.drvClassCfg_STRICT (b2n strict) 0).wr F.drvClassCfg_LT_EN 1 0 with
    frames := [(0, { frame0 with bytes := body60, ended := true, admitted := true, ready := true, written := 2, locs := [1, 3] })]
    copies := [(0, { fid := 0, q := 0, launch := launch, judge := j })], drv := { deficit := [(0, 100)] } })

/-- The block with an image in force. -/
def penOn : State := up.onSh (fun h => h.wr F.fldStat_IN_FORCE 1)

/-- The waiting copy with a frame longer than its port sends. -/
def waitingLong : State := (waitingCopy true none .not).onDp (fun d =>
  { d.wr F.penTxCtl_MTU_CHK 1 0 0 with
      frames := [(0, { frame0 with bytes := body60 ++ List.replicate 1540 0, ended := true, len := 1604, admitted := true, ready := true, written := 50, locs := [1] })] })

theorem wit_DroverAndGates_tooLong : waitingLong.grantsCopies 0 = true ∧
    waitingLong.dp.portOrder 0 = 0 :: (List.range 15).map (· + 1) ∧ waitingLong.dp.sendable 0 = true ∧
    waitingLong.dp.streamFree 0 true = true ∧ waitingLong.dp.candidates waitingLong.lead 0 true = [0] ∧
    waitingLong.dp.strict 0 = true ∧ waitingLong.dp.ctrlHead 0 = none ∧ (waitingLong.dp.headCopy 0).isSome = true ∧
    (waitingLong.dp.frame 0).any (fun x => waitingLong.dp.mtuBad { fid := 0, q := 0 } x) = true := by decide +kernel

theorem wit_DroverAndGates : (waitingCopy true none .not).grantsCopies 0 = true ∧ (waitingCopy false none .not).grantsCopies 0 = true ∧
    (waitingCopy true none .not).dp.portOrder 0 = 0 :: (List.range 15).map (· + 1) ∧ (waitingCopy true none .not).dp.sendable 0 = true ∧
    (waitingCopy true none .not).dp.streamFree 0 true = true ∧
    (waitingCopy true none .not).dp.candidates (waitingCopy true none .not).lead 0 true = [0] ∧
    (waitingCopy true none .not).dp.strict 0 = true ∧
    (waitingCopy false none .not).dp.candidates (waitingCopy false none .not).lead 0 true = [0] ∧
    (waitingCopy false none .not).dp.strict 0 = false ∧ 0 < Tab.get (waitingCopy false none .not).dp.drv.deficit 0 0 ∧
    0 = Tab.get (waitingCopy false none .not).dp.drv.cur 0 0 ∧
    (waitingCopy true none .not).dp.ctrlHead 0 = none ∧ ((waitingCopy true none .not).dp.headCopy 0).isSome = true ∧
    ((waitingCopy true none .not).dp.frame 0).any (fun x =>
      !(waitingCopy true none .not).dp.mtuBad { fid := 0, q := 0 } x) = true ∧ (asleepAt .none []).quiet = true ∧
    up.forwards = false ∧ (38 ≤ 39 ∧ (penOn.onSh (fun h => { h with fld := { h.fld with state := .hold, pen := 39 } })).penHeld 39 = true) := by decide +kernel

/-- How far a launch time lies from the port's time. -/
def ahead (t : Time) : Int := compactDiff t ((waitingCopy true (some t) .not).dp.tbNow ((waitingCopy true (some t) .not).dp.pmTb 0))

theorem wit_DroverAndGates_launch : (waitingCopy true (some ⟨0, 9⟩) .not).sh.seq.state = .run ∧
    ((waitingCopy true (some ⟨0, 9⟩) .not).dp.headCopy 0).any (fun y =>
      y.2.launch = some ⟨0, 9⟩ && (waitingCopy true (some ⟨0, 9⟩) .not).dp.launchActs y.2 && y.2.judge = .not) = true ∧
    (waitingCopy true (some ⟨0, 1000000000⟩) .not).dp.launchActs { fid := 0, q := 0, launch := some ⟨0, 1000000000⟩ } = true ∧
    (9 : Nat) < 1000000000 ∧ ((waitingCopy true (some ⟨0, 1000000000⟩) .not).dp.headCopy 0).isSome = true ∧ (0 : Nat) < 8 ∧
    0 < ahead ⟨0, 9⟩ ∧ ahead ⟨0, 9⟩ ≤ 2 ^ 30 ∧ ahead ⟨0, 0⟩ = 0 ∧ (2 ^ 30 < ahead ⟨2, 0⟩) ∧
    ((waitingCopy true (some ⟨2 ^ 34 - 1, 0⟩) .not).dp.pmLateLimit 0 : Int) < -ahead ⟨2 ^ 34 - 1, 0⟩ ∧
    ((waitingCopy true (some ⟨0, 9⟩) .held).dp.headCopy 0).any (fun y => y.2.judge = .held) = true ∧
    ahead ⟨0, 9⟩ ≤ ((waitingCopy true (some ⟨0, 9⟩) .held).lead : Int) := by decide +kernel

/-- A late launch time that the port's late limit still allows. -/
def late : State := (waitingCopy true (some ⟨2 ^ 34 - 1, 999999999⟩) .not).onDp (fun d => { d with
  portMode := Tab.set d.portMode 0 (List.replicate 10 0 ++ [1] ++ List.replicate 5 0) })

theorem wit_DroverAndGates_late : compactDiff ⟨2 ^ 34 - 1, 999999999⟩ (late.dp.tbNow (late.dp.pmTb 0)) < 0 ∧
    -compactDiff ⟨2 ^ 34 - 1, 999999999⟩ (late.dp.tbNow (late.dp.pmTb 0)) ≤ (late.dp.pmLateLimit 0 : Int) := by decide +kernel

/-- A port's gate lists, its cycle time and its mode. -/
def gated (g : GatePort) (mode : Nat) : State :=
  (linked 5 1).onDp (fun d => { (d.wr F.drvGateCycle_CYCLE 1000 0).wr F.drvGateStat_MODE mode 0 with drv := { gates := [(0, g)] } })

/-- A port in recovery mode with a list in force, its base in order. -/
def cycling : State := (gated ⟨some ⟨0, 1, 1000, 0, 0⟩, none⟩ 1).onDp (fun d => d.wr F.timStat_HOLDOVER 0 0)

theorem wit_DroverAndGates_gates : (gated {} 0).reaches (.port .a) (Reg.drvGateCtl.addr 0 0) true = true ∧ up.reaches .hdma (Reg.drvGateCtl.addr 511 0) true = true ∧
    255 < 256 ∧ 256 < 512 ∧ (0 : Nat) < 256 ∧ (0 : Nat) + 256 ≤ 256 ∧ (256 : Nat) < 255 + 2 ∧
    up.dp.rd F.drvGateCycle_CYCLE 511 < 1000 ∧ (gated {} 0).reaches .apply (Reg.drvGclHi.addr 0 0) true = true ∧
    1000 ≤ (gated {} 0).dp.rd F.drvGateCycle_CYCLE 0 ∧ (gated {} 0).dp.rd F.drvGateBaseNs_NS 0 < 1000000000 ∧
    gateOverlap 0 256 ((gated {} 0).dp.gates 0).inForce = false ∧ gateOverlap 0 256 ((gated {} 0).dp.gates 0).pending = false ∧
    gateOverlap 255 1 ((gated ⟨some ⟨255, 1, 1000, 0, 0⟩, none⟩ 2).dp.gates 0).inForce = true ∧
    up.reaches (.port .a) (Reg.drvGclHi.addr 131071 0) true = true ∧
    (gated ⟨some ⟨255, 1, 1000, 0, 0⟩, none⟩ 2).reaches (.port .b) (Reg.drvGclLo.addr 255 0) true = true ∧
    (gated ⟨none, some ⟨0, 1, 1000, 0, 0⟩⟩ 0).dp.gateMode 0 ≠ GM.waiting ∧
    ((gated ⟨none, some ⟨0, 1, 1000, 0, 0⟩⟩ 1).dp.gates 0).pending = some ⟨0, 1, 1000, 0, 0⟩ ∧
    (gated ⟨none, some ⟨0, 1, 1000, 0, 0⟩⟩ 1).dp.gateMode 0 = GM.waiting ∧
    ((gated ⟨some ⟨0, 1, 1000, 0, 0⟩, none⟩ 1).dp.gates 0).inForce.isSome = true ∧
    (cycling.dp.gates 0).inForce.isSome = true ∧ cycling.dp.gateMode 0 = GM.waiting ∧ cycling.dp.holdover (cycling.dp.pmTb 0) = false := by decide +kernel

/-- A block with one command waiting on base 7; the base's VIRGIN, HOLDOVER and THRESH as given. -/
def based (c : TbCmd) (virgin hold thresh : Nat) : State :=
  up.onDp (fun d => (((d.wr F.timStat_VIRGIN virgin 7).wr F.timStat_HOLDOVER hold 7).wr F.timThresh_THRESH thresh 7).setTb 7
    { d.tb 7 with cmds := [c] })

/-- A read of TIM_NOW_NS of base 7 by port A that reaches the time unit. -/
def sampling : State := sentTo up false (Reg.timNowNs.addr 7 0) none

theorem wit_TimeBaseCommands : up.reaches (.port .a) (Reg.timCtl.addr 7 0) true = true ∧ up.reaches .hdma (Reg.timCtl.addr 7 0) true = true ∧ 7 < 8 ∧ 7 < up.dp.tim.bases.length ∧
    ((based ⟨1, 5, 0, 0, false⟩ 0 1 9).dp.tb 7).cmds = [⟨1, 5, 0, 0, false⟩] ∧
    (based ⟨1, 5, 0, 0, true⟩ 0 1 9).dp.holdover 7 = true ∧
    ((based ⟨1, 5, 0, 0, false⟩ 0 1 9).dp.flag F.timStat_VIRGIN 7 || false) = false ∧
    ((based ⟨1, 5, 0, 0, false⟩ 0 1 9).dp.rd F.timThresh_THRESH 7 : Int) <
      ((5 * 1000000000 + 0 : Nat) : Int) - (((based ⟨1, 5, 0, 0, false⟩ 0 1 9).dp.tbNow 7).abs : Int) ∧
    ((5 : Nat) : Int) - (((based ⟨1, 0, 5, 0, false⟩ 0 1 9).dp.tbNow 7).abs : Int) ≤
      ((based ⟨1, 0, 5, 0, false⟩ 0 1 9).dp.rd F.timThresh_THRESH 7 : Int) ∧
    signed 32 10 > ((based ⟨2, 0, 0, 10, false⟩ 0 1 9).dp.rd F.timThresh_THRESH 7 : Int) ∧
    signed 32 9 ≤ ((based ⟨2, 0, 0, 9, false⟩ 0 1 9).dp.rd F.timThresh_THRESH 7 : Int) ∧
    (based ⟨3, 0, 0, 0, false⟩ 0 0 9).dp.holdover 7 = false ∧ (sampling).reaches (.port .a) (Reg.timNowNs.addr 7 0) false = true ∧
    (sampling.sh.port .a).acc = some ⟨false, Reg.timNowNs.addr 7 0, 0xF, 1, .inFlight, false⟩ ∧
    (sampling.sh.link.slot .a).dp = some ⟨⟨.a, false, false, Reg.timNowNs.addr 7 0, 0xF, 1⟩, none⟩ ∧
    (based ⟨1, 5, 1000000000, 0, true⟩ 0 1 9).dp.flag F.timStat_VIRGIN 7 = false ∧ (1000000000 : Nat) ≤ 1000000000 := by decide +kernel

/-- A base whose correction watchdog stands at 1 ms and whose last correction lies a number of ticks back. -/
def watchdog (hold wd since : Nat) : State :=
  up.onDp (fun d => ((d.wr F.timStat_HOLDOVER hold 7).wr F.timCorrWd_WD wd 7).setTb 7 { d.tb 7 with since := since })

theorem wit_TimeBaseCommands_watchdog : (watchdog 0 1 400000).dp.holdover 7 = false ∧ (watchdog 0 1 400000).dp.rd F.timCorrWd_WD 7 ≠ 0 ∧
    ((watchdog 0 1 400000).dp.tb 7).cmds = [] ∧ 7 < (watchdog 0 1 400000).dp.tim.bases.length ∧
    (watchdog 0 1 400000).dp.rd F.timCorrWd_WD 7 * 400000 ≤ ((watchdog 0 1 400000).dp.tb 7).since ∧
    (watchdog 1 1 400000).dp.holdover 7 = true ∧ (watchdog 0 0 400000).dp.rd F.timCorrWd_WD 7 = 0 ∧
    ((watchdog 0 1 399999).dp.tb 7).since < (watchdog 0 1 399999).dp.rd F.timCorrWd_WD 7 * 400000 := by decide +kernel

/-- A base that has run for a window, clean, with its mean period as given. -/
def window (m : Nat) : State :=
  up.onDp (fun d => d.setTb 7 { d.tb 7 with sec := 0, ns := m / 16, frac := m % 16 * 2 ^ 28, clean := true })

theorem wit_TimeBaseCommands_window :
    (((window 0x14000000).dp.tb 7).fine : Int) / 2 ^ 28 = 0x14000000 ∧ ((window 0x14000000).dp.tb 7).winStart = 0 ∧
    ((window 0x14000000).dp.tb 7).clean = true ∧
    2 * (20 * (window 0x20000000).dp.rd F.timAonTol_PPB * 2 ^ 24 / 1000000000) + 0x14000000 <
      ((window 0x20000000).dp.tb 7).fine / 2 ^ 28 ∧ (up.dp.tb 7).clean = false := by decide +kernel

/-- A pulse input or output with its configuration. -/
def pulses (edge new mute : Nat) (en : Nat) : State :=
  up.onDp (fun d => ((((d.wr F.timPinCfg_EN 1 3).wr F.timPinCfg_EDGE edge 3).wr F.timPinNs_NEW new 3).wr F.timPoutCfg_EN en 3).wr
    F.timPoutCfg_HOLD_MUTE mute 3)

theorem wit_LogsAndPulses : up.reaches (.port .a) (Reg.timLogPop.addr 0 0) true = true ∧ (3 : Nat) < 4 ∧ (pulses 0 0 0 1).dp.meets .pinNew 3 = false ∧
    ((pulses 0 0 0 1).onDp (fun d => d.meet .pinNew 3)).dp.meets .pinNew 3 = true ∧
    ((pulses 0 0 0 1).onDp (fun d => d.meet .pinNew 3)).dp.rd F.timPinNs_NEW 3 = 0 ∧ (pulses 0 0 0 1).dp.flag F.timPinCfg_EN 3 = true ∧
    (pulses 0 0 0 1).dp.rd F.timPinCfg_EDGE 3 ≠ 1 ∧ (pulses 1 1 0 1).dp.rd F.timPinCfg_EDGE 3 = 1 ∧
    (pulses 2 0 0 1).dp.rd F.timPinCfg_EDGE 3 = 2 ∧ (pulses 0 0 0 1).dp.rd F.timPinNs_NEW 3 = 0 ∧
    (pulses 0 1 0 1).dp.rd F.timPinNs_NEW 3 ≠ 0 ∧ 3 < up.dp.tim.level.length ∧ (pulses 0 0 0 1).dp.flag F.timPoutCfg_EN 3 = true ∧
    (pulses 0 0 0 1).dp.flag F.timPoutCfg_HOLD_MUTE 3 = false ∧
    (Tab.get (pulses 0 0 0 1).dp.tim.pout 3 {}).start ≤ ((pulses 0 0 0 1).dp.tbNow ((pulses 0 0 0 1).dp.rd F.timPoutCfg_TB 3)).abs ∧
    (pulses 0 0 1 1).dp.flag F.timPoutCfg_HOLD_MUTE 3 = true ∧
    (pulses 0 0 1 1).dp.holdover ((pulses 0 0 1 1).dp.rd F.timPoutCfg_TB 3) = true ∧
    (pulses 0 0 0 0).dp.flag F.timPoutCfg_EN 3 = false ∧
    (up.dp.writeReg .timPoutCfg false 0xF 0xFFFFFFFF 3).flag F.timPoutCfg_EN 3 = true ∧ (0xF : BitVec 4).getLsbD 3 = true ∧
    (0x7 : BitVec 4).getLsbD 3 = false ∧ up.reaches .hdma (Reg.timPoutCfg.addr 3 0) true = true ∧
    up.reaches (.port .b) (Reg.timPoutCfg.addr 3 0) true = true ∧
    ((pulses 0 0 0 1).dp.tbNow ((pulses 0 0 0 1).dp.rd F.timPoutCfg_TB 3)).abs <
      (Tab.get ((pulses 0 0 0 1).onDp (fun d => { d with tim := { d.tim with pout := [(3, { start := 9 })] } })).dp.tim.pout 3 {}).start := by decide +kernel


/-! ## Witnesses: troughs -/

/-- A queue map record: every transmit queue, receive queue and ring. -/
def allQueues : List Byte :=
  leBytes 4 0 ++ (leBytes 2 0 ++ leBytes 2 0x8000) ++ (leBytes 2 0 ++ leBytes 2 0x8000) ++ (leBytes 2 0 ++ leBytes 2 0x1000) ++ leBytes 4 0

/-- Client port 512 with all queues; window 0 of tenant 0 spans 1 MiB where `win` says so. -/
def client (win : Bool) : State :=
  up.onDp (fun d => ({ d with portMode := [(512, List.replicate 16 0)], queueMap := [(512, allQueues)] }).wr F.trgTenBlo_EN (b2n win)
    |>.wr F.trgTenLlo_LIMIT 256)

/-- The last ring, of eight slots, in a state, with its producer index. -/
def ringIn (st pi : Nat) (g : RingRt) : State :=
  (client true).onDp (fun d => (((d.wr F.trgCqCtl_STATE st 4095).wr F.trgCqIdx_PI pi 4095).wr F.trgCqCfg_SIZE_LOG2 3 4095).setRing 4095 g)

/-- The last transmit and the last receive queue, of eight slots, in a state, both of the last ring. -/
def queues (st : Nat) (rt : QueueRt) (pen : TrgPen) : State :=
  (ringIn QS.running 0 {}).onDp (fun d =>
    let one (d : Datapath) (x : QRef) : Datapath :=
      (((d.setQSt x st).wr (x.f F.trgTxqCfg2_CQ F.trgRxqCfg2_CQ) 4095 x.q).wr (x.f F.trgTxqCfg_SIZE_LOG2 F.trgRxqCfg_SIZE_LOG2) 3 x.q).wr
        (x.f F.trgTxqIdx_PHASE F.trgRxqIdx_PHASE) 1 x.q |>.setQRt x rt
    let d := one (one d ⟨false, 32767⟩) ⟨true, 32767⟩
    (((d.wr F.trgTxqCfg2_MAX_LEN 16384 32767).wr F.trgTxqCfg_BUF_WIN 1 32767).wr F.trgTxqCfg_PAD 1 32767).setTrgPen 0 pen)

/-- The queues meant. -/
def txq : QRef := ⟨false, 32767⟩
def rxq : QRef := ⟨true, 32767⟩

/-- A beat whose first slot holds a descriptor of n bytes with PHASE. -/
def beatOf (n : Nat) : List Byte := leBytes 28 0 ++ leBytes 2 n ++ [0, 0x80] ++ List.replicate 224 0

theorem wit_QueuePolls : (queues QS.running {} {}).dp.qPort txq = some 0 ∧ (queues QS.running {} {}).dp.qSt txq = QS.running ∧
    txq ∉ ((queues QS.running {} {}).dp.trgPen 0).due ∧ (queues QS.stopped {} {}).dp.qSt txq ≠ QS.running ∧
    (queues QS.running {} { kicks := [txq] }).quiet = false ∧ ((queues QS.running {} { kicks := [txq] }).dp.trgPen 0).kicks = [txq] ∧
    (queues QS.running {} { kicks := [txq] }).dp.pollable 0 txq = true ∧
    (queues QS.running {} { kicks := [txq] }).penHeld (32 + 0) = false ∧
    ((queues QS.running {} { kicks := [txq] }).dp.srp 0).grant = none ∧
    (queues QS.running {} { kicks := [txq] }).dp.windowOk 0 15 0 256 = true ∧
    ((queues QS.running {} { kicks := [txq] }).onDp (fun d => d.wr F.trgTenBlo_EN 0 0)).dp.windowOk 0 15 0 256 = false ∧
    (queues QS.running {} { kicks := [rxq] }).dp.pollable 0 rxq = true ∧
    (up.onSh (fun h => { h with seq := { state := .run, kind := .quiesce } })).quiet = true := by decide +kernel

theorem wit_QueuePolls_results :
    ((queues QS.running {} { polls := [(txq, beatOf 64)] }).dp.trgPen 0).polls = [(txq, beatOf 64)] ∧
    (queues QS.stopping {} { polls := [(txq, beatOf 64)] }).dp.qSt txq ≠ QS.running ∧
    ((queues QS.stopping {} { polls := [(txq, beatOf 64)] }).dp.trgPen 0).polls = [(txq, beatOf 64)] ∧
    ((queues QS.running {} { polls := [(rxq, beatOf 63)] }).dp.trgPen 0).polls = [(rxq, beatOf 63)] ∧
    (takeSlots 8 (beatOf 63) 8 0 1).1.any (fun e => decide (e.len < 64)) = true ∧
    (takeSlots 8 (beatOf 64) 8 0 1).1.all (fun e => decide (64 ≤ e.len)) = true ∧
    longChain 8 [] (List.replicate 8 { slot := 0, addr := 0, cookie := 0, len := 64, more := true } ++ (takeSlots 8 (beatOf 64) 8 0 1).1) 0 ≠
      none ∧ txq.q < 32768 ∧
    phaseOf (slice (List.replicate 256 0) (32 * ((queues QS.running {} {}).dp.qFetch txq % 8)) 32) ≠ (queues QS.running {} {}).dp.qPhase txq ∧
    (takeSlots (2 ^ (queues QS.running {} {}).dp.qLog txq) (beatOf 64) 8 ((queues QS.running {} {}).dp.qFetch txq)
      ((queues QS.running {} {}).dp.qPhase txq)).1.map (fun e => e.len) = [64] ∧
    longChain 8 [] (takeSlots 8 (beatOf 64) 8 0 1).1 0 = none ∧
    ((queues QS.running {} { polls := [(txq, beatOf 64)] }).dp.trgPen 0).hot.length < 512 ∧
    rxq ∈ ((queues QS.running {} { hot := [rxq] }).dp.trgPen 0).hot ∧ (queues QS.running {} { hot := [rxq] }).dp.qPort rxq = some 0 ∧
    (queues QS.running {} { hot := [rxq] }).dp.qSt rxq = QS.running := by decide +kernel

/-- A descriptor of n bytes at the start of window 0. -/
def descN (n : Nat) : Desc := { slot := 7, addr := 0, cookie := 5, len := n }

/-- The transmit record of a rejected frame. -/
def rejected : TxRec := { q := 32767, pen := 32, slot := 7, cookie := 5, dlen := 64, ndesc := 1, code := some 0x12 }

/-- A receive queue with a whole copy in its list and a descriptor of n bytes. -/
def delivering (n : Nat) (recs : Tab RxRec) : State :=
  (queues QS.running { descs := [descN n] } {}).onDp (fun d => { d with
    frames := [(0, { frame0 with bytes := body60, ended := true, admitted := true, written := 2 })]
    copies := [(0, { fid := 0, q := 8 * 512, rxq := some 32767, granted := true })], trg := { d.trg with rxRecs := recs } })

/-- The queues with a descriptor whose buffer lies outside its window. -/
def outside : State := queues QS.running { descs := [{ descN 64 with addr := 2 ^ 40 }] } {}

theorem wit_FetchesAndCompletions_fetch :
    (queues QS.running { descs := [descN 64] } {}).dp.txTurns 0 = 32767 :: [] ∧
    splitFrame ((queues QS.running { descs := [descN 64] } {}).dp.qRt ⟨false, 32767⟩).descs = some ([descN 64], []) ∧
    (queues QS.running { descs := [descN 64] } {}).dp.txCheck 32767 [descN 64] = (64, none) ∧
    (queues QS.running { descs := [descN 64] } {}).dp.txRoom 0 (max 64 60) = true ∧
    (queues QS.running { descs := [descN 64] } {}).dp.qCq ⟨false, 32767⟩ = 4095 ∧
    (queues QS.running { descs := [descN 64] } {}).dp.ringRuns 4095 = true ∧
    0 < (queues QS.running { descs := [descN 64] } {}).dp.ringFree 4095 ∧
    (queues QS.running { descs := [descN 0] } {}).dp.txCheck 32767 [descN 0] = (0, some 0x12) ∧
    splitFrame [descN 0] = some ([descN 0], []) ∧ (queues QS.running { descs := [descN 0] } {}).dp.txTurns 0 = 32767 :: [] ∧
    outside.dp.txTurns 0 = 32767 :: [] ∧ outside.dp.txCheck 32767 [{ descN 64 with addr := 2 ^ 40 }] = (64, some 0x13) ∧
    outside.dp.canFail ⟨false, 32767⟩ = true := by decide +kernel

/-- The same queues with a rejected frame whose completion has a place in the ring. -/
def completing : State := (queues QS.running {} {}).onDp (fun d =>
  { d.setRing 4095 { resv := 1 } with trg := { (d.setRing 4095 { resv := 1 }).trg with txRecs := [(9, rejected)] } })

theorem wit_FetchesAndCompletions_place : Tab.find completing.dp.trg.txRecs 9 = some rejected ∧ completing.dp.txPoint 9 rejected = true ∧
    completing.dp.ringRuns 4095 = true ∧ rejected.inRing = true ∧ (completing.dp.ring 4095).resv ≠ 0 ∧
    (completing.dp.ring 4095).held = [] ∧ rejected.dlen < 2 ^ 15 ∧ completing.dp.ringPort 4095 = some 0 ∧
    completing.dp.windowOk (completing.dp.rd F.trgCqCfg_TENANT 4095) 15 (completing.dp.ringBase 4095 + 32 * 0) 32 = true ∧
    (completing.dp.srp 0).want = [] ∧ (completing.dp.srp 0).grant = none := by decide +kernel

/-- The record of the copy in writing, written whole. -/
def written : RxRec := { q := 32767, cid := 0, descs := [descN 60], read := true, len := 60 }

/-- The receive queue's copy written, its completion reserved. -/
def receivedCopy : State := (delivering 60 [(3, written)]).onDp (fun d => d.setRing 4095 { resv := 1 })

theorem wit_FetchesAndCompletions_receive : (delivering 60 []).dp.rxRecOf 32767 = none ∧
    ((delivering 60 []).dp.rxList 32767).head? = some (0, { fid := 0, q := 8 * 512, rxq := some 32767, granted := true }) ∧
    (delivering 60 []).dp.qPort ⟨true, 32767⟩ = some 0 ∧
    ((delivering 60 []).dp.frame 0).any (fun x => x.ended && x.rxErr = RC.none &&
      (delivering 60 []).dp.mayStart { fid := 0, q := 8 * 512, rxq := some 32767, granted := true } x &&
      decide ((delivering 60 []).dp.loutOf { fid := 0, q := 8 * 512, rxq := some 32767, granted := true } x ≤
        bufBytes ((delivering 60 []).dp.qRt ⟨true, 32767⟩).descs) &&
      ((delivering 60 []).dp.outBytes { fid := 0, q := 8 * 512, rxq := some 32767, granted := true, started := true } x).isSome) = true ∧
    ((delivering 60 []).dp.qRt ⟨true, 32767⟩).descs ≠ [] ∧ (delivering 60 []).dp.qCq ⟨true, 32767⟩ = 4095 ∧
    (delivering 60 []).dp.ringRuns 4095 = true ∧ 0 < (delivering 60 []).dp.ringFree 4095 ∧
    receivedCopy.dp.rxRecOf 32767 = some (3, written) ∧ receivedCopy.dp.qSt ⟨true, 32767⟩ = QS.running ∧
    (written.read = true ∧ written.left = 0 ∧ written.status = 0 ∧ written.inRing = true) ∧ receivedCopy.dp.qCq ⟨true, 32767⟩ = 4095 ∧ receivedCopy.dp.ringRuns 4095 = true ∧
    (receivedCopy.dp.ring 4095).resv ≠ 0 ∧ (receivedCopy.dp.ring 4095).held = [] ∧ receivedCopy.dp.ringPort 4095 = some 0 ∧
    receivedCopy.dp.windowOk (receivedCopy.dp.rd F.trgCqCfg_TENANT 4095) 15 (receivedCopy.dp.ringBase 4095 + 32 * 0) 32 = true ∧
    (receivedCopy.dp.copy written.cid).isSome = true := by decide +kernel

/-- The receive queue whose copy has a bad frame, longer than its eight buffers hold; it delivers bad frames. -/
def deliveringBad : State :=
  (queues QS.running { descs := List.replicate 8 (descN 7) } {}).onDp (fun d => { d.wr F.trgRxqCfg_DELIVER_BAD 1 32767 with
    frames := [(0, { frame0 with bytes := body60, ended := true, admitted := true, written := 2, rxErr := RC.fcs })]
    copies := [(0, { fid := 0, q := 8 * 512, rxq := some 32767, granted := true })] })

theorem wit_FetchesAndCompletions_bad : deliveringBad.dp.rxRecOf 32767 = none ∧ deliveringBad.dp.flag F.trgRxqCfg_DELIVER_BAD 32767 = true ∧
    (deliveringBad.dp.qRt ⟨true, 32767⟩).descs.length = 8 ∧ ((deliveringBad.dp.rxList 32767).head?).isSome = true ∧
    (deliveringBad.dp.frame 0).any (fun x => x.ended && x.rxErr ≠ RC.none &&
      deliveringBad.dp.mayStart { fid := 0, q := 8 * 512, rxq := some 32767, granted := true } x &&
      bufBytes (deliveringBad.dp.qRt ⟨true, 32767⟩).descs < deliveringBad.dp.loutOf { fid := 0, q := 8 * 512, rxq := some 32767, granted := true } x &&
      (deliveringBad.dp.outBytes { fid := 0, q := 8 * 512, rxq := some 32767, granted := true, started := true } x).isSome) = true ∧
    deliveringBad.dp.ringRuns 4095 = true ∧ 0 < deliveringBad.dp.ringFree 4095 := by decide +kernel

theorem wit_FetchesAndCompletions_rings : ((ringIn QS.running 7 { held := [[1]] }).dp.ring 4095).held = [1] :: [] ∧
    (ringIn QS.running 7 { held := [[1]] }).dp.ringFree 4095 = 1 ∧ (ringIn QS.running 7 { held := [[1]] }).dp.ringRuns 4095 = true ∧
    (ringIn QS.running 7 { held := [[1]] }).dp.ringPort 4095 = some 0 ∧
    (ringIn QS.running 7 { held := [[1]] }).dp.windowOk 0 15 ((ringIn QS.running 7 {}).dp.ringBase 4095 + 32 * 7) 32 = true ∧
    ((ringIn QS.running 7 { held := [[1]] }).dp.srp 0).want = [] ∧ ((ringIn QS.running 7 { held := [[1]] }).dp.srp 0).grant = none ∧
    (ringIn QS.running 0 { resv := 8 }).dp.ringFree 4095 = 0 ∧ ((ringIn QS.running 0 { resv := 8 }).dp.ring 4095).ciWait = false ∧
    (ringIn QS.running 0 { resv := 8 }).dp.windowOk 0 15 0 4 = true ∧
    2048 ≤ (ringIn QS.running 0 { heldResv := 2048 }).dp.holdUsed 0 ∧ up.dp.holdUsed 0 < 2048 := by decide +kernel

theorem wit_QueueAndRingCommands : (queues QS.running {} {}).reaches (.port .a) (Reg.trgRxqCtl.addr 32767 0) true = true ∧
    (queues QS.disabled {} {}).reaches .hdma (Reg.trgTxqCtl.addr 32767 0) true = true ∧
    (queues QS.stopped {} {}).reaches .apply (Reg.trgRxqCtl.addr 32767 0) true = true ∧
    (queues QS.error {} {}).reaches (.port .b) (Reg.trgRxqCtl.addr 32767 0) true = true ∧
    ((delivering 60 [(3, written)]).dp.qRt rxq).descs ≠ [] ∧ ((delivering 60 [(3, written)]).dp.rxRecOf 32767).isSome = true ∧
    (delivering 60 [(3, written)]).dp.qSt rxq = QS.running ∧
    (queues QS.disabled {} {}).dp.qSt txq = QS.disabled ∧ (queues QS.disabled {} {}).dp.queueOk txq = true ∧
    (queues QS.disabled {} {}).dp.queueOk rxq = true ∧
    ((queues QS.disabled {} {}).onDp (fun d => d.wr F.trgCqCtl_STATE 0 4095)).dp.queueOk txq = false ∧
    (queues QS.stopped {} {}).dp.qSt rxq = QS.stopped ∧ (queues QS.error {} {}).dp.qSt rxq = QS.error ∧
    (queues QS.running {} {}).dp.qSt txq = QS.running ∧ (queues QS.running {} {}).dp.qPort txq = some 0 ∧
    ((queues QS.running {} {}).dp.qRt rxq).descs = [] ∧ (queues QS.stopping {} {}).dp.qSt rxq = QS.stopping ∧
    (((delivering 60 []).onDp (fun d => { d.setQSt rxq QS.stopping with copies := [(0, { fid := 0, q := 8 * 512, rxq := some 32767 })] })).dp.rxList
      32767).filter (fun c => c.2.notBegun) = [(0, { fid := 0, q := 8 * 512, rxq := some 32767 })] ∧
    (queues QS.stopping {} {}).dp.drained rxq = true ∧ (queues QS.stopping {} {}).dp.drained txq = true ∧
    (queues QS.stopping { descs := [descN 64] } {}).dp.drained rxq = false := by decide +kernel

theorem wit_QueueAndRingCommands_rings : (ringIn QS.disabled 0 {}).reaches (.port .a) (Reg.trgCqCtl.addr 4095 0) true = true ∧
    (ringIn QS.running 0 {}).reaches .hdma (Reg.trgCqCtl.addr 4095 0) true = true ∧
    up.dp.rd F.trgCqCtl_STATE 4095 = QS.disabled ∧ up.dp.ringPort 4095 = none ∧ up.reaches .hdma (Reg.trgCqCtl.addr 4095 0) true = true ∧
    (ringIn QS.disabled 0 {}).dp.rd F.trgCqCtl_STATE 4095 = QS.disabled ∧ ((ringIn QS.disabled 0 {}).dp.ringPort 4095).isSome = true ∧
    (ringIn QS.disabled 0 {}).dp.ringFits 0 ((ringIn QS.disabled 0 {}).dp.ringBase 4095)
      ((ringIn QS.disabled 0 {}).dp.rd F.trgCqCfg_SIZE_LOG2 4095) = true ∧
    (ringIn QS.running 0 {}).dp.rd F.trgCqCtl_STATE 4095 ≠ QS.disabled ∧ (ringIn QS.running 0 {}).dp.liveQueues = [] ∧
    txq ∈ (queues QS.running {} {}).dp.liveQueues ∧ (queues QS.running {} {}).dp.qCq txq = 4095 ∧
    (ringIn QS.running 0 {}).dp.ringRuns 4095 = true ∧ ((ringIn QS.running 0 {}).dp.ring 4095).ciWait = false ∧
    (ringIn QS.running 0 {}).dp.windowOk 0 15 0 4 = true ∧ (ringIn QS.disabled 0 {}).dp.ringRuns 4095 = false ∧
    Reg.ofAddr (Reg.trgTxqCfg2.addr 32767 0) = some (Reg.trgTxqCfg2, 32767, 0) ∧ (queues QS.running {} {}).reaches (.port .a) (Reg.trgTxqCfg2.addr 32767 0) true = true ∧
    (queues QS.disabled {} {}).reaches (.port .a) (Reg.trgTxqCfg2.addr 32767 0) true = true ∧
    Reg.trgTxqCfg2.writeWord false 0xF 7 (RegFile.word (queues QS.running {} {}).dp.regs Reg.trgTxqCfg2 32767 0) ≠
      RegFile.word (queues QS.running {} {}).dp.regs Reg.trgTxqCfg2 32767 0 := by decide +kernel

/-! ## Witnesses: store-room ports, check values, housekeeping DMA, flock, tallies -/

/-- A read of one beat that a requester asks of port 5 or 0. -/
def ask (r : Nat) (write : Bool) (job : Job) : SReq :=
  { r := r, write := write, addr := 0x100, len := 1, tenant := 0, kind := 0, owner := 0, job := job }

/-- All six client ports enabled, store-room port k in a state. -/
def roomAt (k : Nat) (p : StpPort) : State :=
  up.onDp (fun d => { (d.wr F.trgCqCtl_STATE QS.running 4095) with
    portMode := (List.range 6).map (fun i => (512 + i, List.replicate 16 0)), stp := [(k, p)] })

/-- Requesters 5 and 4 want a read; 4 has waited longer. -/
def contest : State := roomAt 5 { want := [ask 5 false (.ci 1 0), ask 4 false (.txData 0 0 0 1)], tick := 9, stamps := [(4, 1), (5, 8)] }

theorem wit_StoreRoomArbiter_grant : (contest.dp.srp 5).grant = none ∧ (contest.dp.srp 5).presented = none ∧
    contest.dp.srpReady 5 4 = true ∧ contest.dp.srpNext 5 4 = some (ask 4 false (.txData 0 0 0 1)) ∧
    contest.dp.srpReady 5 5 = true ∧ (∀ o, o < 6 → o ≠ 4 → contest.dp.srpReady 5 o = true →
      contest.dp.effClass 5 o < contest.dp.effClass 5 4 ∨ (contest.dp.effClass 5 o = contest.dp.effClass 5 4 ∧
        ((contest.dp.srp 5).age o < (contest.dp.srp 5).age 4 ∨
          ((contest.dp.srp 5).age o = (contest.dp.srp 5).age 4 ∧ 4 < o)))) := by decide +kernel

/-- Port 0 granted to requester 1, with a presented request and a transfer under way or without. -/
def granted (cut : Bool) (want : List SReq) (pr : Option (SReq × Nat)) : State :=
  roomAt 0 { grant := some (1, 3), cut := cut, want := want, presented := pr, writes := [ask 0 true (.cpl 4095)]
             reads := [(7, { req := ask 0 false (.ci 4095 0) }), (8, { req := { ask 1 false (.poll false 0) with len := 2 } })]
             wbeats := [{ addr := 0, lo := 0, data := [], last := true, job := .cpl 4095 }] }

theorem wit_StoreRoomArbiter_release : ((granted false [] none).dp.srp 0).grant = some (1, 3) ∧
    ((granted false [] none).dp.srp 0).presented = none ∧ (granted false [] none).dp.srpReady 0 1 = false ∧
    ((granted true [ask 1 false (.poll false 0)] none).dp.srp 0).cut = true ∧
    (granted false [ask 1 false (.poll false 0)] none).dp.srpReady 0 1 = true ∧
    ((granted false [] (some (ask 1 false (.poll false 0), 2))).dp.srp 0).presented = some (ask 1 false (.poll false 0), 2) ∧
    ((granted false [] (some (ask 1 true (.poll false 0), 0))).dp.srp 0).presented.any (fun x => x.1.write) = true ∧
    ((granted false [] none).dp.srp 0).cut = false ∧ ((granted false [] none).dp.srp 0).want = [] ∧ (3 : Nat) ≠ 0 := by decide +kernel

theorem wit_StoreRoomArbiter_answers : ((granted false [] none).dp.srp 0).wbeats = [⟨0, 0, [], true, .cpl 4095⟩] ∧
    Tab.find ((granted false [] none).dp.srp 0).reads 9 = none ∧ (ask 0 false (.ci 4095 0)).orphan = false ∧
    (ask 0 true (.cpl 4095)).orphan = false ∧ (granted false [] none).dp.meets .storeNew 0 = false ∧
    Tab.find ((granted false [] none).dp.srp 0).reads 8 = some { req := { ask 1 false (.poll false 0) with len := 2 } } ∧
    Tab.find ((granted false [] none).dp.srp 0).reads 7 = some { req := ask 0 false (.ci 4095 0) } ∧
    respCode 0 = 0 ∧ (granted false [] none).dp.ringRuns 4095 = true ∧ (up.dp.srp 0).writes = [] ∧
    ((granted false [] none).dp.srp 0).writes = ask 0 true (.cpl 4095) :: [] ∧ respCode 2 ≠ 0 ∧
    (granted false [] none).dp.rd F.stpErrCtl_NEW 0 = 0 := by decide +kernel

theorem wit_CheckValueContexts : up.reaches (.port .a) (Reg.cvuCtxCmd.addr 15 0) true = true ∧
    (up.onDp (fun d => d.wr F.cvuCtxCfg_ALG 2 15)).reaches .hdma (Reg.cvuCtxCmd.addr 15 0) true = true ∧
    up.reaches .hdma (Reg.cvuCtxFeed.addr 15 0) true = true ∧ up.reaches .apply (Reg.cvuCtxState.addr 15 0) true = true ∧ (up.onDp (fun d => d.wr F.cvuCtxCfg_ALG 2 15)).dp.rd F.cvuCtxCfg_ALG 15 = 2 ∧
    up.dp.rd F.cvuCtxCfg_ALG 15 ≠ 2 ∧
    (if up.dp.flag F.cvuCtxCfg_SWAP 15 then List.reverse else id) (((List.range 4).filter (fun i => (0x5 : BitVec 4).getLsbD i)).map
      (fun i => BitVec.ofNat 8 ((0x04030201 : Word).toNat / 2 ^ (8 * i)))) = [1, 3] := by decide +kernel

/-- Channel 15 enabled with its timer in a state; the engine as given. -/
def channel (st : Nat) (h : Hdma) (mode count chain : Nat) : State :=
  (roomAt 0 {}).onDp (fun d => { (((((d.wr F.hdmChCtl_EN 1 15).wr F.hdmChCtl_EN 1 0).wr F.hdmChCtl_TIMER_EN 1 15).wr F.hdmChStat_STATE st 15).wr
    F.hdmChCtl_MODE mode 15 |>.wr F.hdmChCount_COUNT count 15 |>.wr F.hdmChCtl_CHAIN_EN chain 15) with hdm := h })

/-- A run of channel 15 that has written its 256 bytes, or that reads its first bytes. -/
def ended : HRun := { id := 1, ch := 15, trig := 0, count := 256, rpos := 256, wpos := 256 }
def feeding : HRun := { id := 1, ch := 15, trig := 0, count := 256, rpos := 256 }

/-- A request of that run. -/
def mem (w : Bool) : HReq := { run := 1, ch := 15, write := w, pos := 0, skip := 0, n := 256, addr := 0 }

theorem wit_HousekeepingChannels_triggers : (channel HS.idle {} 0 0 0).reaches (.port .a) (Reg.hdmChCtl.addr 15 0) true = true ∧
    (channel HS.running {} 0 0 0).reaches (.port .b) (Reg.hdmChCtl.addr 15 0) true = true ∧ up.reaches .apply (Reg.hdmChCtl.addr 15 0) true = true ∧ (0x80000000 : Word).getLsbD 31 = true ∧
    (channel HS.idle {} 0 0 0).dp.hdmState 15 = HS.idle ∧ (channel HS.running {} 0 0 0).dp.hdmState 15 ≠ HS.idle ∧
    up.dp.rd F.hdmChCtl_EN 15 = 0 ∧ (0 : Word).getLsbD 31 = false ∧ (channel HS.idle {} 0 0 0).dp.flag F.hdmChCtl_TIMER_EN 15 = true ∧
    (channel HS.idle {} 0 0 0).dp.flag F.hdmChCtl_EN 15 = true ∧ (channel HS.idle {} 0 0 0).sh.seq.kind = .none ∧
    ((channel HS.idle {} 0 0 0).onSh (fun h => { h with seq := { kind := .quiesce, state := .run } })).sh.seq.kind ∈
      [SeqKind.window, .quiesce, .entry, .cruise] := by decide +kernel

theorem wit_HousekeepingChannels_select : (channel HS.pending { trig := [(15, 0, 0)] } 1 0 0).dp.hdm.run = none ∧
    (channel HS.pending { trig := [(15, 0, 0)] } 1 0 0).dp.hdm.drain = none ∧
    (channel HS.pending { trig := [(15, 0, 0)] } 1 0 0).dp.hdmStopped = false ∧
    (channel HS.pending { trig := [(15, 0, 0)] } 1 0 0).dp.hdm.trig = [(15, 0, 0)] ∧
    (channel HS.pending { trig := [(15, 0, 0)] } 1 0 0).dp.hdm.queue.length < 256 ∧
    (channel HS.pending { trig := [(15, 0, 0)] } 0 2 0).dp.hdm.waiting = [] ∧
    (channel HS.pending { trig := [(15, 0, 0)] } 1 0 0).dp.rd F.hdmChCtl_MODE 15 = 1 ∧
    (channel HS.pending { trig := [(15, 0, 0)] } 1 0 0).dp.hdmPortOk 15 = true ∧
    (channel HS.pending { trig := [(15, 0, 0)] } 1 0 0).dp.rd F.hdmChSrcLo_ADDR 15 % 32 = 0 ∧
    ((channel HS.pending { trig := [(15, 0, 0)] } 1 0 0).dp.srp 0).grant = none ∧
    (channel HS.pending { trig := [(15, 0, 0)] } 0 2 0).dp.rd F.hdmChCtl_MODE 15 = 0 ∧
    (channel HS.pending { trig := [(15, 0, 0)] } 0 2 0).dp.hdmCheck 15 0 0 2 false false = false := by decide +kernel

theorem wit_HousekeepingChannels_complete : (channel HS.running { run := some ended } 0 256 0).dp.hdmState ended.ch = HS.running ∧
    ended.fail = none ∧ ended.desc = false ∧ ended.held = false ∧ ended.wpos = ended.count ∧ ended.legacy = false ∧
    (channel HS.running { run := some ended } 0 256 0).dp.hdmUnsent ended.id = 0 ∧
    (channel HS.running { run := some ended } 0 256 0).dp.rd F.hdmChCtl_WAIT_WR 15 = 0 ∧
    (channel HS.running { run := some ended } 0 256 0).dp.rd F.hdmChCtl_QUIET 15 = 0 ∧
    (channel HS.running { run := some ended } 0 256 0).dp.rd F.hdmChCtl_CHAIN_EN 15 = 0 ∧
    (channel HS.running { run := some ended } 0 256 1).dp.rd F.hdmChCtl_CHAIN_EN 15 = 1 ∧
    (channel HS.running { run := some ended } 0 256 1).dp.rd F.hdmChCtl_CHAIN_TO 15 = 0 ∧
    (channel HS.running { run := some ended } 0 256 1).dp.flag F.hdmChCtl_EN 0 = true ∧
    (channel HS.running { run := some ended } 0 256 1).dp.hdmState 0 = HS.idle ∧
    ((channel HS.running { run := some ended, reqs := [(1, mem true)] } 0 256 0).onDp (fun d => d.wr F.hdmChCtl_WAIT_WR 1 15)).dp.hdmWritesOpen
      ended.id = true := by decide +kernel

theorem wit_HousekeepingChannels_ends : (channel HS.running { run := some feeding, reqs := [(1, mem false)] } 0 256 0).dp.hdm.reqs =
      [(1, mem false)] ∧ (mem false).run = feeding.id ∧ feeding.fail = none ∧ feeding.held = false ∧ feeding.buf = [] ∧
    (channel HS.running { run := some feeding, reqs := [(1, mem false)] } 0 256 0).dp.hdmHeld = false ∧
    (∀ j, j < 6 → ((channel HS.running { run := some feeding } 0 256 0).dp.srp j).want = [] ∧
      ((channel HS.running { run := some feeding } 0 256 0).dp.srp j).presented = none) ∧
    (channel HS.pending {} 0 256 0).dp.hdmState 15 = HS.pending ∧ (channel HS.pending {} 0 256 0).dp.flag F.hdmChCtl_EN 15 = true ∧
    (channel HS.pending {} 0 256 0).reaches (.port .b) (Reg.hdmChCtl.addr 15 0) true = true ∧
    (channel HS.running { run := some feeding } 0 256 0).reaches (.port .b) (Reg.hdmChCtl.addr 15 0) true = true ∧
    (channel HS.running { run := some feeding } 0 256 0).dp.hdmState 15 ≠ HS.pending ∧
    up.reaches (.port .a) (Reg.hdmCtl.addr 0 0) true = true ∧ up.reaches (.port .b) (Reg.hdmCplPop.addr 0 0) true = true ∧ up.dp.hdm.waiting = [] ∧
    (channel HS.idle { queue := List.replicate 256 [], waiting := [([1], none)] } 0 0 0).dp.hdm.waiting = [([1], none)] ∧
    (channel HS.idle { queue := List.replicate 256 [], waiting := [([1], none)] } 0 0 0).reaches (.port .a) (Reg.hdmCplPop.addr 0 0) true = true ∧
    (channel HS.idle { queue := List.replicate 256 [], waiting := [([1], none)] } 0 0 0).dp.hdm.queue.length = 256 := by decide +kernel

/-- A flock member of MODE 2 and three tries whose link 31 is in a state, the address in a state after some tries. -/
def member (l a tries n : Nat) : State :=
  up.onDp (fun d => ((({ d with flockRole := [0, 0, 2] ++ List.replicate 80 0 ++ [3] ++ List.replicate 12 0,
                                flk := { links := [(31, { ctrl := List.replicate n [] })] } }).wr
    F.flkLinkStat_STATE l 31).wr F.flkStat_STATE a).wr F.flkStat_TRIES tries)

theorem wit_FlockTimersAndClaims : (member FL.up 0 0 3).dp.flkState 31 ≠ FL.down ∧ ((member FL.up 0 0 3).dp.flkLink 31).ctrl.length < 4 ∧
    (member FL.down 0 0 3).dp.flkState 31 = FL.down ∧ 4 ≤ ((member FL.up 0 0 4).dp.flkLink 31).ctrl.length ∧
    (member FL.up 0 0 3).dp.flkState 31 = FL.up ∧ (member FL.probing 0 0 3).dp.flkState 31 ≠ FL.up ∧
    (member FL.up FA.claiming 2 3).dp.rd F.flkStat_STATE = FA.claiming ∧
    (member FL.up FA.claiming 2 3).dp.rd F.flkStat_TRIES < (member FL.up FA.claiming 2 3).dp.flkTries ∧
    (member FL.up FA.claiming 2 3).dp.flkTries ≤ 15 ∧
    (member FL.up FA.claiming 3 3).dp.flkTries ≤ (member FL.up FA.claiming 3 3).dp.rd F.flkStat_TRIES ∧
    (member FL.up FA.claimed 3 3).dp.rd F.flkStat_STATE ≠ FA.claiming ∧ (member FL.up FA.conflict 3 3).reaches (.port .a) (Reg.flkCtl.addr 0 0) true = true ∧
    up.reaches .hdma (Reg.flkCtl.addr 0 0) true = true ∧ (member FL.up FA.claimed 3 3).reaches .hdma (Reg.flkCtl.addr 0 0) true = true ∧
    (member FL.up FA.conflict 3 3).dp.flkMode ≠ 0 ∧ (member FL.up FA.conflict 3 3).dp.rd F.flkStat_STATE = FA.conflict ∧
    up.dp.flkMode = 0 ∧ (member FL.up FA.claimed 3 3).dp.rd F.flkStat_STATE = FA.claimed := by decide +kernel

/-- A read by port B of an address that has reached its register's end of the link. -/
def arriving (a : Nat) : State :=
  up.onSh (fun h => { h with
    portB := { acc := some ⟨false, a, 0xF, 0, .inFlight, false⟩ }
    link := { h.link with slotB := ⟨some ⟨.b, false, false, a, 0xF, 0⟩, some ⟨⟨.b, false, false, a, 0xF, 0⟩, none⟩, none, false, false⟩ } })

theorem wit_TalliesAndMonitor : up.dp.tallyAt 37 95 = some (128 * portAt 37 0 + 95) ∧
    (linked 5 1).dp.tallyAt 31 (15 * 128 + 95) = some (128 * 511 + 95) ∧
    (arriving (Reg.penTallyLo.addr 37 95)).reaches (.port .b) (Reg.penTallyLo.addr 37 95) false = true ∧
    up.reaches .hdma (Reg.penTallyLo.addr 37 95) false = true ∧
    up.reaches (.port .a) (Reg.penTallyHi.addr 37 95) true = true ∧ up.reaches .hdma (Reg.penTallyLo.addr 37 95) true = true ∧
    ((arriving (Reg.penTallyLo.addr 37 95)).sh.port .b).acc.any (fun x => x.is false (Reg.penTallyLo.addr 37 95) && x.stage = .inFlight) = true ∧
    ((arriving (Reg.penTallyLo.addr 37 95)).sh.link.slot .b).dp.any (fun r => !r.req.loader && r.done.isNone) = true ∧
    (linked 5 1).dp.portIndex 31 15 = true ∧ (linked 5 1).reaches (.port .a) (Reg.penTallyCtl.addr 31 0) true = true ∧ up.reaches (.port .a) (Reg.pmnCtl.addr 0 0) true = true ∧
    (arriving (pmnLoAddr 8)).reaches (.port .b) (pmnLoAddr 8) false = true ∧ ((arriving (pmnLoAddr 8)).sh.port .b).acc.any (fun x => x.is false (pmnLoAddr 8)) = true ∧
    up.reaches (.port .b) (Reg.pmnCfg.addr 7 0) true = true := by decide +kernel

/-! ## Witnesses: the machine as a whole -/

/-- Whether an outcome is a next state. -/
def completes : Out → Bool
  | .next _ => true
  | _ => false

theorem wit_StepsKeepLegalState : up.shaped = true ∧ up.sh.retLegal = true ∧
    completes (step { up with pending := [.powerOnResetRelease] }) = true := by decide +kernel

/-- A clock of RUN whose request fell and was not raised again, with its acknowledge still at 1. -/
def stopping : State := up.onSh (fun h => { h with clks := [⟨false, true⟩, ⟨true, true⟩, ⟨true, true⟩, ⟨true, true⟩] })

theorem wit_ClockHandshakesHold : ((after (.clockAckChange 0) stopping).sh.clk 0).ack ≠ (stopping.sh.clk 0).ack ∧
    (stopping.sh.clk 0).req = false ∧ completes (exec (.clockAckChange 0) stopping) = true ∧
    ((coldAt [.settle, .clkSel false, .clkUp [0, 1, 2, 3]]).sh.clk 1).req = false ∧
    ((after .settleExpire (coldAt [.settle, .clkSel false, .clkUp [0, 1, 2, 3]])).sh.clk 1).req = true ∧
    (after .settleExpire ((coldAt [.settle, .clkSel true, .clkUp [0, 1, 2, 3]]).onSh (fun h => { h with selCore := false }))).sh.selCore = true := by decide +kernel

/-! ## Witnesses: the tick, and further forms of the statements above -/

/-- A line port in RUN, its link up, class 0 below its XOFF limits, with an empty queue. -/
def ticking : State :=
  (up.onDp (fun d => { ((((d.wr F.celPortCfg_FC_MODE 1 2).wr F.celPortCfg_XOFF 0 2).wr F.penLinkStat_STATE LS.up 0 2).wr F.pmnCtl_RUN 1) with
    portMode := [(2, List.replicate 16 1)]
    pmn := { d.pmn with cnt := [(8, 2 ^ 48 - 2)] }
    stp := [(1, { sub := 3, tick := 4095, stamps := [(1, 2048)] })] })).onSh (fun h => { h with sleepRun := true, tick := 15 })

theorem wit_EmptyQueueTick : ticking.pending = [] ∧ ticking.sh.seq.kind = .none ∧ (ticking.sh.sleepRun = true ∧ ticking.sh.tick % 8 = 7) ∧
    (ticking.sh.clk 0).ack = true ∧ (ticking.sh.clk 1).ack = true ∧ (ticking.sh.clk 2).ack = true ∧
    (∀ d, d ∈ [9, 15, 17, 18, 19] → (ticking.sh.dom d).iso = false) ∧ 7 < ticking.dp.tim.bases.length ∧
    Tab.rising ticking.dp.regs = true ∧ ticking.dp.flag F.pmnCtl_RUN = true ∧ up.dp.flag F.pmnCtl_RUN = false ∧
    2 ^ 48 ≤ Tab.get ticking.dp.pmn.cnt 8 0 + 5 ∧ (Tab.find ticking.dp.portMode 2).isSome = true ∧ ticking.dp.fcMode 2 ≠ 0 ∧
    ticking.dp.linkState 2 = LS.up ∧ (ticking.dp.srp 1).tick < 4096 := by decide +kernel

/-- The state that one tick of an empty queue leaves. -/
def onTick (s : State) : State :=
  match step s with
  | .next t => t
  | _ => s

theorem wit_EmptyQueueTick_change : (onTick ticking).dp.rdBit F.celFcStat_XOFF 0 2 ≠ ticking.dp.rdBit F.celFcStat_XOFF 0 2 ∧
    (onTick ticking).sh.sleepN = ticking.sh.sleepN + 1 := by decide +kernel

theorem wit_EmptyQueueTick_still : (State.reset.sh.clk 0).ack = false ∧ (State.reset.sh.clk 1).ack = false ∧
    (∀ d, d ∈ [9, 15, 17, 18, 19] → (State.reset.sh.dom d).iso = true) ∧
    (up.onSh (fun h => h.setClk 2 ⟨false, false⟩)).pending = [] ∧ ((up.onSh (fun h => h.setClk 2 ⟨false, false⟩)).sh.clk 2).ack = false ∧
    (coldAt [.settle]).pending = [] ∧ (coldAt [.settle]).sh.seq.kind ≠ .none ∧ (coldAt [.settle]).sh.seq.todo ≠ [] ∧
    ((coldAt [.settle]).onSh (fun h => h.onSeq (fun q => { q with started := false }))).sh.seq.started = false := by decide +kernel

theorem wit_LinkResponseAnswersPort_writes :
    ((sentTo up true (Reg.fldLen.addr 0 0) none).sh.link.slot .a).dp = some ⟨⟨.a, false, true, Reg.fldLen.addr 0 0, 0xF, 1⟩, none⟩ ∧
    fldValue (Reg.fldLen.addr 0 0) = true ∧ ((sentTo up true (Reg.fldLen.addr 0 0) none).sh.link.slot RPort.a.peer).dp = none ∧
    (sentTo up true (Reg.fldLen.addr 0 0) none).sh.answers (Reg.fldLen.addr 0 0) = true ∧
    (sentTo up true (Reg.fldLen.addr 0 0) none).sh.seq.todo = [] ∧ mirroredFld (Reg.pmnCtl.addr 0 0) = false ∧
    ((sentTo up true (Reg.pmnCtl.addr 0 0) none).performWrite (.port .a) (Reg.pmnCtl.addr 0 0) 0xF 1).2 = true ∧
    ((sentTo up true (Reg.pmnCtl.addr 0 0) none).performWrite (.port .a) (Reg.pmnCtl.addr 0 0) 0xF 1).1.sh =
      (sentTo up true (Reg.pmnCtl.addr 0 0) none).sh := by decide +kernel

/-- Port A's write of FLD_LEN on the link, the shepherd's value taken as it was sent. -/
def formedWrite : State :=
  (sentTo up true (Reg.fldLen.addr 0 0) none).onSh (fun h =>
    { h with link := h.link.setSlot .a { h.link.slot .a with formed := some (0, h.ownWord (Reg.fldLen.addr 0 0)) } })

theorem wit_LinkTimeoutReported_formed : (formedWrite.sh.link.slot .a).formed = some (0, formedWrite.sh.ownWord (Reg.fldLen.addr 0 0)) ∧
    (formedWrite.sh.link.slot .a).sent = some ⟨.a, false, true, Reg.fldLen.addr 0 0, 0xF, 1⟩ ∧ formedWrite.answered .a = false ∧
    ownsValue (Reg.fldLen.addr 0 0) = true ∧ formedWrite.sh.seq.todo = [] := by decide +kernel

/-- A QUIESCE before DOZE that runs at the cruise point, whose leaving was asked for meanwhile. -/
def leaving : State := (seqIn .quiesce .doze).onSh (fun h => h.onSeq (fun q => { q with cruiseExit := true, cruiseOn := true }))

theorem wit_EntryPhases_leaving : leaving.sh.seq.kind = .quiesce ∧ leaving.sh.seq.cruiseExit = true ∧
    leaving.sh.seq.latched.asleep = true ∧ leaving.sh.seq.state.asleep = false ∧ leaving.sh.seq.cruiseOn = true := by decide +kernel

theorem wit_StoreRoomArbiter_reset : (granted false [] none).sh.blkN = true ∧
    ((granted false [] none).onSh (fun h => { h with blkN := false })).sh.blkN = false := by decide +kernel

theorem wit_HousekeepingChannels_clock : (channel HS.idle {} 0 0 0).dp.meets .dmaTrigger 0 = false ∧
    (channel HS.running {} 0 0 0).dp.meets .dmaTrigger 0 = false ∧ (channel HS.idle {} 0 0 0).sh.seq.entered = false ∧
    ((channel HS.idle {} 0 0 0).onSh (fun h => h.onSeq (fun q => { q with state := .doze }))).sh.seq.state.asleep = true := by decide +kernel

/-- A monitor that counts: pen 3 started three passes since the last tick. -/
def counting : State := up.onDp (fun d => { d.wr F.pmnCtl_RUN 1 with pmn := { d.pmn with started := [(3, 3)] } })

theorem wit_TalliesAndMonitor_clock : up.dp.together = [] ∧ up.dp.flag F.pmnCtl_RUN = false ∧ counting.dp.flag F.pmnCtl_RUN = true ∧
    (counting.dp.pmn.started.foldl (fun n e => max n e.2) 0 + 1) / 2 = 2 ∧
    counting.reaches (.port .a) (Reg.pmnCtl.addr 0 0) true = true := by decide +kernel

/-- Copy 1 of table 0 settles, and a seed write waits for it. -/
def seeding : State := tabled { settling := [(1, [7])], seedWait := [(2, 5)] }

theorem wit_AtticLiveAndEpoch_seeds : (tabled { settling := [(1, [7])] }).dp.lar.seedWait = [] ∧
    (tabled { settling := [(1, [7])] }).reaches (.port .a) (Reg.larCseed.addr 2 0) true = true ∧
    (((tabled { settling := [(1, [7])] }).dp.rd F.larLive_COPY).testBit (2 / 4) ≠ decide (2 / 2 % 2 = 1)) ∧
    (tabled { settling := [(1, [7])] }).dp.copyFree (2 / 4) (2 / 2 % 2) = false ∧
    ((tabled { settling := [(1, [7])] }).dp.geom (2 / 4)).any (·.attic) = true ∧
    seeding.dp.seedWaits 0 1 = true ∧ seeding.reaches (.port .a) (Reg.larCmd.addr 0 0) true = true := by decide +kernel

theorem wit_PlainRegisterWrite_tree : (up.sh.view .a).dbIn < 2 ^ 32 := by decide +kernel

/-- The mailbox cause of master A, enabled and routed to line 7, drives int_a[7] and no other line (R115, R116). -/
theorem test_interrupt_line :
    let h := (up.onSh (fun h => { (h.modView .a (fun v => { v with intEn := [(51, 1)], intRoute := [(51, 7)] })) with
      mboxBA := { h.mboxBA with full := true } })).sh
    h.line .a 7 = true ∧ h.line .a 0 = false ∧ h.line .b 7 = false := by decide +kernel

/-! ## Well-formedness: each check refuses a term at the first value beyond its range -/

theorem test_ill_formed_access : (([
    .registerWrite .a 134217728 0 0 none, .registerWrite .a 2 0 0 none, .registerAccessTransfer .a false 134217728 0 0,
    .eventWord 51] : List Instr).any (fun c => c.wf)) = false := by decide +kernel

theorem test_ill_formed_power_and_fold : (([
    .avsFrameEnd false 65536, .clockAckChange 4, .clockHandshakeTimeout 4, .domainReadyChange 0, .domainReadyChange 20,
    .domainReadyTimeout 0, .domainReadyTimeout 20, .semaphoreRead none 32, .semaphoreRelease .a 32 0 0 none,
    .mailboxDataWrite .a 8 0 0, .refold .a 40] : List Instr).any (fun c => c.wf)) = false := by decide +kernel

theorem test_ill_formed_ports : (([
    .signalDetectChange 512 false, .linkAdminDown .hdma 512 0 0, .linkAdminUp .hdma 512 0 0, .linkLoopChange .hdma 512 0 0 0,
    .linkLoopChange .hdma 0 4 0 0, .laneLoss 512, .signalPresent 512, .lanesLocked 512, .lockLoss 512 0 false,
    .lockLoss 0 256 false, .deskewSuccess 512, .deskewFail 512, .upHoldExpire 512, .remoteFaultReceived 512,
    .remoteFaultCleared 512, .lpiEnter 512, .lpiWake 512, .lpiWakeDone 512, .rxLpiEnter 512, .rxLpiExit 512,
    .rxLpiTimeout 512, .rxFrameStart 512 0 0, .rxFrameStart 0 256 0, .rxFrameStart 0 0 256, .rxAddressFilter 512 [],
    .rxFrameReady 512 [], .rxFrameTruncate 512 [], .rxFrameEnd 512 [], .rxFrameCut 512 [], .pauseTimerExpire 512 0,
    .pauseTimerExpire 0 8, .pauseWatchdogExpire 512 0, .pauseWatchdogExpire 0 8, .stormRestoreExpire 512 0,
    .stormRestoreExpire 0 8, .watchdogEnableWrite .hdma 512 0 0, .rxFragmentEnd 512 [], .verifyFrameReceived 512 [],
    .respondFrameReceived 512 []] : List Instr).any (fun c => c.wf)) = false := by decide +kernel

theorem test_ill_formed_parse : (([
    .parseStart 40 0, .parseStart 0 2, .grazeBlockScan 40, .grazeDeadline 40 0, .lookupResult 40 0 0, .lookupResult 0 0 4,
    .verdictMerge 40 0, .verdictMerge 0 16384, .lookupLineRead .hdma 131072, .lineWrite .hdma 131072,
    .meterRead .hdma 131072, .meterWrite .hdma 131072, .fcRead .hdma 131072, .fcReadClear .hdma 131072,
    .fcWrite .hdma 131072, .samplerConfig .hdma 128 0 0, .insert .hdma 16 0, .insert .hdma 0 2, .delete .hdma 16 0,
    .delete .hdma 0 2, .find .hdma 16 0, .find .hdma 0 2, .writeAt .hdma 16 0, .writeAt .hdma 0 2, .readAt .hdma 16 0,
    .readAt .hdma 0 2, .hash .hdma 16 0, .hash .hdma 0 2, .copySettle 16 0, .copySettle 0 2, .cseedWrite .hdma 64 0 0] : List Instr).any (fun c => c.wf)) = false := by decide +kernel

theorem test_ill_formed_cellar : (([
    .loftSinkStart 40 0, .loftSinkStart 0 40, .sinkEnd 40 0, .sinkEnd 0 40, .sectorRead (List.replicate 41 0),
    .badCopyDiscard false 32768, .flushCommand .hdma 1024 0, .flushCommand .hdma 0 256, .queueConfigWrite .hdma 4160 0 0] : List Instr).any (fun c => c.wf)) = false := by decide +kernel

theorem test_ill_formed_drover_and_tx : (([
    .copyGrant 40, .launchJudge 520 0, .launchJudge 0 8, .launchDue 520 0, .launchDue 0 8, .gateCommit .hdma 512 0 0,
    .gateCommit .hdma 0 256 0, .gateCommit .hdma 0 0 512, .gateDiscard .hdma 512, .gateEntryWrite .hdma false 131072 0 0,
    .gateSwitch 520, .gateCycleStart 520, .copyStart 512 false, .txUnderrun 512 false 0, .txUnderrun 0 false 16384,
    .txOversizeCut 512 false, .txFrameEnd 512, .copyEnd 520 false, .pauseRefreshExpire 512, .fcModeWrite .hdma 520 0 0,
    .controlFrameStart 512, .verifyTimerExpire 512, .verifyRestart .hdma 512 0 0, .verifyDisable .hdma 512 0 0,
    .fragmentEnd 512 0, .fragmentEnd 0 16384, .preemptResume 512, .preemptHold 512] : List Instr).any (fun c => c.wf)) = false := by decide +kernel

theorem test_ill_formed_troughs : (([
    .pollDue false 32768, .pollIssue 6 false, .pollResult 6, .hotIdleExpire false 32768, .txFetchStart 6,
    .rxCopyWriteStart 32768, .rxCompletionPlace 32768, .holdRelease 4096, .ciPollExpire 4096, .holdFullExpire 6,
    .queueEnable .hdma false 32768, .queueStop .hdma false 32768, .queueDisable .hdma false 32768,
    .queueFlush .hdma false 32768, .queueKick .hdma false 32768, .queueDrained false 32768, .ringEnable .hdma 4096,
    .ringDisable .hdma 4096, .ringKick .hdma 4096, .contextWrite .hdma 134217728 0 0, .contextWrite .hdma 2 0 0] : List Instr).any (fun c => c.wf)) = false := by decide +kernel

theorem test_ill_formed_store_room : (([
    .arbitration 6, .grantRelease 6, .holdCut 6, .quotaWindowStart 6, .readBeat 6 0 (List.replicate 256 0) 0 false,
    .readBeat 0 8192 (List.replicate 256 0) 0 false, .readBeat 0 0 (List.replicate 257 0) 0 false,
    .readBeat 0 0 (List.replicate 256 0) 4 false, .writeResponse 6 0, .writeResponse 0 4] : List Instr).any (fun c => c.wf)) = false := by decide +kernel

theorem test_ill_formed_time_and_flock : (([
    .step .hdma 8 false, .offset .hdma 8 false, .hold .hdma 8, .timeCommandApply 8, .timeSample .hdma 8, .corrWdExpire 8,
    .aonWindowEnd 8, .pulseInputEdge 4 false, .pulseOutputEdge 4, .poutConfig .hdma 4 0 0, .helloTimer 32,
    .deadTimerExpire 32, .contextInit .hdma 16, .contextFeed .hdma 16 0 0, .contextStateWrite .hdma 16 0 0] : List Instr).any (fun c => c.wf)) = false := by decide +kernel

theorem test_ill_formed_housekeeping_and_tallies : (([
    .hdmaStart .hdma 16 0 0, .hdmaTimer 16, .hdmaDisable .hdma 16 0 0, .tallyLoRead .hdma 40 0, .tallyLoRead .hdma 0 2048,
    .tallyHiWrite .hdma 40 0 0 0, .tallyHiWrite .hdma 0 2048 0 0, .tallyLoWrite .hdma 40 0 0 0,
    .tallyLoWrite .hdma 0 2048 0 0, .tallySnap .hdma 40 0 false, .tallySnap .hdma 0 16 false, .tallyClear .hdma 40 0,
    .tallyClear .hdma 0 16, .pmnLoRead .hdma 9, .pmnConfigWrite .hdma 8 0 0] : List Instr).any (fun c => c.wf)) = false := by decide +kernel

theorem test_ill_formed_power : (([
    .domainFault 0, .domainFault 20, .trimGate 40, .trimUngate 40, .srpRequestTransfer 6, .srpWriteBeatTransfer 6,
    .patternCheckerLock 512 0, .patternCheckerUnlock 512 0, .lpiRefresh 512 false, .rxLpiRefresh 512 false,
    .flockHeaderCheck 512 []] : List Instr).any (fun c => c.wf)) = false := by decide +kernel

/-- Frames longer than any that a port can receive. -/
theorem test_ill_formed_frames : ∀ bs : List Byte, 16384 < bs.length →
    Instr.wf (.rxAddressFilter 0 bs) = false ∧ Instr.wf (.rxFrameReady 0 bs) = false ∧
    Instr.wf (.rxFrameTruncate 0 bs) = false ∧ Instr.wf (.rxFrameEnd 0 bs) = false ∧ Instr.wf (.rxFrameCut 0 bs) = false ∧
    Instr.wf (.rxFragmentEnd 0 bs) = false ∧ Instr.wf (.verifyFrameReceived 0 bs) = false ∧
    Instr.wf (.respondFrameReceived 0 bs) = false ∧ Instr.wf (.flockHeaderCheck 0 bs) = false := by
  intro bs h
  have h : ¬ bs.length ≤ 16384 := by omega
  simp [Instr.wf, h]

theorem test_frame_limit_met : 16384 < (List.replicate 16385 (0 : Byte)).length := by
  rw [List.length_replicate]; decide +kernel

/-! ## Single steps: what the spec's rules give for one command each -/

/-- "123456789", the check string of R119, R203 and R535. -/
def digits : List Byte := (List.range 9).map (fun i => BitVec.ofNat 8 (0x31 + i))

/-- The check value of CRC-32C (R119). -/
theorem test_crc32c : crc32c digits = 0xE3069283 := by decide +kernel

/-- The check value of the CRC-32 of a frame's FCS (R203). -/
theorem test_crc32 : crc32 digits = 0xCBF43926 := by decide +kernel

/-- The first and last words of the SHA-256 of "abc" (FIPS 180-4's example). -/
theorem test_sha256 : ((sha256 [0x61, 0x62, 0x63]).head?, (sha256 [0x61, 0x62, 0x63]).getLast?) = (some 0xBA7816BF, some 0xF20015AD) := by
  decide +kernel

/-- Words spell no command: the table gives no bits. -/
theorem test_no_word_decodes : decodeTableWord 32 0 = none ∧ State.reset.withFetchWord 32 0 = State.reset := by decide +kernel

/-- A tick with an empty queue moves a time base on by 2.5 ns (R481). -/
theorem test_tick_advances_time : (match step up with
    | .next t => decide ((t.dp.tb 0).ns = 2 ∧ (t.dp.tb 0).frac = 2 ^ 31)
    | _ => false) = true := by decide +kernel

/-- A read by port B of a free semaphore takes it (R103). -/
theorem test_semaphoreRead : (after (.semaphoreRead (some .b) 31) up).sh.sem.getD 31 none = some .b := by decide +kernel

/-- A write changes no byte that is not enabled (R11). -/
theorem test_bytes_not_enabled : (up.dp.writeReg .cvuCtxState false 0x2 0xFFFFFFFF 3).rd F.cvuCtxState_S 3 = 0xFF00 := by decide +kernel

/-- POST fills the sender's mailbox (R108). -/
theorem test_mailboxPost : ((after (.mailboxPost .a) up).sh.mboxOut .a).full = true := by decide +kernel

/-- A doorbell rings at the other port (R112). -/
theorem test_doorbellRing : ((after (.doorbellRing .a 0xF 0x80000001) up).sh.view .b).dbIn = 0x80000001 := by decide +kernel

/-- An access to a misaligned address is answered ERROR with data 0 (R47). -/
theorem test_misaligned : ((after (.registerAccessTransfer .a false 2 0xF 0) up).sh.port .a).rsp.map (fun r => r.code) = some .error := by
  decide +kernel

/-- A link taken down is in state 0, DISABLED (R177, R180). -/
theorem test_linkAdminDown : (after (.linkAdminDown .hdma 0 0xF 0) (linked 5 1)).dp.linkState 0 = LS.disabled := by decide +kernel

/-- A requested clock is acknowledged (R36). -/
theorem test_clockAckChange : ((after (.clockAckChange 3) (State.reset.onSh (fun h => h.setClk 3 ⟨true, false⟩))).sh.clk 3).ack = true := by decide +kernel

/-- A pause timer that runs out ends the pause of its class (R221). -/
theorem test_pauseTimerExpire : ((after (.pauseTimerExpire 0 3) (pausing 3 { st := .paused, quanta := 1 } false)).dp.pauseOf 0 3).st = .running := by
  decide +kernel

/-- A kicked queue is polled where it stands (R442). -/
theorem test_queueKick : ((after (.queueKick .hdma false 32767) (queues QS.running {} {})).dp.trgPen 0).kicks = [txq] := by decide +kernel

/-- The last slot of a ring takes its completion and the phase turns (R434). -/
theorem test_holdRelease_wraps : (after (.holdRelease 4095) (ringIn QS.running 7 { held := [[1]] })).dp.rd F.trgCqIdx_PI 4095 = 0 ∧
    (after (.holdRelease 4095) (ringIn QS.running 7 { held := [[1]] })).dp.rd F.trgCqIdx_PHASE 4095 = 1 := by decide +kernel

/-- A read beat of a free tag stops the port (R70). -/
theorem test_readBeat_unasked : ((after (.readBeat 0 9 [] 0 true) (granted false [] none)).dp.srp 0).stopped = true := by decide +kernel

/-- STEP sets the base to what TIM_SET held (R487, R488). -/
theorem test_timeCommandApply : (after (.timeCommandApply 7) (based ⟨1, 5, 6, 0, true⟩ 0 1 9)).dp.tbNow 7 = ⟨5, 6⟩ := by decide +kernel

/-- A feed of the last byte of the check string leaves the complement of the check value of CRC-32C (R535, R545). -/
theorem test_contextFeed : (after (.contextFeed .hdma 0 0x1 0x39)
    (up.onDp (fun d => d.wr F.cvuCtxState_S (crc32c (digits.take 8) ^^^ 0xFFFFFFFF) 0))).dp.rd F.cvuCtxState_S 0 = 0xE3069283 ^^^ 0xFFFFFFFF := by
  decide +kernel

/-- A tally is cleared with its wrap flag (R579), those of another port are not. -/
theorem test_tallyClear : Tab.get (after (.tallyClear .hdma 31 15) ((linked 5 1).onDp (fun d =>
    { d with tally := [(5, 1), (128 * 511 + 3, 7)] }))).dp.tally 5 0 = 1 ∧
    Tab.get (after (.tallyClear .hdma 31 15) ((linked 5 1).onDp (fun d =>
    { d with tally := [(5, 1), (128 * 511 + 3, 7)] }))).dp.tally (128 * 511 + 3) 0 = 0 := by decide +kernel

/-- A fault of PD19 takes every other domain with it (R610). -/
theorem test_domainFault : ((after (.domainFault 19) up).sh.doms.drop 1).all
    (fun p => !p.pwrReq && p.iso) = true := by decide +kernel

/-- RELEASE of a claimed address leaves the member without one (R531). -/
theorem test_release : (after (.release .hdma) (member FL.up FA.claimed 3 3)).dp.flkValid = false := by decide +kernel
end Sys2Proof.Tests
end

/-! ## Registers by the access codes of their fields (R7, R10, R11, R13) -/

namespace Sys2Proof.Machine

/-- The complement of a mask within a register word. -/
theorem complement_testBit (m : Nat) {k : Nat} (hk : k < 32) : (0xFFFFFFFF ^^^ m).testBit k = !m.testBit k := by
  rw [Nat.testBit_xor, show (0xFFFFFFFF : Nat) = 2 ^ 32 - 1 from rfl, Nat.testBit_two_pow_sub_one]
  simp [hk]

/-- What an access code makes of a bit that a write reaches. -/
def Access.newBit (acc : Access) (old data : Bool) : Bool :=
  match acc with
  | .rw => data
  | .w1c => old && !data
  | .w1s => old || data
  | .ro | .wo | .rc => old

/-- The write of one field acts on the bits that the field covers in enabled bytes, and on an E field only while its unit is
unlocked. -/
theorem FieldSpec.write_testBit (f : FieldSpec) (unl : Bool) (be : BitVec 4) (data : Word) (w : Nat) {k : Nat} (hk : k < 32) :
    (f.write unl (beMask be) data.toNat w).testBit k =
      if f.mask.testBit k = true ∧ be.getLsbD (k / 8) = true ∧ ¬ (f.expert = true ∧ unl = false) then
        f.acc.newBit (w.testBit k) (data.getLsbD k)
      else w.testBit k := by
  by_cases hx : f.expert = true ∧ unl = false
  · simp [FieldSpec.write, hx]
  · have hl : (f.expert && !unl) = false := by simpa using hx
    have hen : (f.mask &&& beMask be).testBit k = decide (f.mask.testBit k = true ∧ be.getLsbD (k / 8) = true) := by
      rw [Nat.testBit_and, beMask_testBit be k hk, Bool.decide_and, Bool.decide_eq_true, Bool.decide_eq_true]
    simp only [FieldSpec.write, hl, hx, not_false_eq_true, and_true]
    generalize f.mask &&& beMask be = m at hen ⊢
    by_cases he : f.mask.testBit k = true ∧ be.getLsbD (k / 8) = true
    · rw [decide_eq_true he] at hen
      cases f.acc <;> simp [he, Access.newBit, complement_testBit _ hk, hen, BitVec.testBit_toNat]
    · rw [decide_eq_false he] at hen
      cases f.acc <;> simp [he, complement_testBit _ hk, hen]

/-- What one field adds to the word that a read returns. -/
def FieldSpec.readInto (w : Word) (v : Nat) (f : FieldSpec) : Nat :=
  match f.acc with
  | .wo => v
  | _ => v ||| (w.toNat &&& f.mask)

/-- What a read leaves of a word at one field. -/
def FieldSpec.clearRead (v : Nat) (f : FieldSpec) : Nat :=
  match f.acc with
  | .rc => v &&& (0xFFFFFFFF ^^^ f.mask)
  | _ => v

theorem Reg.readWord_eq (r : Reg) (w : Word) : r.readWord w = BitVec.ofNat 32 (r.fields.foldl (FieldSpec.readInto w) 0) := rfl

theorem Reg.afterRead_eq (r : Reg) (w : Word) :
    r.afterRead w = BitVec.ofNat 32 (r.fields.foldl FieldSpec.clearRead w.toNat) := rfl

theorem FieldSpec.readInto_testBit (w : Word) (v : Nat) (f : FieldSpec) (k : Nat) :
    (f.readInto w v).testBit k = (v.testBit k || (decide (f.acc ≠ .wo) && w.getLsbD k && f.mask.testBit k)) := by
  cases h : f.acc <;> simp [FieldSpec.readInto, h, BitVec.getLsbD]

theorem FieldSpec.clearRead_testBit (v : Nat) (f : FieldSpec) {k : Nat} (hk : k < 32) :
    (f.clearRead v).testBit k = (v.testBit k && !(decide (f.acc = .rc) && f.mask.testBit k)) := by
  cases h : f.acc <;> simp [FieldSpec.clearRead, h, complement_testBit _ hk]

/-- A field's mask has no bit outside the field. -/
theorem FieldSpec.mask_outside {f : FieldSpec} {k : Nat} (hle : f.lo ≤ f.hi) (hk : ¬ (f.lo ≤ k ∧ k ≤ f.hi)) :
    f.mask.testBit k = false := by rw [f.mask_testBit k hle]; exact decide_eq_false hk

/-- A field's mask has every bit of the field. -/
theorem FieldSpec.mask_inside {f : FieldSpec} {k : Nat} (h1 : f.lo ≤ k) (h2 : k ≤ f.hi) : f.mask.testBit k = true := by
  rw [f.mask_testBit k (Nat.le_trans h1 h2)]; exact decide_eq_true ⟨h1, h2⟩

/-- A bit of a field lies in the register word. -/
theorem Reg.field_bit_lt {r : Reg} {f : FieldSpec} {k : Nat} (hf : f ∈ r.fields) (hk : k ≤ f.hi) : k < 32 :=
  Nat.lt_of_le_of_lt hk (fieldsApart_lt r.fields_apart hf).2

/-- A write acts on a bit of a register as the one field that covers it does, and leaves a reserved bit alone. -/
theorem Reg.writeWord_bit (r : Reg) (unl : Bool) (be : BitVec 4) (data old : Word) {k : Nat} (hk : k < 32) :
    (∀ f, f ∈ r.fields → f.lo ≤ k → k ≤ f.hi → (r.writeWord unl be data old).getLsbD k =
      (f.write unl (beMask be) data.toNat old.toNat).testBit k) ∧
    ((∀ f, f ∈ r.fields → ¬ (f.lo ≤ k ∧ k ≤ f.hi)) → (r.writeWord unl be data old).getLsbD k = old.getLsbD k) := by
  have h := foldl_fields (fun w f => f.write unl (beMask be) data.toNat w) k
    (fun w w' f hw => by simp only [FieldSpec.write_testBit _ _ _ _ _ hk, hw])
    (fun w f hle ho => by simp [FieldSpec.write_testBit _ _ _ _ _ hk, FieldSpec.mask_outside hle ho])
    r.fields 32 r.fields_apart old.toNat
  simpa only [Reg.writeWord, BitVec.getLsbD_ofNat, hk, decide_true, Bool.true_and, BitVec.testBit_toNat] using h

/-- A read returns a bit of a field that is not WO, and 0 elsewhere. -/
theorem Reg.readWord_bit (r : Reg) (w : Word) {k : Nat} (hk : k < 32) :
    (∀ f, f ∈ r.fields → f.lo ≤ k → k ≤ f.hi → (r.readWord w).getLsbD k = (f.readInto w 0).testBit k) ∧
    ((∀ f, f ∈ r.fields → ¬ (f.lo ≤ k ∧ k ≤ f.hi)) → (r.readWord w).getLsbD k = false) := by
  have h := foldl_fields (FieldSpec.readInto w) k
    (fun v v' f hv => by simp only [FieldSpec.readInto_testBit, hv])
    (fun v f hle ho => by simp [FieldSpec.readInto_testBit, FieldSpec.mask_outside hle ho])
    r.fields 32 r.fields_apart 0
  simpa only [Reg.readWord_eq, BitVec.getLsbD_ofNat, hk, decide_true, Bool.true_and, Nat.zero_testBit] using h

/-- A read clears a bit of an RC field, and no other. -/
theorem Reg.afterRead_bit (r : Reg) (w : Word) {k : Nat} (hk : k < 32) :
    (∀ f, f ∈ r.fields → f.lo ≤ k → k ≤ f.hi → (r.afterRead w).getLsbD k = (f.clearRead w.toNat).testBit k) ∧
    ((∀ f, f ∈ r.fields → ¬ (f.lo ≤ k ∧ k ≤ f.hi)) → (r.afterRead w).getLsbD k = w.getLsbD k) := by
  have h := foldl_fields FieldSpec.clearRead k
    (fun v v' f hv => by simp only [FieldSpec.clearRead_testBit _ _ hk, hv])
    (fun v f hle ho => by simp [FieldSpec.clearRead_testBit _ _ hk, FieldSpec.mask_outside hle ho])
    r.fields 32 r.fields_apart w.toNat
  simpa only [Reg.afterRead_eq, BitVec.getLsbD_ofNat, hk, decide_true, Bool.true_and, BitVec.testBit_toNat] using h

/-- Settles O14: the fields of a register lie apart, so that a fold over them acts on a bit as the one field that covers it
does. -/
theorem fieldsFollowAccessCodes : Obligations.FieldsFollowAccessCodes := by
  unfold Obligations.FieldsFollowAccessCodes
  refine ⟨fun r unl be data old f k hf h1 h2 => ?_, fun r unl be data old k hk hout => ?_⟩
  · have hk : k < 32 := Reg.field_bit_lt hf h2
    have hm := FieldSpec.mask_inside h1 h2
    refine ⟨?_, ?_, ?_⟩
    · rw [(r.writeWord_bit unl be data old hk).1 f hf h1 h2, FieldSpec.write_testBit _ _ _ _ _ hk]
      by_cases hkeep : be.getLsbD (k / 8) = false ∨ (f.expert = true ∧ unl = false)
      · rw [if_pos hkeep, if_neg (fun h => hkeep.elim (by simp [h.2.1]) h.2.2)]
        rfl
      · rw [if_neg hkeep, if_pos ⟨hm, by simpa using fun h => hkeep (.inl h), fun h => hkeep (.inr h)⟩]
        cases f.acc <;> rfl
    · rw [(r.readWord_bit old hk).1 f hf h1 h2, FieldSpec.readInto_testBit, hm]
      by_cases ha : f.acc = .wo <;> simp [ha]
    · rw [(r.afterRead_bit old hk).1 f hf h1 h2, FieldSpec.clearRead_testBit _ _ hk, hm]
      by_cases ha : f.acc = .rc <;> simp [ha, BitVec.getLsbD]
  · exact ⟨(r.writeWord_bit unl be data old hk).2 hout, (r.readWord_bit old hk).2 hout, (r.afterRead_bit old hk).2 hout⟩

/-! ## Addresses -/

/-- The indices that an address formula gives lie in their ranges and give the address back (R622). -/
theorem RegGeom.index_some {g : RegGeom} {a i j : Nat} (h : g.index a = some (i, j)) :
    i < g.n1 ∧ j < g.n2 ∧ g.base + g.s1 * i + g.s2 * j = a := by
  unfold RegGeom.index at h
  split at h
  · cases h
  · dsimp only at h
    split at h
    · next hb => cases h; exact hb
    · cases h

/-- A listed address is that of its register, at indices in their ranges (R622). -/
theorem Reg.ofAddr_some {a i j : Nat} {r : Reg} (h : Reg.ofAddr a = some (r, i, j)) :
    i < r.geom.n1 ∧ j < r.geom.n2 ∧ r.addr i j = a := by
  obtain ⟨r', _, hr'⟩ := List.exists_of_findSome?_eq_some h
  obtain ⟨x, hx, he⟩ := Option.map_eq_some_iff.1 hr'
  cases he
  exact RegGeom.index_some hx

theorem penDomain_ne_zero (p : Nat) : penDomain p ≠ 0 := by
  unfold penDomain
  split
  · omega
  · split <;> decide

/-- Only the shepherd's own units and the addresses outside every unit lie in PD0 (R620, R621). -/
theorem domainOf_eq_zero_iff (a : Nat) : domainOf a = 0 ↔ unitOf a = .shp ∨ unitOf a = .pwr ∨ unitOf a = .none := by
  unfold domainOf
  cases unitOf a
  case pen => dsimp only; split <;> simp [penDomain_ne_zero]
  all_goals simp

/-! ## Completion of an access and the views of the ports -/

@[simp] theorem State.respond_view (s : State) (m n : RPort) (c : RspCode) (w : Word) :
    (s.respond m c w).sh.view n = s.sh.view n := by cases m <;> cases n <;> rfl

/-- The completion of a port's access changes nothing of the other port's view. -/
@[simp] theorem State.performed_view_peer (s : State) (m : RPort) (a : Nat) (w : Bool) (x : Word) :
    (s.performed (.port m) a w x).sh.view m.peer = s.sh.view m.peer := by
  rcases s.performed_cases (.port m) a w x with h | ⟨n, hn, h⟩ | ⟨n, hn, h⟩ | ⟨n, sl, hn, h⟩ <;> rw [h]
  · simp
  · cases hn; exact Shepherd.peer_setView _ _ _
  · cases m <;> rfl

/-- The completion of an access changes of a view at most the arm. -/
theorem State.performed_view (s : State) (src : Src) (a : Nat) (w : Bool) (x : Word) (n : RPort) :
    ∃ b, (s.performed src a w x).sh.view n = { s.sh.view n with armed := b } := by
  rcases s.performed_cases src a w x with h | ⟨m, _, h⟩ | ⟨m, _, h⟩ | ⟨m, sl, _, h⟩ <;> rw [h]
  · exact ⟨_, rfl⟩
  · exact ⟨_, s.respond_view m n _ _⟩
  · cases m <;> cases n <;> exact ⟨_, rfl⟩
  · cases n <;> exact ⟨_, rfl⟩

@[simp] theorem State.performed_intEn (s : State) (src : Src) (a : Nat) (w : Bool) (x : Word) (n : RPort) :
    ((s.performed src a w x).sh.view n).intEn = (s.sh.view n).intEn := by
  obtain ⟨b, h⟩ := s.performed_view src a w x n; rw [h]
@[simp] theorem State.performed_intRoute (s : State) (src : Src) (a : Nat) (w : Bool) (x : Word) (n : RPort) :
    ((s.performed src a w x).sh.view n).intRoute = (s.sh.view n).intRoute := by
  obtain ⟨b, h⟩ := s.performed_view src a w x n; rw [h]
@[simp] theorem State.performed_dbMask (s : State) (src : Src) (a : Nat) (w : Bool) (x : Word) (n : RPort) :
    ((s.performed src a w x).sh.view n).dbMask = (s.sh.view n).dbMask := by
  obtain ⟨b, h⟩ := s.performed_view src a w x n; rw [h]

@[simp] theorem Shepherd.view_modView (h : Shepherd) (m : RPort) (f : View → View) :
    (h.modView m f).view m = f (h.view m) := Shepherd.view_setView _ _ _
@[simp] theorem Shepherd.peer_modView (h : Shepherd) (m : RPort) (f : View → View) :
    (h.modView m f).view m.peer = h.view m.peer := Shepherd.peer_setView _ _ _

/-! ## REGISTER_WRITE -/

theorem exec_registerWrite (m : RPort) (a : Nat) (be : BitVec 4) (data : Word) (tie : Option (BitVec 4 × Word)) (s : State) :
    exec (.registerWrite m a be data tie) s = execRegisterWrite m a be data tie s := rfl

/-- Registers behind the link whose write has no effect beyond their access codes (R7). -/
def plainRegs : List Reg :=
  [.timRate, .timThresh, .timSetNs, .timOfs, .penRxTpid, .penTblSel, .penSortField, .actEcmp, .drvPortRate, .drvPortBurst,
   .celCfg, .flkAddr]

/-- The unit of a plain register. -/
def plainUnit : Reg → Unit'
  | .penRxTpid | .penTblSel | .penSortField => .pen
  | .actEcmp => .act
  | .drvPortRate | .drvPortBurst => .drv
  | .celCfg => .cel
  | .flkAddr => .flk
  | _ => .tim

/-- The addresses of a plain register lie in the range of its unit (R620). -/
theorem unitOf_plainRegs {r : Reg} (hr : r ∈ plainRegs) {i j : Nat} (hi : i < r.geom.n1) (hj : j < r.geom.n2) :
    unitOf (r.addr i j) = plainUnit r := by
  simp only [plainRegs, List.mem_cons, List.not_mem_nil, or_false] at hr
  rcases hr with rfl | rfl | rfl | rfl | rfl | rfl | rfl | rfl | rfl | rfl | rfl | rfl <;>
    simp only [Reg.geom, Reg.addr, unitOf, plainUnit] at hi hj ⊢ <;> grind

/-- No plain register lies in PD0. -/
theorem domainOf_plainRegs {r : Reg} (hr : r ∈ plainRegs) {i j : Nat} (hi : i < r.geom.n1) (hj : j < r.geom.n2) :
    domainOf (r.addr i j) ≠ 0 := by
  rw [Ne, domainOf_eq_zero_iff, unitOf_plainRegs hr hi hj]
  unfold plainUnit
  split <;> decide

/-- A write of a plain register follows its access codes and does nothing more. -/
theorem State.writeReg_plain {s : State} (src : Src) {r : Reg} (hr : r ∈ plainRegs) {i j : Nat} (be : BitVec 4) (data : Word)
    (hi : i < r.geom.n1) (hj : j < r.geom.n2) (hreg : s.dp.hasReg r i j = true) :
    s.writeReg src r i j be data = (s.plainWrite src r i j be data, true) := by
  simp only [State.writeReg, hreg, unitOf_plainRegs hr hi hj]
  simp only [plainRegs, List.mem_cons, List.not_mem_nil, or_false] at hr
  rcases hr with rfl | rfl | rfl | rfl | rfl | rfl | rfl | rfl | rfl | rfl | rfl | rfl <;> rfl

/-- A write of a plain register that reaches it. -/
theorem exec_registerWrite_plain {s : State} {m : RPort} {a : Nat} {r : Reg} {i j : Nat} (be : BitVec 4) (data : Word)
    (ha : Reg.ofAddr a = some (r, i, j)) (hr : r ∈ plainRegs) (hreach : s.reaches (.port m) a true = true)
    (hreg : s.dp.hasReg r i j = true) :
    exec (.registerWrite m a be data none) s =
      .next ((s.plainWrite (.port m) r i j be data).performed (.port m) a true 0) := by
  obtain ⟨hi, hj, rfl⟩ := Reg.ofAddr_some ha
  simp [exec_registerWrite, execRegisterWrite, domainOf_plainRegs hr hi hj, hreach, State.performWrite, ha,
    State.writeReg_plain (.port m) hr be data hi hj hreg]

/-- A port that is not open makes no row's access. -/
theorem State.reaches_closed {s : State} {m : RPort} (h : s.portOpen m = false) (a : Nat) (w : Bool) :
    s.reaches (.port m) a w = false := by simp [State.reaches, State.rowDue, h]

/-- A port that is not open writes no SHP or PWR register. -/
theorem State.corePortWrite_closed {s : State} {m : RPort} (h : s.portOpen m = false) (r : Reg) (i : Nat) (be : BitVec 4)
    (data : Word) : s.corePortWrite m r i be data none = s := by
  unfold State.corePortWrite
  split
  · simp [State.viewWrite, h]
  · simp [State.coreWrite, h]

/-- A write of a port that is not open changes nothing. -/
theorem exec_registerWrite_closed {s : State} {m : RPort} (h : s.portOpen m = false) (a : Nat) (be : BitVec 4) (data : Word) :
    exec (.registerWrite m a be data none) s = .next s := by
  have hoff : s.turnedOff (.port m) = s := if_neg (by simp [h])
  have hr := State.reaches_closed h a true
  simp only [exec_registerWrite, execRegisterWrite, hr]
  split
  · split
    · rw [State.corePortWrite_closed h]
    · rw [State.regWrite_off _ _ _ _ hr, hoff]
  · rw [if_neg Bool.false_ne_true, hoff]

/-- A write behind the link that does not reach its register ends the port's arm (R99). -/
theorem exec_registerWrite_off {s : State} {m : RPort} {a : Nat} (hd : domainOf a ≠ 0)
    (hreach : s.reaches (.port m) a true = false) (ho : s.portOpen m = true) (be : BitVec 4) (data : Word) :
    exec (.registerWrite m a be data none) s = .next (s.disarm m) := by
  simp [exec_registerWrite, execRegisterWrite, hd, hreach, State.turnedOff, ho]

/-- The registers of the interrupt tree that each port writes for itself (R91, R92). -/
def ownTreeRegs : List Reg := [.shpIntEn, .shpIntRoute, .shpDbInMask]

/-- A port's own registers of the interrupt tree lie in PD0. -/
theorem domainOf_ownTreeRegs {r : Reg} (hr : r ∈ ownTreeRegs) {i j : Nat} (hi : i < r.geom.n1) (hj : j < r.geom.n2) :
    domainOf (r.addr i j) = 0 := by
  refine (domainOf_eq_zero_iff _).2 (.inl (if_pos ?_))
  simp only [ownTreeRegs, List.mem_cons, List.not_mem_nil, or_false] at hr
  rcases hr with rfl | rfl | rfl <;> simp only [Reg.geom, Reg.addr] at hi hj ⊢ <;> omega

/-- A write of a port's own register of the interrupt tree takes effect while the port is open, and completes. -/
theorem exec_registerWrite_own {s : State} {m : RPort} {a : Nat} {r : Reg} {i j : Nat} (be : BitVec 4) (data : Word)
    (hr : r ∈ ownTreeRegs) (ha : Reg.ofAddr a = some (r, i, j)) (ho : s.portOpen m = true) :
    exec (.registerWrite m a be data none) s =
      .next ((s.coreEffect m false r i be data).performed (.port m) (r.addr i 0) true 0) := by
  obtain ⟨hi, hj, rfl⟩ := Reg.ofAddr_some ha
  have hown : r.isView i = true ∧ r ≠ .shpExpertKey := by
    simp only [ownTreeRegs, List.mem_cons, List.not_mem_nil, or_false] at hr
    rcases hr with rfl | rfl | rfl <;> exact ⟨rfl, by decide⟩
  simp [exec_registerWrite, execRegisterWrite, domainOf_ownTreeRegs hr hi hj, ha, State.corePortWrite,
    State.viewWrite, ho, hown.1, hown.2]

theorem State.coreEffect_intEn (s : State) (m : RPort) (armed : Bool) (i : Nat) (be : BitVec 4) (data : Word) :
    s.coreEffect m armed .shpIntEn i be data = s.onSh (fun h => h.modView m (fun v =>
      { v with intEn := Tab.put v.intEn i (mergeNat be data (Tab.get v.intEn i 0) 16) 0 })) := rfl

theorem State.coreEffect_intRoute (s : State) (m : RPort) (armed : Bool) (i : Nat) (be : BitVec 4) (data : Word) :
    s.coreEffect m armed .shpIntRoute i be data = s.onSh (fun h => h.modView m (fun v =>
      { v with intRoute := Tab.put v.intRoute i (mergeNat be data (Tab.get v.intRoute i 0) 4) 0 })) := rfl

theorem State.coreEffect_dbInMask (s : State) (m : RPort) (armed : Bool) (i : Nat) (be : BitVec 4) (data : Word) :
    s.coreEffect m armed .shpDbInMask i be data = s.onSh (fun h => h.modView m (fun v =>
      { v with dbMask := mergeNat be data v.dbMask 32 })) := rfl

/-! ## The interrupt tree -/

theorem b2n_testBit (b : Bool) (k : Nat) : (b2n b).testBit k = (decide (k = 0) && b) := by
  rw [show b2n b = b.toNat by cases b <;> rfl, Nat.testBit_bool_toNat]

theorem ofBits_succ (n : Nat) (f : Nat → Bool) : ofBits (n + 1) f = 2 ^ n * b2n (f n) + ofBits n f := by
  simp only [ofBits, List.range_succ, List.foldl_append, List.foldl_cons, List.foldl_nil]
  rw [Nat.add_comm, Nat.mul_comm]

theorem ofBits_lt (n : Nat) (f : Nat → Bool) : ofBits n f < 2 ^ n := by
  induction n with
  | zero => exact Nat.one_pos
  | succ n ih => rw [ofBits_succ, Nat.pow_succ]; cases f n <;> simp only [b2n] <;> grind

/-- A vector of booleans has the bits that it was made of. -/
theorem ofBits_testBit (n : Nat) (f : Nat → Bool) (k : Nat) : (ofBits n f).testBit k = (decide (k < n) && f k) := by
  induction n with
  | zero => simp [ofBits]
  | succ n ih =>
    rw [ofBits_succ, Nat.testBit_two_pow_mul_add _ (ofBits_lt n f), ih, b2n_testBit]
    rcases Nat.lt_trichotomy k n with hk | rfl | hk
    · simp [hk, Nat.lt_succ_of_lt hk]
    · simp
    · simp [show ¬ k < n by omega, show ¬ k < n + 1 by omega, show k - n ≠ 0 by omega]

theorem ofBits_getLsbD (n : Nat) (f : Nat → Bool) {k : Nat} (hk : k < 32) :
    (BitVec.ofNat 32 (ofBits n f)).getLsbD k = (decide (k < n) && f k) := by
  rw [BitVec.getLsbD_ofNat, ofBits_testBit]; simp [hk]

/-- int_wake is 1 exactly while the two wake registers share a bit (R606). -/
theorem Shepherd.wakeLine_iff (h : Shepherd) : h.wakeLine = true ↔ ∃ k, k < 32 ∧
    (RegFile.word h.regs .pwrWakeStat 0 0).getLsbD k = true ∧ (RegFile.word h.regs .pwrWakeEn 0 0).getLsbD k = true := by
  rw [Shepherd.wakeLine, decide_eq_true_iff]
  constructor
  · intro hne
    obtain ⟨k, hk⟩ := Nat.exists_testBit_of_ne_zero (fun h0 => hne (BitVec.eq_of_toNat_eq h0))
    rw [BitVec.testBit_toNat, BitVec.getLsbD_and, Bool.and_eq_true] at hk
    exact ⟨k, BitVec.lt_of_getLsbD hk.1, hk⟩
  · rintro ⟨k, _, h1, h2⟩ h0
    have hk := congrArg (fun w => BitVec.getLsbD w k) h0
    simp only [BitVec.getLsbD_and, h1, h2, Bool.and_self, BitVec.ofNat_eq_ofNat, BitVec.getLsbD_zero, Bool.true_eq_false] at hk

/-- The doorbell cause: some doorbell bit is 1 and not masked (R113). -/
theorem unmasked_ne_zero {dbIn : Nat} (hlt : dbIn < 2 ^ 32) (dbMask : Nat) :
    decide (dbIn &&& (0xFFFFFFFF ^^^ dbMask) ≠ 0) = (List.range 32).any (fun b => dbIn.testBit b && !dbMask.testBit b) := by
  rw [Bool.eq_iff_iff, decide_eq_true_eq, List.any_eq_true]
  constructor
  · intro hne
    obtain ⟨b, hb⟩ := Nat.exists_testBit_of_ne_zero hne
    rw [Nat.testBit_and, Bool.and_eq_true] at hb
    have h32 : b < 32 := by
      have h1 := hb.1
      rw [← Nat.mod_eq_of_lt hlt, Nat.testBit_mod_two_pow, Bool.and_eq_true] at h1
      exact of_decide_eq_true h1.1
    rw [complement_testBit _ h32] at hb
    exact ⟨b, List.mem_range.2 h32, by rw [hb.1, hb.2]; rfl⟩
  · rintro ⟨b, hb, h⟩ h0
    rw [← complement_testBit _ (List.mem_range.1 hb), ← Nat.testBit_and, h0, Nat.zero_testBit] at h
    exact absurd h Bool.false_ne_true

/-- Cause bit k of source 51 (R116). -/
def Shepherd.ownCause (h : Shepherd) (m : RPort) (k : Nat) : Bool :=
  match k with
  | 0 => (h.mboxOut m.peer).full
  | 1 => (h.mboxOut m.peer).collision
  | 2 => !(h.mboxOut m).full
  | 3 => decide ((h.view m).dbIn &&& (0xFFFFFFFF ^^^ (h.view m).dbMask) ≠ 0)
  | 4 => decide ((h.view m).orphan ≠ 0)
  | 5 => decide ((h.view m).fault ≠ 0)
  | 6 => (h.view m).linkTo
  | 7 => (h.view m).peerReset
  | _ => false

theorem Shepherd.ownCauses_eq (h : Shepherd) (m : RPort) : h.ownCauses m = ofBits 8 (h.ownCause m) := by
  simp only [Shepherd.ownCauses, Shepherd.ownCause, ofBits_succ, show ofBits 0 _ = 0 from rfl]
  omega

theorem Shepherd.ownCauses_testBit (h : Shepherd) (m : RPort) (k : Nat) : (h.ownCauses m).testBit k = h.ownCause m k := by
  rw [Shepherd.ownCauses_eq, ofBits_testBit]
  by_cases hk : k < 8
  · simp [hk]
  · obtain ⟨n, rfl⟩ : ∃ n, k = n + 8 := ⟨k - 8, by omega⟩
    simp [Shepherd.ownCause]

/-- A bit of an event register that shows a level in one of its bits. -/
theorem levelWord_testBit (w : Word) (n : Nat) (b : Bool) {k : Nat} (hk : k < 16) :
    ((putBits w n n (b2n b)).toNat % 2 ^ 16).testBit k = if k = n then b else w.getLsbD k := by
  rw [Nat.testBit_mod_two_pow, putBits_testBit _ _ _ _ _ (by omega), b2n_testBit]
  by_cases he : k = n
  · subst he; simp [hk]
  · rw [if_neg (by omega), if_neg he]; simp [hk, BitVec.getLsbD]

theorem Shepherd.src_iff (h : Shepherd) (m : RPort) (n : Nat) :
    h.src m n = true ↔ h.causes m n &&& Tab.get (h.view m).intEn n 0 ≠ 0 := decide_eq_true_iff

theorem Shepherd.line_iff (h : Shepherd) (m : RPort) (l : Nat) :
    h.line m l = true ↔ ∃ n, n < 64 ∧ h.src m n = true ∧ Tab.get (h.view m).intRoute n 0 = l := by
  simp only [Shepherd.line, List.any_eq_true, List.mem_range, Bool.and_eq_true, decide_eq_true_eq]

/-- The words of the interrupt registers show the sources and the lines bit by bit (R115). -/
theorem State.coreWord_sources (s : State) (m : RPort) {j : Nat} (hj : j < 32) :
    (s.coreWord m .shpIntSrc0 0).getLsbD j = s.sh.src m j ∧ (s.coreWord m .shpIntSrc1 0).getLsbD j = s.sh.src m (32 + j) ∧
    (s.coreWord m .shpIntLine 0).getLsbD j = (decide (j < 16) && s.sh.line m j) := by
  refine ⟨(ofBits_getLsbD _ _ hj).trans ?_, (ofBits_getLsbD _ _ hj).trans ?_, ofBits_getLsbD _ _ hj⟩ <;>
    rw [decide_eq_true hj, Bool.true_and]

theorem Shepherd.causes_unit (h : Shepherd) (m : RPort) {n : Nat} (hn : n < 51) : h.causes m n = Tab.get h.cause n 0 :=
  if_pos hn

theorem Shepherd.causes_unused (h : Shepherd) (m : RPort) {n : Nat} (hn : 54 ≤ n) : h.causes m n = 0 := by
  simp only [Shepherd.causes, show ¬ n < 51 by omega, show n ≠ 51 by omega, show n ≠ 52 by omega, show n ≠ 53 by omega,
    if_false]

/-- Settles O15: a write runs the one effect of its register and then completes the port's access, which touches neither the
datapath nor more of a view than its arm; the words of the interrupt tree are read bit by bit. -/
theorem plainRegisterWrite : Obligations.PlainRegisterWrite := by
  unfold Obligations.PlainRegisterWrite
  refine ⟨?_, ?_, ?_, ?_, ?_, ?_, ?_⟩
  · intro s m a be data r i j ha hr hreach hreg
    refine ⟨_, exec_registerWrite_plain be data ha hr hreach hreg, ?_⟩
    obtain ⟨_, _, rfl⟩ := Reg.ofAddr_some ha
    simp only [State.performed_dp, State.performed_regs, State.performed_pending]
    exact ⟨RegFile.word_setWord_same _ _ _ _ _, fun b hb => Tab.find_put_ne _ hb _ _, rfl, rfl, rfl⟩
  · intro s m a be data hd hreach ho
    exact ⟨_, exec_registerWrite_off hd hreach ho be data, rfl⟩
  · intro s m a be data ho
    exact ⟨s, exec_registerWrite_closed ho a be data, rfl⟩
  · intro s m a be data i ha ho
    refine ⟨_, exec_registerWrite_own be data (by decide) ha ho, ?_⟩
    rw [State.coreEffect_intEn]
    refine ⟨by simp, by simp, by simp [mergeNat], fun k hk => ?_⟩
    simp [Tab.get_put_ne _ hk]
  · intro s m a be data i ha ho
    refine ⟨_, exec_registerWrite_own be data (by decide) ha ho, ?_⟩
    simp [State.coreEffect_intRoute, mergeNat]
  · intro s m a be data ha ho
    refine ⟨_, exec_registerWrite_own be data (by decide) ha ho, ?_⟩
    simp [State.coreEffect_dbInMask, mergeNat]
  · intro s m
    refine ⟨fun n _ => s.sh.src_iff m n, fun l _ => s.sh.line_iff m l, fun j hj => s.coreWord_sources m hj, s.sh.wakeLine_iff,
      fun n hn => s.sh.causes_unit m hn, fun n hn => s.sh.causes_unused m hn, fun hdb k => ?_,
      fun k hk => levelWord_testBit _ 2 _ hk, fun k hk => levelWord_testBit _ 4 _ hk⟩
    have hk := s.sh.ownCauses_testBit m k
    unfold Shepherd.ownCause at hk
    rw [unmasked_ne_zero hdb] at hk
    exact hk

end Sys2Proof.Machine

/-! ## Writes and reads of the SHP registers -/

namespace Sys2Proof.Machine

@[simp] theorem peer_peer (m : RPort) : m.peer.peer = m := by cases m <;> rfl

/-- A bit that a write carries in an enabled byte (R11). -/
theorem written_testBit (be : BitVec 4) (data : Word) {k : Nat} (hk : k < 32) :
    (data.toNat &&& beMask be).testBit k = (be.getLsbD (k / 8) && data.getLsbD k) := by
  rw [Nat.testBit_and, beMask_testBit be k hk, BitVec.testBit_toNat, Bool.and_comm]

/-- A WO field of one bit is written 1 where its byte is enabled and the bit is 1 (R11). -/
theorem RegField.wo_bit {f : RegField} (hf : f.hi = f.lo) (hl : f.lo < 32) (be : BitVec 4) (data : Word) :
    f.wo be data = (be.getLsbD (f.lo / 8) && data.getLsbD f.lo).toNat := by
  have hw : data.toNat &&& beMask be < 2 ^ 32 := Nat.lt_of_le_of_lt Nat.and_le_left data.isLt
  rw [← written_testBit be data hl, RegField.wo, bitsOf, hf, BitVec.toNat_ofNat, Nat.mod_eq_of_lt hw,
    Nat.shiftRight_eq_div_pow, Nat.toNat_testBit, show f.lo + 1 - f.lo = 1 by omega, Nat.pow_one]

/-! ### The completion of an access -/

@[simp] theorem State.performed_mboxOut (s : State) (src : Src) (a : Nat) (w : Bool) (x : Word) (n : RPort) :
    (s.performed src a w x).sh.mboxOut n = s.sh.mboxOut n := by
  cases n
  · exact s.performed_mboxAB src a w x
  · exact s.performed_mboxBA src a w x

@[simp] theorem State.performed_fault (s : State) (src : Src) (a : Nat) (w : Bool) (x : Word) (n : RPort) :
    ((s.performed src a w x).sh.view n).fault = (s.sh.view n).fault := by
  obtain ⟨b, h⟩ := s.performed_view src a w x n; rw [h]

/-- An access that stands at the core is answered as it takes effect (R46). -/
theorem State.performed_answers {s : State} {m : RPort} {a : Nat} {w : Bool} (h : s.sh.atCore m w a = true) (x : Word) :
    ((s.performed (.port m) a w x).sh.port m).acc = none ∧
      ((s.performed (.port m) a w x).sh.port m).rsp = some ⟨.ok, x⟩ := by
  unfold Shepherd.atCore at h
  split at h
  · next y hy =>
    rw [Bool.and_eq_true, decide_eq_true_eq] at h
    rw [s.performed_atCore m a w x y hy h.1 h.2, State.respond_port]
    exact ⟨rfl, rfl⟩
  · cases h

/-! ### What a change of a view or of a mailbox leaves -/

@[simp] theorem Shepherd.modView_regs (h : Shepherd) (m : RPort) (f : View → View) : (h.modView m f).regs = h.regs :=
  Shepherd.setView_regs _ _ _
@[simp] theorem Shepherd.modView_sem (h : Shepherd) (m : RPort) (f : View → View) : (h.modView m f).sem = h.sem :=
  Shepherd.setView_sem _ _ _
@[simp] theorem Shepherd.modView_expert (h : Shepherd) (m : RPort) (f : View → View) : (h.modView m f).expert = h.expert :=
  Shepherd.setView_expert _ _ _
@[simp] theorem Shepherd.modView_blkN (h : Shepherd) (m : RPort) (f : View → View) : (h.modView m f).blkN = h.blkN :=
  Shepherd.setView_blkN _ _ _
@[simp] theorem Shepherd.modView_clk (h : Shepherd) (m : RPort) (f : View → View) (x : Nat) :
    (h.modView m f).clk x = h.clk x := by rw [Shepherd.clk, Shepherd.modView, Shepherd.setView_clks, Shepherd.clk]
@[simp] theorem Shepherd.modView_port (h : Shepherd) (m n : RPort) (f : View → View) : (h.modView m f).port n = h.port n := by
  cases n
  · exact Shepherd.setView_portA _ _ _
  · exact Shepherd.setView_portB _ _ _

@[simp] theorem Shepherd.modBox_regs (h : Shepherd) (m : RPort) (f : Mailbox → Mailbox) : (h.modBox m f).regs = h.regs :=
  Shepherd.setMboxOut_regs _ _ _
@[simp] theorem Shepherd.mboxOut_modBox (h : Shepherd) (m : RPort) (f : Mailbox → Mailbox) :
    (h.modBox m f).mboxOut m = f (h.mboxOut m) := Shepherd.mboxOut_setMboxOut _ _ _
@[simp] theorem Shepherd.peer_modBox (h : Shepherd) (m : RPort) (f : Mailbox → Mailbox) :
    (h.modBox m f).mboxOut m.peer = h.mboxOut m.peer := Shepherd.peer_setMboxOut _ _ _
/-- Where a receiver changes its mailbox, the one it sends in stays. -/
@[simp] theorem Shepherd.own_modBox_peer (h : Shepherd) (m : RPort) (f : Mailbox → Mailbox) :
    (h.modBox m.peer f).mboxOut m = h.mboxOut m := by simpa using h.peer_modBox m.peer f

/-- Whether a port is open does not depend on the views. -/
theorem State.portOpen_onView (s : State) (m n : RPort) (f : View → View) :
    (s.onSh (fun h => h.modView n f)).portOpen m = s.portOpen m := by simp [State.portOpen]

/-! ### Writes while the port is open -/

/-- A write of a port's own register but SHP_EXPERT_KEY takes effect and then completes (R91). -/
theorem State.viewWrite_open {s : State} {m : RPort} (ho : s.portOpen m = true) {r : Reg} (hr : r ≠ .shpExpertKey) (i : Nat)
    (be : BitVec 4) (data : Word) :
    s.viewWrite m r i be data = (s.coreEffect m false r i be data).performed (.port m) (r.addr i 0) true 0 := by
  simp [State.viewWrite, ho, hr]

/-- A write of SHP_EXPERT_KEY arms the port after the access that carries it (R99). -/
theorem State.viewWrite_key {s : State} {m : RPort} (ho : s.portOpen m = true) (be : BitVec 4) (data : Word) :
    s.viewWrite m .shpExpertKey 0 be data =
      (s.performed (.port m) (Reg.shpExpertKey.addr 0 0) true 0).onSh (fun h => h.armWrite m be data) := by
  simp only [State.viewWrite, ho, Bool.not_true, Bool.false_eq_true, if_false, if_true]
  rfl

/-- A write of a register that the ports share takes effect and then completes, where the other port makes none (R87). -/
theorem State.corePortWrite_open {s : State} {m : RPort} (ho : s.portOpen m = true) {r : Reg} {i : Nat}
    (hr : r.isView i = false) (be : BitVec 4) (data : Word) :
    s.corePortWrite m r i be data none =
      (s.coreEffect m (s.sh.armedFor m (r.addr i 0)) r i be data).performed (.port m) (r.addr i 0) true 0 := by
  simp [State.corePortWrite, State.coreWrite, ho, hr]

/-! ### Semaphores (R103 to R105) -/

theorem Shepherd.semRead_free {h : Shepherd} {n : Nat} (hf : h.sem.getD n none = none) (m : RPort) :
    h.semRead m n = ({ h with sem := modAt (fun _ => some m) h.sem n }, 1) := by simp only [Shepherd.semRead, hf]

theorem Shepherd.semRead_held {h : Shepherd} {n : Nat} {x : RPort} (hx : h.sem.getD n none = some x) (m : RPort) :
    h.semRead m n = (h, if x = m then 3 else 2) := by simp only [Shepherd.semRead, hx]

/-- A read of a semaphore changes nothing but the semaphores. -/
theorem Shepherd.semRead_frame (h : Shepherd) (m : RPort) (n : Nat) :
    (h.semRead m n).1 = { h with sem := (h.semRead m n).1.sem } := by
  unfold Shepherd.semRead
  split <;> rfl

/-- The reader of a free semaphore becomes its holder. -/
theorem Shepherd.semRead_holder (h : Shepherd) (m : RPort) {n : Nat} (hn : n < h.sem.length) :
    (h.semRead m n).1.sem.getD n none = if h.sem.getD n none = none then some m else h.sem.getD n none := by
  cases hx : h.sem.getD n none with
  | none => rw [Shepherd.semRead_free hx, if_pos rfl, getD_modAt_same _ _ _ _ hn]
  | some x => rw [Shepherd.semRead_held hx, hx, if_neg (Option.some_ne_none x)]

theorem Shepherd.semRead_others (h : Shepherd) (m : RPort) {n k : Nat} (hk : k ≠ n) :
    (h.semRead m n).1.sem.getD k none = h.sem.getD k none := by
  cases hx : h.sem.getD n none with
  | none => rw [Shepherd.semRead_free hx, getD_modAt_ne _ _ _ hk]
  | some x => rw [Shepherd.semRead_held hx]

/-- STATE as a read returns it (R103). -/
theorem Shepherd.semRead_word (h : Shepherd) (m : RPort) (n : Nat) :
    (h.semRead m n).2 = if h.sem.getD n none = none then 1 else if h.sem.getD n none = some m then 3 else 2 := by
  cases hx : h.sem.getD n none with
  | none => rw [Shepherd.semRead_free hx, if_pos rfl]
  | some x => simp [Shepherd.semRead_held hx]

@[simp] theorem Shepherd.semRead_length (h : Shepherd) (m : RPort) (n : Nat) :
    (h.semRead m n).1.sem.length = h.sem.length := by
  cases hx : h.sem.getD n none with
  | none => rw [Shepherd.semRead_free hx, length_modAt]
  | some x => rw [Shepherd.semRead_held hx]

@[simp] theorem State.semReadBy_dp (s : State) (n : Nat) (m : RPort) : (s.semReadBy n m).dp = s.dp :=
  State.performed_dp _ _ _ _ _
@[simp] theorem State.semReadBy_sem (s : State) (n : Nat) (m : RPort) :
    (s.semReadBy n m).sh.sem = (s.sh.semRead m n).1.sem := State.performed_sem _ _ _ _ _
@[simp] theorem State.semReadBy_regs (s : State) (n : Nat) (m : RPort) : (s.semReadBy n m).sh.regs = s.sh.regs := by
  rw [State.semReadBy, State.performed_regs, Shepherd.semRead_frame]
@[simp] theorem State.semReadBy_token (s : State) (n : Nat) (m : RPort) : (s.semReadBy n m).sh.token = s.sh.token := by
  rw [State.semReadBy, State.performed_token, Shepherd.semRead_frame]

/-- A read of a semaphore that stands at the core is answered with STATE. -/
theorem State.semReadBy_answers {s : State} {m : RPort} {n : Nat} (h : s.sh.atCore m false (Reg.shpSem.addr n 0) = true) :
    ((s.semReadBy n m).sh.port m).acc = none ∧
      ((s.semReadBy n m).sh.port m).rsp = some ⟨.ok, (s.sh.semRead m n).2⟩ := by
  have hc : (s.sh.semRead m n).1.atCore m false (Reg.shpSem.addr n 0) = true := by
    rw [Shepherd.semRead_frame]
    cases m <;> exact h
  exact State.performed_answers hc _

/-- SEMAPHORE_READ by one port. -/
theorem exec_semaphoreRead_one (m : RPort) (n : Nat) (s : State) :
    exec (.semaphoreRead (some m) n) s = .next (if s.portOpen m then s.semReadBy n m else s) := rfl

/-- SEMAPHORE_READ by both ports: the port that the token names reads first, and the token passes (R87). -/
theorem exec_semaphoreRead_both {s : State} (ha : s.portOpen .a = true) (hb : s.portOpen .b = true) (n : Nat) :
    exec (.semaphoreRead none n) s =
      .next (((s.semReadBy n s.sh.token).semReadBy n s.sh.token.peer).onSh
        (fun h => { h with token := s.sh.token.peer })) := by
  change execSemaphoreRead none n s = _
  simp [execSemaphoreRead, ha, hb]

/-- Settles O9: a read of a free semaphore replaces its holder and nothing else; of two reads in one cycle the second finds
it held. -/
theorem semaphoreReadAcquires : Obligations.SemaphoreReadAcquires := by
  unfold Obligations.SemaphoreReadAcquires
  refine ⟨fun s m n hn ho => ?_, fun s m n hc => ?_, fun s n hn ha hb hf => ?_⟩
  · refine ⟨s.semReadBy n m, by rw [exec_semaphoreRead_one, if_pos ho], by simp, by simp, by simp, ?_, fun k hk => ?_,
      fun hat => ?_⟩
    · rw [State.semReadBy_sem, Shepherd.semRead_holder _ _ hn]
    · rw [State.semReadBy_sem, Shepherd.semRead_others _ _ hk]
    · rw [← Shepherd.semRead_word]
      exact State.semReadBy_answers hat
  · exact ⟨s, by simp [exec_semaphoreRead_one, hc], rfl⟩
  · refine ⟨_, exec_semaphoreRead_both ha hb n, by simp, ?_, rfl, fun k hk => ?_⟩
    · have h1 : (s.semReadBy n s.sh.token).sh.sem.getD n none = some s.sh.token := by
        rw [State.semReadBy_sem, Shepherd.semRead_holder _ _ hn, if_pos hf]
      rw [State.onSh_sh, State.semReadBy_sem, Shepherd.semRead_held h1, h1]
    · rw [State.onSh_sh, State.semReadBy_sem, Shepherd.semRead_others _ _ hk, State.semReadBy_sem,
        Shepherd.semRead_others _ _ hk]

theorem Shepherd.semWrite_idle (h : Shepherd) (m : RPort) (n : Nat) {be : BitVec 4} {data : Word}
    (h0 : F.shpSem_RELEASE.wo be data = 0) : h.semWrite m n be data = h := if_pos h0

theorem Shepherd.semWrite_holder {h : Shepherd} {m : RPort} {n : Nat} (hm : h.sem.getD n none = some m) {be : BitVec 4}
    {data : Word} (h1 : F.shpSem_RELEASE.wo be data ≠ 0) :
    h.semWrite m n be data = { h with sem := modAt (fun _ => none) h.sem n } := by
  rw [Shepherd.semWrite, if_neg h1, if_pos hm]

theorem Shepherd.semWrite_other {h : Shepherd} {m : RPort} {n : Nat} (hm : h.sem.getD n none ≠ some m) {be : BitVec 4}
    {data : Word} (h1 : F.shpSem_RELEASE.wo be data ≠ 0) :
    h.semWrite m n be data = h.modView m (fun v => { v with fault := setBit v.fault n true }) := by
  rw [Shepherd.semWrite, if_neg h1, if_neg hm]

/-- SEMAPHORE_RELEASE writes RELEASE = 1 whatever else its operands say. -/
theorem release_written (be : BitVec 4) (data : Word) : F.shpSem_RELEASE.wo (be ||| 2) (data ||| 0x100) ≠ 0 := by
  rw [RegField.wo_bit rfl (by decide)]
  simp [F.shpSem_RELEASE]

/-- SEMAPHORE_RELEASE without a tie. -/
theorem exec_semaphoreRelease_open {s : State} {m : RPort} (ho : s.portOpen m = true) (n : Nat) (be : BitVec 4) (data : Word) :
    exec (.semaphoreRelease m n be data none) s =
      .next ((s.onSh (fun h => h.semWrite m n (be ||| 2) (data ||| 0x100))).performed (.port m)
        (Reg.shpSem.addr n 0) true 0) :=
  congrArg Host.Outcome.next (State.corePortWrite_open (r := .shpSem) ho rfl _ _)

theorem setBit_true_testBit (v n k : Nat) : (setBit v n true).testBit k = (v.testBit k || decide (k = n)) := by
  rw [setBit, if_pos rfl, Nat.testBit_or, Nat.testBit_two_pow]
  simp only [eq_comm]

/-- Settles O10: the write of RELEASE = 1 has one effect for the holder and one for any other port. -/
theorem semaphoreReleaseByHolder : Obligations.SemaphoreReleaseByHolder := by
  unfold Obligations.SemaphoreReleaseByHolder
  refine ⟨fun s m n be data hn hm ho => ?_, fun s m n be data hm ho => ?_, fun h m n be data h0 => h.semWrite_idle m n h0⟩
  · have hw := Shepherd.semWrite_holder hm (release_written be data)
    refine ⟨_, exec_semaphoreRelease_open ho n be data, ?_⟩
    simp only [State.performed_dp, State.performed_regs, State.performed_sem, State.performed_fault,
      State.performed_view_peer, State.onSh_dp, State.onSh_sh, hw, true_and]
    refine ⟨getD_modAt_same _ _ _ _ hn, fun k hk => getD_modAt_ne _ _ _ hk, ?_⟩
    cases m <;> exact ⟨rfl, rfl⟩
  · have hw := Shepherd.semWrite_other hm (release_written be data)
    refine ⟨_, exec_semaphoreRelease_open ho n be data, ?_⟩
    simp only [State.performed_dp, State.performed_regs, State.performed_sem, State.performed_fault,
      State.performed_view_peer, State.onSh_dp, State.onSh_sh, hw, Shepherd.modView_regs, Shepherd.modView_sem,
      Shepherd.view_modView, Shepherd.peer_modView, setBit_true_testBit, implies_true, and_self]

/-! ### Expert unlock (R99, R100) -/

/-- The bits of SHP_EXPERT after a write. -/
theorem Shepherd.expertWrite_testBit (h : Shepherd) (armed : Bool) (be : BitVec 4) (data : Word) {k : Nat} (hk : k < 15) :
    (h.expertWrite armed be data).expert.testBit k =
      if be.getLsbD (k / 8) then (if armed then data.getLsbD k else (h.expert.testBit k && data.getLsbD k))
      else h.expert.testBit k := by
  have hm : (0x7FFF : Nat).testBit k = true := by
    rw [show (0x7FFF : Nat) = 2 ^ 15 - 1 from rfl, Nat.testBit_two_pow_sub_one, decide_eq_true hk]
  have hset : (h.expert &&& (0x7FFF ^^^ (beMask be &&& 0x7FFF)) ||| data.toNat &&& (beMask be &&& 0x7FFF)).testBit k =
      if be.getLsbD (k / 8) then data.getLsbD k else h.expert.testBit k := by
    simp only [Nat.testBit_or, Nat.testBit_and, Nat.testBit_xor, hm, beMask_testBit be k (by omega), BitVec.testBit_toNat]
    cases be.getLsbD (k / 8) <;> simp
  cases armed
  · change (h.expert &&& _).testBit k = _
    rw [Nat.testBit_and, hset]
    cases be.getLsbD (k / 8) <;> simp
  · exact hset

/-- EXPERT_WRITE without a tie. -/
theorem exec_expertWrite_open {s : State} {m : RPort} (ho : s.portOpen m = true) (be : BitVec 4) (data : Word) :
    exec (.expertWrite m be data none) s =
      .next ((s.onSh (fun h => h.expertWrite (s.sh.armedFor m (Reg.shpExpert.addr 0 0)) be data)).performed (.port m)
        (Reg.shpExpert.addr 0 0) true 0) :=
  congrArg Host.Outcome.next (State.corePortWrite_open (r := .shpExpert) (i := 0) ho rfl _ _)

theorem exec_expertArm_open {s : State} {m : RPort} (ho : s.portOpen m = true) (be : BitVec 4) (data : Word) :
    exec (.expertArm m be data) s =
      .next ((s.performed (.port m) (Reg.shpExpertKey.addr 0 0) true 0).onSh (fun h => h.armWrite m be data)) :=
  congrArg Host.Outcome.next (State.viewWrite_key ho be data)

/-- Settles O11: a write of SHP_EXPERT acts bit by bit as the arm of its access says; the arming word sets the arm after the
access that carries it has ended the one before. -/
theorem expertKeyAndUnlocks : Obligations.ExpertKeyAndUnlocks := by
  unfold Obligations.ExpertKeyAndUnlocks
  refine ⟨fun s m be data k hk ho => ?_, fun s m be data ho => ?_⟩
  · refine ⟨_, exec_expertWrite_open ho be data, ?_⟩
    simp only [State.performed_dp, State.performed_regs, State.performed_sem, State.performed_token, State.performed_expert,
      State.onSh_dp, State.onSh_sh, true_and]
    exact ⟨rfl, rfl, rfl, Shepherd.expertWrite_testBit _ _ _ _ hk⟩
  · refine ⟨_, exec_expertArm_open ho be data, ?_⟩
    obtain ⟨b, hv⟩ := s.performed_view (.port m) (Reg.shpExpertKey.addr 0 0) true 0 m
    simp only [Shepherd.armWrite, State.onSh_dp, State.onSh_sh, State.performed_dp, Shepherd.modView_regs,
      State.performed_regs, Shepherd.modView_expert, State.performed_expert, Shepherd.modView_sem, State.performed_sem,
      Shepherd.view_modView, Shepherd.peer_modView, State.performed_view_peer, hv, and_self]

/-! ### Mailboxes (R108 to R110) -/

theorem exec_mailboxDataWrite_open {s : State} {m : RPort} (ho : s.portOpen m = true) (i : Nat) (be : BitVec 4) (data : Word) :
    exec (.mailboxDataWrite m i be data) s =
      .next ((s.onSh (fun h => h.mboxData m i be data)).performed (.port m) (Reg.shpMbxOutData.addr i 0) true 0) :=
  congrArg Host.Outcome.next (State.viewWrite_open (r := .shpMbxOutData) ho (by decide) _ _ _)

theorem exec_mailboxPost_open {s : State} {m : RPort} (ho : s.portOpen m = true) :
    exec (.mailboxPost m) s =
      .next ((s.onSh (fun h => h.mboxPost m)).performed (.port m) (Reg.shpMbxOutCtl.addr 0 0) true 0) :=
  congrArg Host.Outcome.next (State.viewWrite_open (r := .shpMbxOutCtl) ho (by decide) _ _ _)

/-- A take clears FULL, and COLLISION where it is written 1 (R110). -/
theorem Shepherd.mboxTake_eq (h : Shepherd) (m : RPort) (be : BitVec 4) (data : Word) :
    h.mboxTake m (be ||| 2) (data ||| 0x100) =
      h.modBox m.peer (fun b => { b with full := false, collision := b.collision && !data.getLsbD 9 }) := by
  simp [Shepherd.mboxTake, -BitVec.toNat_or, written_testBit _ _ (show 8 < 32 by decide),
    written_testBit _ _ (show 9 < 32 by decide)]

theorem exec_mailboxTake_open {s : State} {m : RPort} (ho : s.portOpen m = true) (be : BitVec 4) (data : Word) :
    exec (.mailboxTake m be data) s =
      .next ((s.onSh (fun h => h.modBox m.peer (fun b =>
        { b with full := false, collision := b.collision && !data.getLsbD 9 }))).performed (.port m)
        (Reg.shpMbxInCtl.addr 0 0) true 0) := by
  simp only [← Shepherd.mboxTake_eq _ _ be]
  exact congrArg Host.Outcome.next (State.viewWrite_open (r := .shpMbxInCtl) ho (by decide) _ _ _)

/-- Cause bit 0 of source 51 is FULL of the mailbox that a port receives in (R116). -/
theorem Shepherd.causes_mboxFull (h : Shepherd) (m : RPort) : (h.causes m 51).testBit 0 = (h.mboxOut m.peer).full :=
  h.ownCauses_testBit m 0

/-- Settles O12: each of the three writes changes one mailbox; the other direction's, the registers and the datapath are the
frame of that change. -/
theorem mailboxHandshake : Obligations.MailboxHandshake := by
  unfold Obligations.MailboxHandshake
  refine ⟨fun s m i be data hi ho => ?_, fun s m ho => ?_, fun s m be data ho => ?_⟩
  · refine ⟨_, exec_mailboxDataWrite_open ho i be data, ?_⟩
    simp only [Shepherd.mboxData, State.performed_dp, State.performed_regs, State.performed_mboxOut, State.onSh_dp,
      State.onSh_sh, Shepherd.modBox_regs, Shepherd.mboxOut_modBox, Shepherd.peer_modBox, true_and, and_true]
    exact ⟨getD_modAt_same _ _ _ _ hi, fun k hk => getD_modAt_ne _ _ _ hk⟩
  · refine ⟨_, exec_mailboxPost_open ho, ?_⟩
    rw [Shepherd.causes_mboxFull]
    simp [Shepherd.mboxPost]
  · refine ⟨_, exec_mailboxTake_open ho be data, ?_⟩
    simp +contextual [-BitVec.getLsbD_eq_getElem]

/-! ### Doorbells (R112) -/

theorem exec_doorbellRing_open {s : State} {m : RPort} (ho : s.portOpen m = true) (be : BitVec 4) (data : Word) :
    exec (.doorbellRing m be data) s =
      .next ((s.onSh (fun h => h.ring m be data)).performed (.port m) (Reg.shpDbOut.addr 0 0) true 0) :=
  congrArg Host.Outcome.next (State.viewWrite_open (r := .shpDbOut) ho (by decide) _ _ _)

theorem State.coreEffect_dbIn (s : State) (m : RPort) (armed : Bool) (i : Nat) (be : BitVec 4) (data : Word) :
    s.coreEffect m armed .shpDbIn i be data = s.onSh (fun h => h.modView m (fun v =>
      { v with dbIn := v.dbIn &&& (0xFFFFFFFF ^^^ (data.toNat &&& beMask be)) })) := rfl

/-- A ring sets the bits written as 1 in enabled bytes, and clears none. -/
theorem Shepherd.ring_testBit (h : Shepherd) (m : RPort) (be : BitVec 4) (data : Word) {k : Nat} (hk : k < 32) :
    ((h.ring m be data).view m.peer).dbIn.testBit k =
      ((h.view m.peer).dbIn.testBit k || (be.getLsbD (k / 8) && data.getLsbD k)) := by
  rw [Shepherd.ring, Shepherd.view_modView, Nat.testBit_or, written_testBit _ _ hk]

/-- Settles O13: a ring is a bitwise or into the peer's SHP_DB_IN, a clear a bitwise and with the complement. -/
theorem doorbellSetsPeerBits : Obligations.DoorbellSetsPeerBits := by
  unfold Obligations.DoorbellSetsPeerBits
  refine ⟨fun s m be data ho => ?_, fun s m be data k hk => ?_, fun s m be be' data data' k hk hb hd ho => ?_⟩
  · refine ⟨_, exec_doorbellRing_open ho be data, ?_⟩
    simp only [State.performed_dp, State.performed_regs, State.performed_sem, State.performed_view_peer, State.onSh_dp,
      State.onSh_sh, true_and]
    refine ⟨Shepherd.modView_regs _ _ _, Shepherd.modView_sem _ _ _, ?_, fun k hk => Shepherd.ring_testBit _ _ _ _ hk,
      ?_, ?_⟩
    · rw [Shepherd.ring, Shepherd.view_modView]
    · rw [Shepherd.shpWord, State.performed_view_peer, State.onSh_sh]
    · rw [Shepherd.shpWord, State.performed_view_peer, State.onSh_sh]
  · rw [State.coreEffect_dbIn, State.onSh_sh, Shepherd.view_modView, Nat.testBit_and, complement_testBit _ hk,
      written_testBit _ _ hk]
  · rw [State.coreEffect_dbIn]
    refine ⟨_, exec_doorbellRing_open ((s.portOpen_onView _ _ _).trans ho) be data, ?_⟩
    rw [State.performed_view_peer, State.onSh_sh, Shepherd.ring_testBit _ _ _ _ hk, hb, hd]
    simp

end Sys2Proof.Machine

/-! ## The fold loader: fields, commands and the ends of its operations (R135, R137, R144, R145) -/

namespace Sys2Proof.Machine

/-! ### Fields of the loader's registers -/

/-- Whether a write of field f, at index 0, leaves field g at index 0 alone. -/
def RegField.apart (f g : RegField) : Bool :=
  g.reg.addr 0 0 ≠ f.reg.addr 0 0 || (g.reg = f.reg && g.hi < 32 && (g.hi < f.lo || f.hi < g.lo))

theorem Shepherd.rd_wr_of_apart {f g : RegField} (hfg : f.apart g = true) (h : Shepherd) (v : Nat) :
    (h.wr f v).rd g = h.rd g := by
  simp only [RegField.apart, Bool.or_eq_true, Bool.and_eq_true, decide_eq_true_eq] at hfg
  rcases hfg with hne | ⟨⟨hr, hlt⟩, hlo⟩
  · exact Shepherd.rd_wr_ne _ _ _ _ _ _ hne
  · exact Shepherd.rd_wr_apart _ _ _ _ _ hr hlt hlo

@[simp] theorem State.performed_rd (s : State) (src : Src) (a : Nat) (w : Bool) (x : Word) (f : RegField) (i : Nat) :
    (s.performed src a w x).sh.rd f i = s.sh.rd f i := by rw [Shepherd.rd, State.performed_regs, Shepherd.rd]

/-- The completion of an access leaves what waits for the link. -/
@[simp] theorem State.performed_fifo (s : State) (src : Src) (a : Nat) (w : Bool) (x : Word) :
    (s.performed src a w x).sh.link.fifo = s.sh.link.fifo := by
  rcases s.performed_cases src a w x with h | ⟨m, _, h⟩ | ⟨m, _, h⟩ | ⟨m, sl, _, h⟩ <;> rw [h] <;> simp

/-! ### FLD_DIGEST (R139) -/

/-- A digest goes to the register file alone. -/
@[simp] theorem Shepherd.setDigest_fld (h : Shepherd) (ws : List Nat) : (h.setDigest ws).fld = h.fld :=
  loop_keeps (fun k => k.fld = h.fld) (fun i h => h.wr F.fldDigest_H (ws.getD i 0) i) (fun _ _ hk => hk) 8 h rfl

@[simp] theorem Shepherd.setDigest_seq (h : Shepherd) (ws : List Nat) : (h.setDigest ws).seq = h.seq :=
  loop_keeps (fun k => k.seq = h.seq) (fun i h => h.wr F.fldDigest_H (ws.getD i 0) i) (fun _ _ hk => hk) 8 h rfl

theorem Shepherd.rd_setDigest_ne {g : RegField} {j : Nat} (hg : ∀ k, k < 8 → g.reg.addr j 0 ≠ Reg.fldDigest.addr k 0)
    (h : Shepherd) (ws : List Nat) : (h.setDigest ws).rd g j = h.rd g j := by
  have key : ∀ n, n ≤ 8 → (loop n (fun i h => h.wr F.fldDigest_H (ws.getD i 0) i) h).rd g j = h.rd g j := by
    intro n
    induction n with
    | zero => intro _; rfl
    | succ n ih =>
      intro hn
      rw [loop, List.range_succ, List.foldl_append]
      exact (Shepherd.rd_wr_ne _ F.fldDigest_H g n j _ (hg n (by omega))).trans (ih (by omega))
  exact key 8 (Nat.le_refl _)

theorem Shepherd.rd_setDigest_word (h : Shepherd) (ws : List Nat) {i : Nat} (hi : i < 8) :
    (h.setDigest ws).rd F.fldDigest_H i = ws.getD i 0 % 2 ^ 32 := by
  have key : ∀ n, i < n → (loop n (fun i h => h.wr F.fldDigest_H (ws.getD i 0) i) h).rd F.fldDigest_H i =
      ws.getD i 0 % 2 ^ 32 := by
    intro n
    induction n with
    | zero => intro hn; omega
    | succ n ih =>
      intro hn
      rw [loop, List.range_succ, List.foldl_append]
      by_cases he : i = n
      · subst he
        exact Shepherd.rd_wr_same _ F.fldDigest_H i _ (by decide)
      · refine (Shepherd.rd_wr_ne _ F.fldDigest_H F.fldDigest_H n i _ ?_).trans (ih (by omega))
        simp only [F.fldDigest_H, Reg.addr, Reg.geom]
        omega
  exact key 8 hi

/-! ### Failures (R144, R145, R625) -/

theorem Shepherd.rd_fldErr_code (h : Shepherd) (e : FldErr) : (h.fldErr e).rd F.fldStat_ERR = e.code % 2 ^ 8 := by
  rw [Shepherd.fldErr, Shepherd.rd_wr_of_apart (by decide), Shepherd.rd_wr_of_apart (by decide)]
  exact Shepherd.rd_wr_same _ _ _ _ (by decide)

theorem Shepherd.rd_fldErr_section (h : Shepherd) (e : FldErr) : (h.fldErr e).rd F.fldErrInfo_SECTION = e.sect % 2 ^ 10 := by
  rw [Shepherd.fldErr, Shepherd.rd_wr_of_apart (by decide)]
  exact Shepherd.rd_wr_same _ _ _ _ (by decide)

theorem Shepherd.rd_fldErr_offset (h : Shepherd) (e : FldErr) : (h.fldErr e).rd F.fldErrInfo_OFFSET = e.ofs % 2 ^ 20 :=
  Shepherd.rd_wr_same _ _ _ _ (by decide)

/-- A failure leaves the loader idle, whatever ran. -/
@[simp] theorem Shepherd.fldFail_state (h : Shepherd) (e : FldErr) : (h.fldFail e).fld.state = .idle := rfl

@[simp] theorem Shepherd.fldFail_store (h : Shepherd) (e : FldErr) : (h.fldFail e).fld.store = h.fld.store := by
  unfold Shepherd.fldFail
  dsimp only [Shepherd.fldIdle, Shepherd.onFld]
  split <;> split <;> rfl

/-- The registers after a failure that is not a wake restore's. -/
theorem Shepherd.fldFail_rd {h : Shepherd} (hs : h.fld.state ≠ .restore) (e : FldErr) (f : RegField) (i : Nat) :
    (h.fldFail e).rd f i = ((h.fldErr e).wr F.fldEvt_ERROR 1).rd f i := by
  simp [Shepherd.fldFail, hs, Shepherd.fldIdle, Shepherd.onFld, Shepherd.rd]

/-- A failed wake restore sets RESTORE_ERR (R148). -/
theorem Shepherd.rd_fldFail_restore {h : Shepherd} (hs : h.fld.state = .restore) (e : FldErr) :
    (h.fldFail e).rd F.fldEvt_RESTORE_ERR = 1 := by
  have hr : (h.fldFail e).rd F.fldEvt_RESTORE_ERR =
      (((h.fldErr e).wr F.fldEvt_RESTORE_ERR 1).wr F.fldStat_IN_FORCE 0).rd F.fldEvt_RESTORE_ERR := by
    simp [Shepherd.fldFail, hs, Shepherd.fldIdle, Shepherd.onFld, Shepherd.rd]
  rw [hr, Shepherd.rd_wr_of_apart (by decide)]
  exact Shepherd.rd_wr_same _ _ _ _ (by decide)

/-- What a failure reports, outside a wake restore: its code, section and offset, and the ERROR event. -/
theorem Shepherd.fldFail_reports {h : Shepherd} (hs : h.fld.state ≠ .restore) (e : FldErr) :
    (h.fldFail e).rd F.fldStat_ERR = e.code % 2 ^ 8 ∧ (h.fldFail e).rd F.fldErrInfo_SECTION = e.sect % 2 ^ 10 ∧
      (h.fldFail e).rd F.fldErrInfo_OFFSET = e.ofs % 2 ^ 20 ∧ (h.fldFail e).rd F.fldEvt_ERROR = 1 := by
  simp only [Shepherd.fldFail_rd hs]
  refine ⟨?_, ?_, ?_, Shepherd.rd_wr_same _ _ _ _ (by decide)⟩
  · rw [Shepherd.rd_wr_of_apart (by decide), Shepherd.rd_fldErr_code]
  · rw [Shepherd.rd_wr_of_apart (by decide), Shepherd.rd_fldErr_section]
  · rw [Shepherd.rd_wr_of_apart (by decide), Shepherd.rd_fldErr_offset]

@[simp] theorem State.fldFail_sh (s : State) (e : FldErr) : (s.fldFail e).sh = s.sh.fldFail e := rfl
@[simp] theorem State.fldFail_pending (s : State) (e : FldErr) : (s.fldFail e).pending = s.pending := rfl
@[simp] theorem State.fldFail_stage (s : State) (e : FldErr) : (s.fldFail e).dp.stage = s.dp.stage := rfl
@[simp] theorem State.fldFail_linkHeld (s : State) (e : FldErr) : (s.fldFail e).dp.linkHeld = [] := rfl
@[simp] theorem State.fldFail_refold (s : State) (e : FldErr) : (s.fldFail e).dp.cel.refold = [] := rfl

/-! ### Operations that end without error (R137, R145) -/

@[simp] theorem Shepherd.fldDone_state (h : Shepherd) : h.fldDone.fld.state = .idle := rfl
@[simp] theorem Shepherd.fldDone_store (h : Shepherd) : h.fldDone.fld.store = h.fld.store := rfl
@[simp] theorem Shepherd.fldDone_seq (h : Shepherd) : h.fldDone.seq = h.seq := rfl
@[simp] theorem Shepherd.fldDone_cseed (h : Shepherd) : h.fldDone.cseed = h.cseed := rfl

theorem Shepherd.fldDone_rd (h : Shepherd) (f : RegField) (i : Nat) : h.fldDone.rd f i =
    ((h.wr F.fldStat_ERR (if h.fld.busyRefused then FE.busy else 0)).wr
      (if h.fld.state = .restore then F.fldEvt_RESTORED else F.fldEvt_DONE) 1).rd f i := rfl

/-- A field that the end of an operation does not write. -/
theorem Shepherd.rd_fldDone_of_apart {g : RegField} (h1 : F.fldStat_ERR.apart g = true) (h2 : F.fldEvt_DONE.apart g = true)
    (h3 : F.fldEvt_RESTORED.apart g = true) (h : Shepherd) : h.fldDone.rd g = h.rd g := by
  rw [Shepherd.fldDone_rd, Shepherd.rd_wr_of_apart (by split <;> assumption), Shepherd.rd_wr_of_apart h1]

theorem Shepherd.rd_fldDone_err {h : Shepherd} (hb : h.fld.busyRefused = false) : h.fldDone.rd F.fldStat_ERR = 0 := by
  rw [Shepherd.fldDone_rd, Shepherd.rd_wr_of_apart (by split <;> decide), hb]
  exact Shepherd.rd_wr_same _ _ _ _ (by decide)

theorem Shepherd.rd_fldDone_done {h : Shepherd} (hs : h.fld.state ≠ .restore) : h.fldDone.rd F.fldEvt_DONE = 1 := by
  rw [Shepherd.fldDone_rd, if_neg hs]
  exact Shepherd.rd_wr_same _ _ _ _ (by decide)

theorem Shepherd.rd_fldDone_restored {h : Shepherd} (hs : h.fld.state = .restore) : h.fldDone.rd F.fldEvt_RESTORED = 1 := by
  rw [Shepherd.fldDone_rd, if_pos hs]
  exact Shepherd.rd_wr_same _ _ _ _ (by decide)

/-! ### Operations that start (R140 to R142) -/

@[simp] theorem Shepherd.fldBegin_fld (h : Shepherd) (m : RPort) (st : FldState) (ofs len pen : Nat) :
    (h.fldBegin m st ofs len pen).fld =
      { h.fld with state := st, port := m, ofs := ofs, len := len, pen := pen, pos := 0, busyRefused := false } := rfl
@[simp] theorem Shepherd.fldBegin_regs (h : Shepherd) (m : RPort) (st : FldState) (ofs len pen : Nat) :
    (h.fldBegin m st ofs len pen).regs = h.regs := rfl
@[simp] theorem Shepherd.fldBegin_fifo (h : Shepherd) (m : RPort) (st : FldState) (ofs len pen : Nat) :
    (h.fldBegin m st ofs len pen).link.fifo = h.link.fifo := Link.setSlot_fifo _ _ _

/-- A request of the loader joins those that wait for the link, and changes nothing else. -/
theorem Shepherd.fldSend_eq (h : Shepherd) :
    h.fldSend = { h with link := { h.link with fifo := h.link.fifo ++ h.fld.request.toList } } := by
  unfold Shepherd.fldSend
  split
  · next r hr => rw [hr]; rfl
  · next hr => rw [hr, Option.toList_none, List.append_nil]

@[simp] theorem Shepherd.fldSend_fld (h : Shepherd) : h.fldSend.fld = h.fld := by rw [Shepherd.fldSend_eq]
@[simp] theorem Shepherd.fldSend_fifo (h : Shepherd) : h.fldSend.link.fifo = h.link.fifo ++ h.fld.request.toList := by
  rw [Shepherd.fldSend_eq]

@[simp] theorem Shepherd.onFld_fld (h : Shepherd) (f : Loader → Loader) : (h.onFld f).fld = f h.fld := rfl
@[simp] theorem Shepherd.onFld_regs (h : Shepherd) (f : Loader → Loader) : (h.onFld f).regs = h.regs := rfl
@[simp] theorem Shepherd.onFld_seq (h : Shepherd) (f : Loader → Loader) : (h.onFld f).seq = h.seq := rfl

/-! ### FLD_CMD (R135) -/

/-- The operation and the pen that a command writes. -/
theorem fldCmd_word {op : Nat} (hop : op < 16) (pen : Nat) :
    F.fldCmd_OP.wo 0xF (BitVec.ofNat 32 (pen % 64 * 2 ^ 16 + op)) = op ∧
      F.fldCmd_PEN.wo 0xF (BitVec.ofNat 32 (pen % 64 * 2 ^ 16 + op)) = pen % 64 := by
  have hp : pen % 64 < 64 := Nat.mod_lt _ (by decide)
  generalize pen % 64 = p at hp
  have hm : (BitVec.ofNat 32 (p * 2 ^ 16 + op)).toNat &&& beMask 0xF = p * 2 ^ 16 + op := by
    rw [BitVec.toNat_ofNat, Nat.mod_eq_of_lt (by omega), show beMask 0xF = 2 ^ 32 - 1 by decide,
      Nat.and_two_pow_sub_one_eq_mod, Nat.mod_eq_of_lt (by omega)]
  simp only [RegField.wo, hm]
  simp only [bitsOf, BitVec.toNat_ofNat, F.fldCmd_OP, F.fldCmd_PEN, Nat.shiftRight_eq_div_pow]
  omega

/-- A command that reaches FLD_CMD is taken, and the access completes. -/
theorem State.fldCommand_reaches {s : State} {m : RPort} (hr : s.reaches (.port m) (Reg.fldCmd.addr 0 0) true = true)
    (op pen : Nat) : s.fldCommand m op pen =
      (s.fldCmd m 0xF (BitVec.ofNat 32 (pen % 64 * 2 ^ 16 + op))).performed (.port m) (Reg.fldCmd.addr 0 0) true 0 :=
  State.regWrite_reaches _ _ _ _ hr

/-- While an operation runs, a command but ABORT is refused, and that is noted (R145). -/
theorem State.fldCommand_busy {s : State} {m : RPort} (hr : s.reaches (.port m) (Reg.fldCmd.addr 0 0) true = true)
    (hi : s.sh.fld.state ≠ .idle) {op : Nat} (hop : op < 15) (pen : Nat) : s.fldCommand m op pen =
      (s.onSh (fun h => h.onFld (fun l => { l with busyRefused := true }))).performed (.port m) (Reg.fldCmd.addr 0 0)
        true 0 := by
  obtain ⟨hw, -⟩ := fldCmd_word (show op < 16 by omega) pen
  rw [State.fldCommand_reaches hr, State.fldCmd, if_neg (by decide)]
  dsimp only
  rw [hw, if_neg (by omega), if_pos hi]

/-- What a command starts while the loader is idle, by its OP and PEN. -/
def State.fldStart (s : State) (m : RPort) (op pen : Nat) : State :=
  match op with
  | 1 => s.fldPull m
  | 2 => s.onSh (fun h => h.fldBegin m .check 0 0 0)
  | 3 => s.fldApply m
  | 4 => s.fldRefold m pen
  | 5 => s.fldPeek m
  | _ => s.fldFail { code := FE.badCmd }

section idle
variable {s : State} {m : RPort} (hr : s.reaches (.port m) (Reg.fldCmd.addr 0 0) true = true)
  (hi : s.sh.fld.state = .idle)
include hr hi

theorem State.fldCommand_idle {op : Nat} (hop : op < 15) (pen : Nat) : s.fldCommand m op pen =
    (s.fldStart m op (pen % 64)).performed (.port m) (Reg.fldCmd.addr 0 0) true 0 := by
  obtain ⟨hw, hpen⟩ := fldCmd_word (show op < 16 by omega) pen
  rw [State.fldCommand_reaches hr, State.fldCmd, if_neg (by decide)]
  dsimp only
  rw [hw, hpen, if_neg (by omega), if_neg (by simp [hi])]
  rfl

theorem exec_pull_idle : exec (.pull m) s =
    .next ((s.fldPull m).performed (.port m) (Reg.fldCmd.addr 0 0) true 0) :=
  congrArg Host.Outcome.next (State.fldCommand_idle hr hi (op := 1) (by decide) 0)

theorem exec_check_idle : exec (.check m) s =
    .next ((s.onSh (fun h => h.fldBegin m .check 0 0 0)).performed (.port m) (Reg.fldCmd.addr 0 0) true 0) :=
  congrArg Host.Outcome.next (State.fldCommand_idle hr hi (op := 2) (by decide) 0)

theorem exec_apply_idle : exec (.apply m) s =
    .next ((s.fldApply m).performed (.port m) (Reg.fldCmd.addr 0 0) true 0) :=
  congrArg Host.Outcome.next (State.fldCommand_idle hr hi (op := 3) (by decide) 0)

theorem exec_refold_idle {pen : Nat} (hp : pen < 64) : exec (.refold m pen) s =
    .next ((s.fldRefold m pen).performed (.port m) (Reg.fldCmd.addr 0 0) true 0) := by
  have h := State.fldCommand_idle hr hi (op := 4) (by decide) pen
  rw [Nat.mod_eq_of_lt hp] at h
  exact congrArg Host.Outcome.next h

theorem exec_peek_idle : exec (.peek m) s =
    .next ((s.fldPeek m).performed (.port m) (Reg.fldCmd.addr 0 0) true 0) :=
  congrArg Host.Outcome.next (State.fldCommand_idle hr hi (op := 5) (by decide) 0)

end idle

/-- ABORT is taken whatever the loader does (R145). -/
theorem exec_abort_reaches {s : State} {m : RPort} (hr : s.reaches (.port m) (Reg.fldCmd.addr 0 0) true = true) :
    exec (.abort m) s = .next (s.fldAbort.performed (.port m) (Reg.fldCmd.addr 0 0) true 0) := by
  obtain ⟨hw, -⟩ := fldCmd_word (show 0xF < 16 by decide) 0
  refine congrArg Host.Outcome.next ((State.fldCommand_reaches hr 0xF 0).trans ?_)
  rw [State.fldCmd, if_neg (by decide)]
  dsimp only
  rw [hw, if_pos rfl]

/-! ### PULL and PEEK (R140, R141) -/

theorem State.fldPull_range {s : State} (hr : s.sh.stageRangeOk = false) (m : RPort) :
    s.fldPull m = s.fldFail { code := FE.stageRange } := by simp [State.fldPull, hr]

theorem State.fldPeek_range {s : State} (hr : s.sh.stageRangeOk = false) (m : RPort) :
    s.fldPeek m = s.fldFail { code := FE.stageRange } := by simp [State.fldPeek, hr]

theorem State.fldPull_region {s : State} (hr : s.sh.stageRangeOk = true) (hf : s.sh.flag F.fldStat_IN_FORCE = true)
    (hl : s.sh.fldByte < s.sh.rd F.fldForceLen_LEN) (m : RPort) :
    s.fldPull m = s.fldFail { code := FE.forceRegion } := by simp [State.fldPull, hr, hf, hl]

theorem State.fldPull_starts {s : State} (hr : s.sh.stageRangeOk = true)
    (hf : s.sh.flag F.fldStat_IN_FORCE = true → s.sh.rd F.fldForceLen_LEN ≤ s.sh.fldByte) (m : RPort) :
    s.fldPull m = s.onSh (fun h => (h.fldBegin m .pull h.fldByte (h.rd F.fldLen_LEN / 4) 0).fldSend) := by
  have hg : (s.sh.flag F.fldStat_IN_FORCE && decide (s.sh.fldByte < s.sh.rd F.fldForceLen_LEN)) = false := by
    simpa using hf
  simp only [State.fldPull, hr, hg]
  rfl

theorem State.fldPeek_starts {s : State} (hr : s.sh.stageRangeOk = true) (m : RPort) :
    s.fldPeek m = s.onSh (fun h => (h.fldBegin m .peek h.fldByte (h.rd F.fldLen_LEN / 4) 0).fldSend) := by
  simp [State.fldPeek, hr]

/-- The first word of an operation goes out as it begins. -/
theorem Shepherd.fifo_fldBegin_fldSend {h : Shepherd} {m : RPort} {st : FldState} {ofs len pen : Nat} {r : LinkReq}
    (hr : (h.fldBegin m st ofs len pen).fld.request = some r) :
    (h.fldBegin m st ofs len pen).fldSend.link.fifo = h.link.fifo ++ [r] := by
  rw [Shepherd.fldSend_fifo, hr, Shepherd.fldBegin_fifo, Option.toList_some]

/-- A range in order holds a word. -/
theorem Shepherd.words_of_stageRangeOk {h : Shepherd} (hr : h.stageRangeOk = true) : 0 < h.rd F.fldLen_LEN / 4 := by
  simp only [Shepherd.stageRangeOk, Bool.and_eq_true, decide_eq_true_eq] at hr
  omega

/-- A request of a PULL reads a word of FLD_STAGE. -/
theorem Loader.request_pull {l : Loader} (hs : l.state = .pull) (hl : l.pos < l.len) :
    l.request = some ⟨l.port, true, false, Reg.fldStage.addr l.pos 0, 0xF, 0⟩ := by
  simp [Loader.request, hs, Nat.not_le.2 hl]

/-- A request of a PEEK writes a word of the store to FLD_STAGE. -/
theorem Loader.request_peek {l : Loader} (hs : l.state = .peek) (hl : l.pos < l.len) :
    l.request = some ⟨l.port, true, true, Reg.fldStage.addr l.pos 0, 0xF,
      BitVec.ofNat 32 (leNat (l.store.reads (l.ofs + 4 * l.pos) 4))⟩ := by
  simp [Loader.request, hs, Nat.not_le.2 hl]

/-- A command that fails as it starts: the loader stays idle and keeps the store, and the error is reported. -/
theorem State.fldFail_idle {s : State} (hi : s.sh.fld.state = .idle) (e : FldErr) :
    (s.fldFail e).sh.fld.state = .idle ∧ (s.fldFail e).sh.fld.store = s.sh.fld.store ∧
      (s.fldFail e).sh.rd F.fldStat_ERR = e.code % 2 ^ 8 ∧ (s.fldFail e).sh.rd F.fldEvt_ERROR = 1 := by
  obtain ⟨herr, -, -, hevt⟩ := Shepherd.fldFail_reports (h := s.sh) (by simp [hi]) e
  exact ⟨rfl, Shepherd.fldFail_store _ _, herr, hevt⟩

/-! ### The last word of a PULL and of a PEEK -/

/-- Of the loader a word that is pulled changes the store and the progress (R140). -/
theorem Shepherd.pullWord_fld (h : Shepherd) (w : Word) : (h.pullWord w).fld =
    { h.fld with store := h.fld.store.writes (h.fld.ofs + 4 * h.fld.pos) (leBytes 4 w.toNat), pos := h.fld.pos + 1 } := by
  unfold Shepherd.pullWord
  dsimp only
  split <;> rfl

theorem State.fldRest_pull {s : State} (hs : s.sh.fld.state = .pull) (hl : s.sh.fld.len = s.sh.fld.pos + 1) :
    s.fldRest = s.onSh (fun h =>
      h.pullWord (BitVec.ofNat 32 (leNat (s.dp.stage.reads (4 * h.fld.pos) 4)))) := by
  simp only [State.fldRest, hs, hl, Nat.add_sub_cancel_left]
  rfl

theorem State.fldRest_peek {s : State} (hs : s.sh.fld.state = .peek) (hl : s.sh.fld.len = s.sh.fld.pos + 1) :
    s.fldRest = s.peekWord := by
  simp only [State.fldRest, hs, hl, Nat.add_sub_cancel_left]
  rfl

theorem exec_pullEnd_pull {s : State} (hs : s.sh.fld.state = .pull) :
    exec .pullEnd s = .next (s.fldRest.onSh Shepherd.fldDone) := congrArg Host.Outcome.next (if_pos hs)

theorem exec_peekEnd_peek {s : State} (hs : s.sh.fld.state = .peek) :
    exec .peekEnd s = .next (s.fldRest.onSh Shepherd.fldDone) := congrArg Host.Outcome.next (if_pos hs)

/-- A command that comes while an operation runs. -/
theorem exec_fldCommand_busy {s : State} {m : RPort} {pen : Nat} {c : Instr}
    (hc : c ∈ [Instr.pull m, .peek m, .check m, .apply m, .refold m pen])
    (hr : s.reaches (.port m) (Reg.fldCmd.addr 0 0) true = true) (hi : s.sh.fld.state ≠ .idle) :
    exec c s = .next ((s.onSh (fun h => h.onFld (fun l => { l with busyRefused := true }))).performed (.port m)
      (Reg.fldCmd.addr 0 0) true 0) := by
  simp only [List.mem_cons, List.not_mem_nil, or_false] at hc
  rcases hc with rfl | rfl | rfl | rfl | rfl
  · exact congrArg Host.Outcome.next (State.fldCommand_busy hr hi (op := 1) (by decide) 0)
  · exact congrArg Host.Outcome.next (State.fldCommand_busy hr hi (op := 5) (by decide) 0)
  · exact congrArg Host.Outcome.next (State.fldCommand_busy hr hi (op := 2) (by decide) 0)
  · exact congrArg Host.Outcome.next (State.fldCommand_busy hr hi (op := 3) (by decide) 0)
  · exact congrArg Host.Outcome.next (State.fldCommand_busy hr hi (op := 4) (by decide) pen)

/-- Settles O26: each command is taken by its own branch of FLD_CMD, and the one word that is left takes effect before the
operation ends. -/
theorem stagingCommands : Obligations.StagingCommands := by
  unfold Obligations.StagingCommands
  refine ⟨fun s m hr hi hok hforce => ?_, fun s m hr hi hok => ?_, fun s m c hc hr hi hok => ?_,
    fun s m hr hi hok hf hl => ?_, fun s m pen c hc hr hi => ?_, fun s hs hl => ?_, fun s hs hl => ?_⟩
  · refine ⟨_, exec_pull_idle hr hi, ?_⟩
    rw [State.fldPull_starts hok hforce]
    exact ⟨by simp, by simp, by simp [Shepherd.fldSend_regs], by simp,
      (State.performed_fifo _ _ _ _ _).trans
        (Shepherd.fifo_fldBegin_fldSend (Loader.request_pull rfl (Shepherd.words_of_stageRangeOk hok)))⟩
  · refine ⟨_, exec_peek_idle hr hi, ?_⟩
    rw [State.fldPeek_starts hok]
    exact ⟨by simp, by simp, by simp [Shepherd.fldSend_regs], by simp,
      (State.performed_fifo _ _ _ _ _).trans
        (Shepherd.fifo_fldBegin_fldSend (Loader.request_peek rfl (Shepherd.words_of_stageRangeOk hok)))⟩
  · obtain ⟨hst, hstore, herr, hevt⟩ := State.fldFail_idle hi { code := FE.stageRange }
    have hx : exec c s = .next ((s.fldFail { code := FE.stageRange }).performed (.port m) (Reg.fldCmd.addr 0 0) true 0) := by
      rcases hc with rfl | rfl
      · rw [exec_pull_idle hr hi, State.fldPull_range hok]
      · rw [exec_peek_idle hr hi, State.fldPeek_range hok]
    refine ⟨_, hx, ?_⟩
    simp only [State.performed_fld, State.performed_rd, State.performed_dp]
    exact ⟨hst, hstore, herr, hevt, State.fldFail_stage _ _⟩
  · obtain ⟨hst, hstore, herr, hevt⟩ := State.fldFail_idle hi { code := FE.forceRegion }
    refine ⟨_, exec_pull_idle hr hi, ?_⟩
    rw [State.fldPull_region hok hf hl]
    simp only [State.performed_fld, State.performed_rd]
    exact ⟨hst, hstore, herr, hevt⟩
  · exact ⟨_, exec_fldCommand_busy hc hr hi, by simp, by simp, by simp⟩
  · refine ⟨_, exec_pullEnd_pull hs, ?_⟩
    rw [State.fldRest_pull hs hl, State.onSh_sh, State.onSh_sh]
    refine ⟨rfl, rfl, rfl, ?_, fun hb => ?_, ?_⟩
    · rw [Shepherd.fldDone_store, Shepherd.pullWord_fld]
      simp only [BitVec.toNat_ofNat]
    · exact Shepherd.rd_fldDone_err (by rw [Shepherd.pullWord_fld]; exact hb)
    · exact Shepherd.rd_fldDone_done (by rw [Shepherd.pullWord_fld, hs]; decide)
  · refine ⟨_, exec_peekEnd_peek hs, ?_⟩
    rw [State.fldRest_peek hs hl, State.onSh_sh]
    exact ⟨rfl, rfl, rfl, rfl, fun hb => Shepherd.rd_fldDone_err hb,
      Shepherd.rd_fldDone_done (by rw [State.peekWord, Shepherd.onFld_fld, hs]; decide)⟩

end Sys2Proof.Machine

/-! ## CHECK, APPLY and their ends (R143, R146) -/

namespace Sys2Proof.Machine

/-! ### CHECK_END -/

theorem exec_checkEnd_none {s : State} (hs : s.sh.fld.state = .check) (hc : s.sh.fld.check 0 none = none) :
    exec .checkEnd s = .next (s.onSh (fun h =>
      ((h.wr F.fldStat_STORED_OK 1).setDigest (sha256 (h.fld.image 0))).fldDone)) := by
  refine congrArg Host.Outcome.next ?_
  rw [if_neg (by simp [hs]), hc]

theorem exec_checkEnd_some {s : State} {e : FldErr} (hs : s.sh.fld.state = .check) (hc : s.sh.fld.check 0 none = some e) :
    exec .checkEnd s = .next ((s.onSh (fun h => h.wr F.fldStat_STORED_OK 0)).fldFail e) := by
  refine congrArg Host.Outcome.next ?_
  rw [if_neg (by simp [hs]), hc]

/-- A failure leaves STORED_OK alone. -/
theorem Shepherd.rd_fldFail_stored {h : Shepherd} (hs : h.fld.state ≠ .restore) (e : FldErr) :
    (h.fldFail e).rd F.fldStat_STORED_OK = h.rd F.fldStat_STORED_OK := by
  rw [Shepherd.fldFail_rd hs, Shepherd.rd_wr_of_apart (by decide), Shepherd.fldErr, Shepherd.rd_wr_of_apart (by decide),
    Shepherd.rd_wr_of_apart (by decide), Shepherd.rd_wr_of_apart (by decide)]

/-- The end of an operation leaves the digest alone. -/
theorem Shepherd.rd_fldDone_digest (h : Shepherd) {i : Nat} (hi : i < 8) :
    h.fldDone.rd F.fldDigest_H i = h.rd F.fldDigest_H i := by
  have hstat : ∀ k, k < 8 → Reg.fldDigest.addr k 0 ≠ Reg.fldStat.addr 0 0 := by decide
  have hevt : ∀ k, k < 8 → Reg.fldDigest.addr k 0 ≠ Reg.fldEvt.addr 0 0 := by decide
  rw [Shepherd.fldDone_rd]
  refine (Shepherd.rd_wr_ne _ _ F.fldDigest_H 0 i 1 ?_).trans (Shepherd.rd_wr_ne _ F.fldStat_ERR F.fldDigest_H 0 i _ (hstat i hi))
  split <;> exact hevt i hi

/-! ### APPLY -/

@[simp] theorem Shepherd.loadPowerPlan_fld (h : Shepherd) (r : List Byte) : (h.loadPowerPlan r).fld = h.fld := by
  unfold Shepherd.loadPowerPlan
  exact loop_keeps (fun k : Shepherd => k.fld = h.fld)
    (fun n (h : Shepherd) => h.wr F.pwrVolt_MV (le r (0x0C + 2 * n) 2) n) (fun _ _ hk => hk) 20 _ (by simp only [Shepherd.wr_fld])

theorem State.fldApply_notChecked {s : State} (h1 : s.sh.flag F.fldStat_STORED_OK = false) (m : RPort) :
    s.fldApply m = s.fldFail { code := FE.notChecked } := by simp [State.fldApply, h1]

theorem State.fldApply_inForce {s : State} (h1 : s.sh.flag F.fldStat_STORED_OK = true)
    (h2 : s.sh.flag F.fldStat_IN_FORCE = true) (m : RPort) :
    s.fldApply m = s.fldFail { code := FE.inForce } := by simp [State.fldApply, h1, h2]

theorem State.fldApply_digest {s : State} (h1 : s.sh.flag F.fldStat_STORED_OK = true)
    (h2 : s.sh.flag F.fldStat_IN_FORCE = false) (h3 : s.sh.flag F.fldCtl_DIGEST_LOCK = true) (h4 : s.sh.digestOk = false)
    (m : RPort) : s.fldApply m = s.fldFail { code := FE.digestMismatch } := by simp [State.fldApply, h1, h2, h3, h4]

/-- An APPLY of an image without POWER_PLAN that is accepted. -/
theorem State.fldApply_streams {s : State} (h1 : s.sh.flag F.fldStat_STORED_OK = true)
    (h2 : s.sh.flag F.fldStat_IN_FORCE = false) (h3 : s.sh.flag F.fldCtl_DIGEST_LOCK = true → s.sh.digestOk = true)
    (h4 : powerPlanOf (s.sh.fld.sects 0) = none) (m : RPort) : s.fldApply m = s.onSh (fun h =>
      ((h.fldBegin m .apply 0 0 0).onFld (fun l => { l with len := streamWords l.stream })).fldSend) := by
  have hg : (s.sh.flag F.fldCtl_DIGEST_LOCK && !s.sh.digestOk) = false := by simpa using h3
  simp only [State.fldApply, h1, h2, hg, h4]
  rfl

/-- Whatever becomes of an APPLY, the store and the queue stay. -/
theorem State.fldApply_keeps (s : State) (m : RPort) :
    (s.fldApply m).sh.fld.store = s.sh.fld.store ∧ (s.fldApply m).pending = s.pending := by
  unfold State.fldApply
  dsimp only
  split
  · exact ⟨Shepherd.fldFail_store _ _, rfl⟩
  · split
    · exact ⟨Shepherd.fldFail_store _ _, rfl⟩
    · split
      · exact ⟨Shepherd.fldFail_store _ _, rfl⟩
      · refine ⟨?_, rfl⟩
        rw [Shepherd.fldSend_fld, Shepherd.onFld_fld, Shepherd.fldBegin_fld]
        dsimp only
        split
        · rw [Shepherd.loadPowerPlan_fld]
        · rfl

/-! ### Streams that have ended -/

/-- A stream that stands at a word has taken every effect up to it. -/
theorem State.streamTo_pos (s : State) : s.streamTo s.sh.fld.pos = s := by
  have hnil : (sectEnds s.sh.fld.stream).filter (fun e => s.sh.fld.pos < e.1 && e.1 ≤ s.sh.fld.pos) = [] := by
    rw [List.filter_eq_nil_iff]
    intro e _
    simp
  unfold State.streamTo
  dsimp only
  rw [hnil]
  rfl

/-- No word of a stream is left. -/
theorem State.fldRest_streamed {s : State} (hs : s.sh.fld.state = .apply ∨ s.sh.fld.state = .refold)
    (hp : s.sh.fld.pos = s.sh.fld.len) : s.fldRest = s := by
  have h := s.streamTo_pos
  rw [hp] at h
  rcases hs with hs | hs <;> simp only [State.fldRest, hs, h]

/-! ### The cruise point after a change of CRUISE_OK (R613) -/

/-- clk_req_shf follows R86: no other part of the shepherd changes. -/
theorem Shepherd.shfFollow_frame (h : Shepherd) : { h.shfFollow with clks := h.clks } = h := by
  unfold Shepherd.shfFollow Shepherd.raiseClk Shepherd.lowerClk
  split <;> split
  · rfl
  · split <;> rfl
  · split <;> rfl
  · rfl

/-- The part of a state that the sequencer at rest leaves alone: all but its own record and the clock requests. -/
def State.restFrame (s : State) : State := s.onSh (fun h => { h with clks := [], seq := {} })

theorem State.restFrame_onSeq (s : State) (f : Seq → Seq) : (s.onSh (fun h => h.onSeq f)).restFrame = s.restFrame := rfl

theorem State.restFrame_quiesceBegin (s : State) (f : Seq → Seq) :
    (s.onSh (fun h => (h.onSeq f).quiesceBegin)).restFrame = s.restFrame := rfl

theorem State.seqRest_restFrame (s : State) : s.seqRest.restFrame = s.restFrame := by
  have hf : (s.onSh Shepherd.shfFollow).restFrame = s.restFrame :=
    congrArg (fun h : Shepherd => { s with sh := { h with clks := [], seq := {} } }) s.sh.shfFollow_frame
  unfold State.seqRest
  dsimp only
  split
  · exact hf
  · split
    · rw [State.restFrame_quiesceBegin, hf]
    · rw [State.restFrame_onSeq, hf]

/-- A fall of CRUISE_OK acts on the sequencer and the clock requests alone. -/
theorem State.cruiseFell_restFrame (s : State) (b : Bool) : (s.cruiseFell b).restFrame = s.restFrame := by
  unfold State.cruiseFell
  split
  · rw [State.seqRest_restFrame, State.restFrame_onSeq]
  · rfl

@[simp] theorem State.cruiseFell_dp (s : State) (b : Bool) : (s.cruiseFell b).dp = s.dp :=
  show (s.cruiseFell b).restFrame.dp = s.restFrame.dp by rw [State.cruiseFell_restFrame]
@[simp] theorem State.cruiseFell_pending (s : State) (b : Bool) : (s.cruiseFell b).pending = s.pending :=
  show (s.cruiseFell b).restFrame.pending = s.restFrame.pending by rw [State.cruiseFell_restFrame]
@[simp] theorem State.cruiseFell_fld (s : State) (b : Bool) : (s.cruiseFell b).sh.fld = s.sh.fld :=
  show (s.cruiseFell b).restFrame.sh.fld = s.restFrame.sh.fld by rw [State.cruiseFell_restFrame]
@[simp] theorem State.cruiseFell_regs (s : State) (b : Bool) : (s.cruiseFell b).sh.regs = s.sh.regs :=
  show (s.cruiseFell b).restFrame.sh.regs = s.restFrame.sh.regs by rw [State.cruiseFell_restFrame]
@[simp] theorem State.cruiseFell_cseed (s : State) (b : Bool) : (s.cruiseFell b).sh.cseed = s.sh.cseed :=
  show (s.cruiseFell b).restFrame.sh.cseed = s.restFrame.sh.cseed by rw [State.cruiseFell_restFrame]
@[simp] theorem State.cruiseFell_rd (s : State) (b : Bool) (f : RegField) (i : Nat) :
    (s.cruiseFell b).sh.rd f i = s.sh.rd f i := by rw [Shepherd.rd, State.cruiseFell_regs, Shepherd.rd]

/-- Away from the cruise point a fall of CRUISE_OK does nothing. -/
theorem State.cruiseFell_off {s : State} (h : s.sh.seq.cruiseOn = false) (b : Bool) : s.cruiseFell b = s := by
  simp [State.cruiseFell, h]

/-! ### APPLY_END -/

/-- The shepherd's record of the image in force (R132, R146). -/
def Shepherd.imageInForce (h : Shepherd) (img : List Byte) : Shepherd :=
  (((h.wr F.fldStat_IN_FORCE 1).wr F.fldForceId_ID (le img 0x20 4)).wr F.fldForceLen_LEN img.length).wr
    F.fldStat_CRUISE_OK (b2n (cruiseOk (sectionsOf img)))

theorem Shepherd.rd_imageInForce (h : Shepherd) (img : List Byte) :
    (h.imageInForce img).rd F.fldStat_IN_FORCE = 1 ∧
    (h.imageInForce img).rd F.fldForceId_ID = le img 0x20 4 % 2 ^ 32 ∧
    (h.imageInForce img).rd F.fldForceLen_LEN = img.length % 2 ^ 32 ∧
    (h.imageInForce img).rd F.fldStat_CRUISE_OK = b2n (cruiseOk (sectionsOf img)) := by
  unfold Shepherd.imageInForce
  refine ⟨?_, ?_, ?_, ?_⟩
  · rw [Shepherd.rd_wr_of_apart (by decide), Shepherd.rd_wr_of_apart (by decide), Shepherd.rd_wr_of_apart (by decide)]
    exact Shepherd.rd_wr_same _ _ _ _ (by decide)
  · rw [Shepherd.rd_wr_of_apart (by decide), Shepherd.rd_wr_of_apart (by decide)]
    exact Shepherd.rd_wr_same _ _ _ _ (by decide)
  · rw [Shepherd.rd_wr_of_apart (by decide)]
    exact Shepherd.rd_wr_same _ _ _ _ (by decide)
  · refine (Shepherd.rd_wr_same _ _ _ _ (by decide)).trans ?_
    cases cruiseOk (sectionsOf img) <;> rfl

/-- The end of an APPLY whose words have all crossed, of an image without POWER_PLAN. -/
theorem exec_applyEnd_streamed {s : State} (hs : s.sh.fld.state = .apply) (hp : s.sh.fld.pos = s.sh.fld.len)
    (hplan : powerPlanOf (s.sh.fld.sects 0) = none) :
    exec .applyEnd s = .next ((((s.onDp Datapath.structureSettled).seedsDefined (s.sh.fld.sects 0)).onSh
      (fun h => (h.imageInForce (s.sh.fld.image 0)).fldDone)).cruiseFell (s.sh.flag F.fldStat_CRUISE_OK)) := by
  have hplan' : powerPlanOf (sectionsOf (s.sh.fld.image 0)) = none := hplan
  refine congrArg Host.Outcome.next ((if_pos hs).trans ?_)
  simp only [State.applyEnd, State.fldRest_streamed (.inl hs) hp, State.onDp_sh, hplan']
  rfl

/-- The sections of an image depend on the store alone. -/
theorem Loader.sects_congr {l k : Loader} (h : l.store = k.store) (ofs : Nat) : l.sects ofs = k.sects ofs := by
  simp only [Loader.sects, Loader.image, Loader.lengthAt, h]

theorem Loader.stream_apply {l : Loader} (hs : l.state = .apply) : l.stream = (l.sects 0).filter (fun x => x.typ ≠ 1) := by
  simp only [Loader.stream, hs]

theorem Loader.stream_refold {l : Loader} (hs : l.state = .refold) : l.stream = l.sects l.ofs := by
  simp only [Loader.stream, hs]

/-- What the shepherd holds after a check that passed: STORED_OK, DONE and the digest; IN_FORCE stays. -/
theorem Shepherd.rd_checkPassed {h : Shepherd} (hs : h.fld.state ≠ .restore) (ws : List Nat) :
    (((h.wr F.fldStat_STORED_OK 1).setDigest ws).fldDone).rd F.fldStat_STORED_OK = 1 ∧
    (((h.wr F.fldStat_STORED_OK 1).setDigest ws).fldDone).rd F.fldEvt_DONE = 1 ∧
    (((h.wr F.fldStat_STORED_OK 1).setDigest ws).fldDone).rd F.fldStat_IN_FORCE = h.rd F.fldStat_IN_FORCE ∧
    ∀ i, i < 8 → (((h.wr F.fldStat_STORED_OK 1).setDigest ws).fldDone).rd F.fldDigest_H i = ws.getD i 0 % 2 ^ 32 := by
  refine ⟨?_, ?_, ?_, fun i hi => ?_⟩
  · rw [Shepherd.rd_fldDone_of_apart (by decide) (by decide) (by decide), Shepherd.rd_setDigest_ne (by decide)]
    exact Shepherd.rd_wr_same _ _ _ _ (by decide)
  · exact Shepherd.rd_fldDone_done (by rw [Shepherd.setDigest_fld, Shepherd.wr_fld]; exact hs)
  · rw [Shepherd.rd_fldDone_of_apart (by decide) (by decide) (by decide), Shepherd.rd_setDigest_ne (by decide),
      Shepherd.rd_wr_of_apart (by decide)]
  · rw [Shepherd.rd_fldDone_digest _ hi, Shepherd.rd_setDigest_word _ _ hi]

/-- A failed APPLY leaves the loader idle and reports its code. -/
theorem State.fldApply_fails {s : State} {m : RPort} {n : Nat} (hi : s.sh.fld.state = .idle) (hn : n < 2 ^ 8)
    (he : s.fldApply m = s.fldFail { code := n }) :
    (s.fldApply m).sh.fld.state = .idle ∧ (s.fldApply m).sh.rd F.fldStat_ERR = n ∧
      (s.fldApply m).sh.rd F.fldEvt_ERROR = 1 := by
  obtain ⟨hst, -, herr, hevt⟩ := State.fldFail_idle hi { code := n }
  rw [he]
  exact ⟨hst, herr.trans (Nat.mod_eq_of_lt hn), hevt⟩

@[simp] theorem Shepherd.imageInForce_fld (h : Shepherd) (img : List Byte) : (h.imageInForce img).fld = h.fld := by
  rw [Shepherd.imageInForce, Shepherd.wr_fld, Shepherd.wr_fld, Shepherd.wr_fld, Shepherd.wr_fld]
@[simp] theorem Shepherd.imageInForce_seq (h : Shepherd) (img : List Byte) : (h.imageInForce img).seq = h.seq := by
  rw [Shepherd.imageInForce, Shepherd.wr_seq, Shepherd.wr_seq, Shepherd.wr_seq, Shepherd.wr_seq]
@[simp] theorem Shepherd.imageInForce_cseed (h : Shepherd) (img : List Byte) : (h.imageInForce img).cseed = h.cseed := by
  rw [Shepherd.imageInForce, Shepherd.wr_cseed, Shepherd.wr_cseed, Shepherd.wr_cseed, Shepherd.wr_cseed]

@[simp] theorem State.seedsDefined_fld (s : State) (l : List Sect) : (s.seedsDefined l).sh.fld = s.sh.fld := rfl
@[simp] theorem State.seedsDefined_seq (s : State) (l : List Sect) : (s.seedsDefined l).sh.seq = s.sh.seq := rfl
@[simp] theorem State.seedsDefined_pending (s : State) (l : List Sect) : (s.seedsDefined l).pending = s.pending := rfl

/-- The fields that the end of an APPLY records, once the operation is over. -/
theorem Shepherd.rd_imageInForce_fldDone (h : Shepherd) (img : List Byte) :
    (h.imageInForce img).fldDone.rd F.fldStat_IN_FORCE = 1 ∧
    (h.imageInForce img).fldDone.rd F.fldForceId_ID = le img 0x20 4 % 2 ^ 32 ∧
    (h.imageInForce img).fldDone.rd F.fldForceLen_LEN = img.length % 2 ^ 32 ∧
    (h.imageInForce img).fldDone.rd F.fldStat_CRUISE_OK = b2n (cruiseOk (sectionsOf img)) := by
  have key : ∀ g : RegField, F.fldStat_ERR.apart g = true → F.fldEvt_DONE.apart g = true → F.fldEvt_RESTORED.apart g = true →
      (h.imageInForce img).fldDone.rd g = (h.imageInForce img).rd g :=
    fun g h1 h2 h3 => Shepherd.rd_fldDone_of_apart h1 h2 h3 _
  rw [key F.fldStat_IN_FORCE (by decide) (by decide) (by decide), key F.fldForceId_ID (by decide) (by decide) (by decide),
    key F.fldForceLen_LEN (by decide) (by decide) (by decide), key F.fldStat_CRUISE_OK (by decide) (by decide) (by decide)]
  exact h.rd_imageInForce img

/-- Settles O27: the tests of APPLY exclude each other in their order, and of the end of an APPLY the sequencer's part touches
nothing that the statement names. -/
theorem checksAndApplies : Obligations.ChecksAndApplies := by
  unfold Obligations.ChecksAndApplies
  refine ⟨fun s m hr hi => ?_, fun s hs hc => ?_, fun s e hs hc => ?_, fun s m hr hi => ?_, fun s hs hp hplan => ?_⟩
  · exact ⟨_, exec_check_idle hr hi, by simp, by simp, by simp, by simp⟩
  · obtain ⟨hok, hdone, hforce, hdig⟩ := Shepherd.rd_checkPassed (h := s.sh) (by simp [hs]) (sha256 (s.sh.fld.image 0))
    refine ⟨_, exec_checkEnd_none hs hc, ?_⟩
    simp only [State.onSh_sh, State.onSh_dp, State.onSh_pending, Shepherd.fldDone_state, Shepherd.fldDone_store,
      Shepherd.setDigest_fld, Shepherd.wr_fld, true_and]
    exact ⟨hok, hdone, hforce, hdig⟩
  · have hne : (s.sh.wr F.fldStat_STORED_OK 0).fld.state ≠ .restore := by simp [hs]
    obtain ⟨herr, hsect, hofs, hevt⟩ := Shepherd.fldFail_reports hne e
    refine ⟨_, exec_checkEnd_some hs hc, ?_⟩
    simp only [State.fldFail_sh, State.fldFail_pending, State.onSh_sh, State.onSh_pending, Shepherd.fldFail_state,
      Shepherd.fldFail_store, Shepherd.wr_fld, Shepherd.rd_fldFail_stored hne, true_and]
    exact ⟨Shepherd.rd_wr_same _ _ _ _ (by decide), herr, hsect, hofs, hevt⟩
  · obtain ⟨hstore, hpend⟩ := s.fldApply_keeps m
    refine ⟨_, exec_apply_idle hr hi, ?_⟩
    simp only [State.performed_fld, State.performed_rd, State.performed_dp, State.performed_pending, State.performed_regs]
    refine ⟨hpend, hstore, fun h1 => State.fldApply_fails hi (by decide) (State.fldApply_notChecked h1 m),
      fun h1 h2 => State.fldApply_fails hi (by decide) (State.fldApply_inForce h1 h2 m),
      fun h1 h2 h3 h4 => State.fldApply_fails hi (by decide) (State.fldApply_digest h1 h2 h3 h4 m), fun h1 h2 h3 h4 => ?_⟩
    simp only [State.fldApply_streams h1 h2 h3 h4, State.onSh_dp, State.onSh_sh, Shepherd.fldSend_regs,
      Shepherd.fldSend_fld, Shepherd.onFld_fld, Shepherd.onFld_regs, Shepherd.fldBegin_fld, Shepherd.fldBegin_regs, true_and]
    rw [Loader.stream_apply rfl]
    exact congrArg (fun l : List Sect => streamWords (l.filter (fun x => x.typ ≠ 1))) (Loader.sects_congr rfl 0)
  · refine ⟨_, exec_applyEnd_streamed hs hp hplan, ?_⟩
    obtain ⟨hforce, hid, hlen, hok⟩ := Shepherd.rd_imageInForce_fldDone
      ((s.onDp Datapath.structureSettled).seedsDefined (s.sh.fld.sects 0)).sh (s.sh.fld.image 0)
    have hdone : (((s.onDp Datapath.structureSettled).seedsDefined (s.sh.fld.sects 0)).sh.imageInForce
        (s.sh.fld.image 0)).fldDone.rd F.fldEvt_DONE = 1 := Shepherd.rd_fldDone_done (by simp [hs])
    simp only [State.cruiseFell_dp, State.cruiseFell_pending, State.cruiseFell_fld, State.cruiseFell_rd,
      State.cruiseFell_cseed, State.onSh_dp, State.onSh_pending, State.onSh_sh, Shepherd.fldDone_state,
      Shepherd.fldDone_store, Shepherd.fldDone_cseed, Shepherd.imageInForce_fld, Shepherd.imageInForce_cseed,
      State.seedsDefined_fld, State.seedsDefined_pending, State.onDp_sh, State.onDp_pending, true_and]
    refine ⟨rfl, fun hoff => ?_, hforce, hdone, hid, hlen, hok⟩
    rw [State.cruiseFell_off (by simpa using hoff)]
    simp

end Sys2Proof.Machine

/-! ## REFOLD, ABORT and the end of a restore (R145, R148, R150 to R152) -/

namespace Sys2Proof.Machine

/-! ### REFOLD -/

theorem State.fldRefold_domainOff {s : State} {pen : Nat} (hf : s.sh.flag F.fldStat_IN_FORCE = true)
    (hd : s.sh.domOn (penDomain pen) = false) (m : RPort) :
    s.fldRefold m pen = s.fldFail { code := FE.domainOff } := by simp [State.fldRefold, hf, hd]

theorem State.onSh_onSh (s : State) (f g : Shepherd → Shepherd) : (s.onSh f).onSh g = s.onSh (fun h => g (f h)) := rfl

/-- A REFOLD that passes every test holds the pen at once. -/
theorem State.fldRefold_holds {s : State} {pen : Nat} (hf : s.sh.flag F.fldStat_IN_FORCE = true)
    (hd : s.sh.domOn (penDomain pen) = true) (hc : s.sh.fld.check s.sh.fldByte (some pen) = none)
    (hl : s.sh.flag F.fldCtl_DIGEST_LOCK = false) (hlo : up64 (s.sh.rd F.fldForceLen_LEN) ≤ s.sh.fldByte)
    (hhi : s.sh.fldByte + up64 (s.sh.fld.lengthAt s.sh.fldByte) + (s.sh.fld.spliced s.sh.fldByte pen).length ≤ 1048576)
    (m : RPort) : s.fldRefold m pen = s.onSh (fun h =>
      (h.setDigest (sha256 (h.fld.image s.sh.fldByte))).fldBegin m .hold s.sh.fldByte 0 pen) := by
  have hl' : (s.sh.setDigest (sha256 (s.sh.fld.image s.sh.fldByte))).flag F.fldCtl_DIGEST_LOCK = false := by
    rw [Shepherd.flag, Shepherd.rd_setDigest_ne (by decide)]
    exact hl
  have hlo' : ¬ s.sh.fldByte <
      up64 ((s.sh.setDigest (sha256 (s.sh.fld.image s.sh.fldByte))).rd F.fldForceLen_LEN) := by
    rw [Shepherd.rd_setDigest_ne (by decide)]
    exact Nat.not_lt.2 hlo
  simp only [State.fldRefold, hf, hd, hc, State.onSh_sh, hl', hlo', Nat.not_lt.2 hhi, Shepherd.setDigest_fld, decide_false,
    Bool.not_true, Bool.false_and, Bool.or_self, Bool.false_eq_true, if_false]
  exact State.onSh_onSh _ _ _

/-! ### The phases of a re-fold -/

theorem exec_refoldHoldEmpty_hold {s : State} (hs : s.sh.fld.state = .hold) (hp : s.dp.passesOf s.sh.fld.pen = []) :
    exec .refoldHoldEmpty s = .next s.refoldBegin :=
  congrArg Host.Outcome.next (if_pos (by simp [hs, hp]))

/-- The loader after HOLD: the sections of the partial image are to stream. -/
theorem State.refoldBegin_fld (s : State) : s.refoldBegin.sh.fld =
    { s.sh.fld with state := .refold, pos := 0, len := streamWords (s.sh.fld.sects s.sh.fld.ofs) } := by
  unfold State.refoldBegin
  dsimp only
  rw [State.onSh_sh, Shepherd.fldSend_fld, Shepherd.onFld_fld, State.onDp_sh, Loader.stream_refold rfl]
  exact congrArg (fun l => { s.sh.fld with state := .refold, pos := 0, len := streamWords l }) (Loader.sects_congr rfl _)

@[simp] theorem State.refoldBegin_pending (s : State) : s.refoldBegin.pending = s.pending := by
  unfold State.refoldBegin
  dsimp only [State.onSh_pending, State.onDp_pending]

/-- The changed ports discard for the re-fold, and those with a link are held down (R150, R358). -/
theorem State.refoldBegin_ports (s : State) :
    s.refoldBegin.dp.cel.refold = s.refoldPorts ∧ s.refoldBegin.dp.linkHeld = s.refoldPorts.filter (· < 512) := by
  unfold State.refoldBegin
  dsimp only [State.onSh_dp, State.onDp_dp]
  exact ⟨rfl, rfl⟩

/-- The words of a re-fold have all crossed. -/
theorem exec_refoldApplyEnd_streamed {s : State} (hs : s.sh.fld.state = .refold) (hp : s.sh.fld.pos = s.sh.fld.len) :
    exec .refoldApplyEnd s = .next ((s.onDp (fun d => { d.structureSettled with linkHeld := [] })).onSh (fun h =>
      { h.onFld (fun l => { l with state := .splice, held := l.held.filter (· ≠ l.pen) }) with
        link := h.link.dropLoader })) := by
  refine congrArg Host.Outcome.next ((if_pos hs).trans ?_)
  rw [State.refoldEnd, State.fldRest_streamed (.inr hs) hp]

/-! ### The splice -/

/-- What the shepherd takes over as a spliced image comes into force, in a store whose other bytes are `st` (R152). -/
def Shepherd.takeSpliced (h : Shepherd) (st : URam) (img : List Byte) : Shepherd :=
  (((h.onFld (fun l => { l with store := st.writes 0 img })).setDigest (sha256 img)).wr F.fldForceLen_LEN img.length).wr
    F.fldStat_CRUISE_OK (b2n (cruiseOk (sectionsOf img)))

@[simp] theorem Shepherd.takeSpliced_fld (h : Shepherd) (st : URam) (img : List Byte) :
    (h.takeSpliced st img).fld = { h.fld with store := st.writes 0 img } := by
  rw [Shepherd.takeSpliced, Shepherd.wr_fld, Shepherd.wr_fld, Shepherd.setDigest_fld, Shepherd.onFld_fld]

@[simp] theorem Shepherd.takeSpliced_seq (h : Shepherd) (st : URam) (img : List Byte) : (h.takeSpliced st img).seq = h.seq := by
  rw [Shepherd.takeSpliced, Shepherd.wr_seq, Shepherd.wr_seq, Shepherd.setDigest_seq, Shepherd.onFld_seq]

theorem Shepherd.rd_takeSpliced_fldDone {h : Shepherd} (hs : h.fld.state = .splice) (st : URam) (img : List Byte) :
    (h.takeSpliced st img).fldDone.rd F.fldEvt_DONE = 1 ∧
      (h.takeSpliced st img).fldDone.rd F.fldForceLen_LEN = img.length % 2 ^ 32 := by
  constructor
  · exact Shepherd.rd_fldDone_done (by simp [hs])
  · rw [Shepherd.rd_fldDone_of_apart (by decide) (by decide) (by decide), Shepherd.takeSpliced,
      Shepherd.rd_wr_of_apart (by decide)]
    exact Shepherd.rd_wr_same _ _ _ _ (by decide)

theorem State.splice_eq (s : State) : ∃ st n, s.splice =
    { s with
      sh := (s.sh.takeSpliced st (s.sh.fld.spliced s.sh.fld.ofs s.sh.fld.pen)).fldDone
      dp := { s.dp with cel := { s.dp.cel with refold := [] } }
      freeSeed := n } := ⟨_, _, rfl⟩

theorem State.splice_seq (s : State) : s.splice.sh.seq = s.sh.seq := by
  obtain ⟨st, n, h⟩ := s.splice_eq
  rw [h, Shepherd.fldDone_seq, Shepherd.takeSpliced_seq]

theorem exec_spliceEnd_off {s : State} (hs : s.sh.fld.state = .splice) (hc : s.sh.seq.cruiseOn = false) :
    exec .spliceEnd s = .next s.splice :=
  congrArg Host.Outcome.next ((if_pos hs).trans (State.cruiseFell_off (by rw [State.splice_seq]; exact hc) _))

/-! ### ABORT -/

theorem State.fldAbort_none {s : State} (hs : s.sh.fld.state ∈ [FldState.idle, .splice, .restore]) : s.fldAbort = s := by
  simp only [List.mem_cons, List.not_mem_nil, or_false] at hs
  rcases hs with hs | hs | hs <;> simp only [State.fldAbort, hs]

theorem State.fldAbort_runs {s : State} (hs : s.sh.fld.state ∉ [FldState.idle, .splice, .restore]) :
    s.fldAbort = s.fldFail { code := FE.aborted } := by
  unfold State.fldAbort
  split
  · next h => simp [h] at hs
  · next h => simp [h] at hs
  · next h => simp [h] at hs
  · rfl

/-! ### The effect of sections on the loader -/

/-- The loader and the queue stay as they are. -/
def KeepsLoader (s t : State) : Prop := t.sh.fld = s.sh.fld ∧ t.pending = s.pending

theorem KeepsLoader.refl (s : State) : KeepsLoader s s := ⟨rfl, rfl⟩

theorem KeepsLoader.trans {s t u : State} (a : KeepsLoader s t) (b : KeepsLoader t u) : KeepsLoader s u :=
  ⟨b.1.trans a.1, b.2.trans a.2⟩

theorem KeepsLoader.foldl {α : Type} (f : State → α → State) (hf : ∀ s x, KeepsLoader s (f s x)) (l : List α) (s : State) :
    KeepsLoader s (l.foldl f s) :=
  foldl_keeps (KeepsLoader s) f (fun t x h => h.trans (hf t x)) l s (KeepsLoader.refl s)

theorem KeepsLoader.onDp (s : State) (f : Datapath → Datapath) : KeepsLoader s (s.onDp f) := ⟨rfl, rfl⟩

theorem KeepsLoader.noteClear (s : State) (was : Datapath) (r : Reg) (i : Nat) : KeepsLoader s (s.noteClear was r i) := by
  unfold State.noteClear
  split
  · split
    · split <;> exact ⟨rfl, rfl⟩
    · exact KeepsLoader.refl s
  · exact KeepsLoader.refl s

/-- A seed that the shepherd takes is no part of the loader. -/
theorem KeepsLoader.writeCseed (s : State) (n : Nat) (be : BitVec 4) (data : Word) : KeepsLoader s (s.writeCseed n be data) := by
  refine ⟨?_, rfl⟩
  rw [State.writeCseed, State.onSh_sh, Shepherd.takeSeed]
  split <;> rfl

/-- A write of an FLD register by the apply engine is none of FLD_CMD (R550). -/
theorem KeepsLoader.writeFld (s : State) (r : Reg) (i : Nat) (be : BitVec 4) (data : Word) :
    KeepsLoader s (s.writeFld .apply r i be data) := by
  unfold State.writeFld
  split <;> exact ⟨rfl, rfl⟩

/-- A register write of the apply engine. -/
theorem KeepsLoader.writeReg (s : State) (r : Reg) (i j : Nat) (be : BitVec 4) (data : Word) :
    KeepsLoader s (s.writeReg .apply r i j be data).1 := by
  unfold State.writeReg
  split
  · exact KeepsLoader.refl s
  · split
    · exact KeepsLoader.refl s
    · exact KeepsLoader.refl s
    · exact KeepsLoader.writeFld s _ i be data
    · exact ⟨rfl, rfl⟩
    · exact ⟨rfl, rfl⟩
    · exact KeepsLoader.writeCseed s i be data
    · exact ⟨rfl, rfl⟩
    · exact ⟨rfl, rfl⟩
    · split
      · exact ⟨rfl, rfl⟩
      · exact (KeepsLoader.onDp s _).trans (KeepsLoader.noteClear _ _ _ _)

theorem KeepsLoader.applyPreset (s : State) (restore : Bool) (p : Nat × Nat × Nat) :
    KeepsLoader s (s.applyPreset restore p) := by
  unfold State.applyPreset State.performWrite
  dsimp only
  split
  · exact KeepsLoader.refl s
  · split
    · exact KeepsLoader.refl s
    · split
      · exact KeepsLoader.writeReg s _ _ _ _ _
      · exact KeepsLoader.refl s

theorem KeepsLoader.applyGeom (s : State) (restore : Bool) (x : Sect) : KeepsLoader s (s.applyGeom restore x) := by
  unfold State.applyGeom
  dsimp only
  split <;> exact ⟨rfl, rfl⟩

/-- No section of an image acts on the loader or the queue (R127). -/
theorem KeepsLoader.applySect (s : State) (restore : Bool) (x : Sect) : KeepsLoader s (s.applySect restore x) := by
  unfold State.applySect
  split
  · exact KeepsLoader.refl s
  · split
    case h_2 => exact KeepsLoader.applyGeom s restore x
    case h_11 => exact KeepsLoader.foldl _ (fun s p => KeepsLoader.applyPreset s restore p) _ s
    case h_12 => exact KeepsLoader.refl s
    all_goals exact KeepsLoader.onDp s _

/-- Of the loader a stream changes the progress alone. -/
theorem State.streamTo_keeps (s : State) (n : Nat) :
    (s.streamTo n).sh.fld = { s.sh.fld with pos := n } ∧ (s.streamTo n).pending = s.pending := by
  unfold State.streamTo
  dsimp only
  obtain ⟨hf, hp⟩ := KeepsLoader.foldl (fun t (e : Nat × Sect) => t.applySect (t.sh.fld.state = .restore) e.2)
    (fun t e => KeepsLoader.applySect t _ e.2)
    ((sectEnds s.sh.fld.stream).filter (fun e => s.sh.fld.pos < e.1 && e.1 ≤ n)) s
  exact ⟨by rw [State.onSh_sh, Shepherd.onFld_fld, hf], hp⟩

/-! ### RESTORE_END -/

theorem exec_restoreEnd_failed {s : State} (hs : s.sh.fld.state = .restore) :
    exec (.restoreEnd true) s = .next (s.fldFail { code := FE.linkTimeout }).restored := by
  refine congrArg Host.Outcome.next ?_
  rw [if_neg (by simp [hs]), if_pos rfl]

theorem State.restored_keep (s : State) : KeepR s s.restored := by
  unfold State.restored
  split
  · exact State.seqNext_keep s
  · exact KeepRegs.refl _

/-- The sequencer, which goes on after a restore, leaves FLD_EVT alone. -/
theorem State.rd_restored_fldEvt {f : RegField} (hf : f.reg = .fldEvt) (s : State) : s.restored.sh.rd f = s.sh.rd f := by
  refine s.restored_keep.rd f 0 ?_ ?_ <;> rw [hf] <;> decide

/-- A restore that succeeds ends with RESTORED. -/
theorem exec_restoreEnd_ok {s : State} (hs : s.sh.fld.state = .restore) :
    ∃ u : State, exec (.restoreEnd false) s = .next (u.onSh Shepherd.fldDone).restored ∧ u.pending = s.pending ∧
      u.sh.fld.state = .restore := by
  have hrest : s.fldRest = s.streamTo s.sh.fld.len := by simp only [State.fldRest, hs]
  obtain ⟨hf, hp⟩ := s.streamTo_keeps s.sh.fld.len
  refine ⟨s.fldRest.onDp (fun d =>
    if s.sh.fld.kept.contains 11 then d.structureSettled else d.structureSettled.cellarRecharge), ?_, ?_, ?_⟩
  · refine congrArg Host.Outcome.next ?_
    rw [if_neg (by simp [hs]), if_neg Bool.false_ne_true]
  · rw [State.onDp_pending, hrest, hp]
  · rw [State.onDp_sh, hrest, hf]
    exact hs

/-- Settles O28: each phase is one step of the loader, and the sequencer's part at the end of a restore leaves FLD_EVT alone. -/
theorem refoldPhases : Obligations.RefoldPhases := by
  unfold Obligations.RefoldPhases
  refine ⟨fun s m pen hpen hr hi hf hd hc hl hlo hhi => ?_, fun s m pen hpen hr hi hf hd => ?_, fun s hs hp => ?_,
    fun s hs hp => ?_, fun s hs hoff => ?_, fun s m hr => ?_, fun s failed hs => ?_⟩
  · refine ⟨_, exec_refold_idle hr hi hpen, ?_⟩
    rw [State.fldRefold_holds hf hd hc hl hlo hhi]
    exact ⟨by simp, by simp, by simp⟩
  · obtain ⟨hst, hstore, herr, hevt⟩ := State.fldFail_idle hi { code := FE.domainOff }
    refine ⟨_, exec_refold_idle hr hi hpen, ?_⟩
    rw [State.fldRefold_domainOff hf hd]
    simp only [State.performed_fld, State.performed_rd]
    exact ⟨hst, hstore, herr, hevt⟩
  · refine ⟨_, exec_refoldHoldEmpty_hold hs hp, s.refoldBegin_pending, ?_⟩
    simp only [State.refoldBegin_fld, true_and]
    exact s.refoldBegin_ports
  · refine ⟨_, exec_refoldApplyEnd_streamed hs hp, rfl, rfl, rfl, rfl, rfl, ?_⟩
    simp
  · obtain ⟨st, n, heq⟩ := s.splice_eq
    obtain ⟨hdone, hlen⟩ := Shepherd.rd_takeSpliced_fldDone hs st (s.sh.fld.spliced s.sh.fld.ofs s.sh.fld.pen)
    refine ⟨_, exec_spliceEnd_off hs hoff, ?_⟩
    rw [heq]
    refine ⟨rfl, Shepherd.fldDone_state _, rfl, rfl, hdone, hlen, st, ?_⟩
    rw [Shepherd.fldDone_store, Shepherd.takeSpliced_fld]
  · refine ⟨_, exec_abort_reaches hr, ?_⟩
    simp only [State.performed_pending, State.performed_fld, State.performed_dp, State.performed_regs, State.performed_rd]
    by_cases hs : s.sh.fld.state ∈ [FldState.idle, .splice, .restore]
    · rw [State.fldAbort_none hs]
      exact ⟨rfl, rfl, fun _ => ⟨rfl, rfl, rfl⟩, fun h => absurd hs h⟩
    · have hne : s.sh.fld.state ≠ .restore := fun h => hs (by simp [h])
      obtain ⟨herr, -, -, hevt⟩ := Shepherd.fldFail_reports hne { code := FE.aborted }
      rw [State.fldAbort_runs hs]
      exact ⟨rfl, Shepherd.fldFail_store _ _, fun h => absurd h hs, fun _ =>
        ⟨rfl, herr, hevt, State.fldFail_linkHeld _ _, State.fldFail_refold _ _⟩⟩
  · cases failed with
    | true =>
      refine ⟨_, exec_restoreEnd_failed hs, (State.restored_same _).pending, fun _ => ?_, nofun⟩
      rw [State.rd_restored_fldEvt rfl]
      exact Shepherd.rd_fldFail_restore hs _
    | false =>
      obtain ⟨u, hx, hp, hu⟩ := exec_restoreEnd_ok hs
      refine ⟨_, hx, (State.restored_same _).pending.trans hp, nofun, fun _ => ?_⟩
      rw [State.rd_restored_fldEvt rfl]
      exact Shepherd.rd_fldDone_restored hu

end Sys2Proof.Machine

/-! ## A pass up to its verdict (R236, R242, R247, R251, R260, R262, R273, R274) -/

namespace Sys2Proof.Machine

/-! ### What counting leaves alone -/

/-- What counting leaves of a datapath: all but the tallies, the monitor's counters, the register file and the notes of the present
clock. -/
def Datapath.uncounted (d : Datapath) : Datapath := { d.pmnRest with tally := [], tallyWrap := [] }

/-- The monitor's counting leaves the frames, the larder and the passes. -/
theorem Datapath.kept_of_rest {d e : Datapath} (h : d.pmnRest = e.pmnRest) :
    d.frames = e.frames ∧ d.lar = e.lar ∧ ∀ pen, d.passesOf pen = e.passesOf pen :=
  ⟨(congrArg Datapath.frames h :), (congrArg Datapath.lar h :), fun pen => (congrArg (fun z : Datapath => z.passesOf pen) h :)⟩

@[simp] theorem Datapath.pmnOutcome_rest (d : Datapath) (pen : Nat) (acct retired : Bool) :
    (d.pmnOutcome pen acct retired).pmnRest = d.pmnRest := by
  unfold Datapath.pmnOutcome
  split
  · exact Datapath.pmnEvent_rest ..
  · rfl

@[simp] theorem Datapath.tallyAdd_uncounted (d : Datapath) (p k n : Nat) : (d.tallyAdd p k n).uncounted = d.uncounted := by
  rw [Datapath.tallyAdd_eq]
  rfl

@[simp] theorem Datapath.parseStat_uncounted (d : Datapath) (pen kind ext slot pass prof : Nat) :
    (d.parseStat pen kind ext slot pass prof).uncounted = d.uncounted := by
  unfold Datapath.parseStat
  split
  · rfl
  · split <;> rfl

@[simp] theorem Datapath.parseStat_tally (d : Datapath) (pen kind ext slot pass prof : Nat) :
    (d.parseStat pen kind ext slot pass prof).tally = d.tally := by
  unfold Datapath.parseStat
  split
  · rfl
  · split <;> rfl

/-- A window that opens, or is refused, leaves all but the register file (R260, R264). -/
theorem Datapath.openWindow_frame (d : Datapath) (pen : Nat) (r : List Byte) (base : Nat) :
    { (d.openWindow pen r base).1 with regs := d.regs } = d := by
  unfold Datapath.openWindow
  dsimp only
  split
  · rfl
  · split <;> rfl

/-! ### Registers of the parse -/

theorem Datapath.rd_tallyEvt {g : RegField} {i j m : Nat} (h : g.reg.addr i j ≠ Reg.penTallyEvt.addr (penOf (m / 128)) 0)
    (d : Datapath) (kind : Nat) : (d.tallyEvt m kind).rd g i j = d.rd g i j := by
  have hreg : (evtField kind).reg = .penTallyEvt := by
    unfold evtField
    split <;> rfl
  have hwr := d.rd_wr_ne (evtField kind) g (penOf (m / 128)) 0 i j
    (setBit (d.rd (evtField kind) (penOf (m / 128)) 0) (slotOf (m / 128)) true) (by rw [hreg]; exact h)
  unfold Datapath.tallyEvt
  dsimp only
  split <;> exact hwr

/-- A tally's step reaches the register of the tally events of its port alone. -/
theorem Datapath.rd_tallyAdd {g : RegField} {i j p k : Nat} (hk : k < 128)
    (h : g.reg.addr i j ≠ Reg.penTallyEvt.addr (penOf p) 0) (d : Datapath) (n : Nat) :
    (d.tallyAdd p k n).rd g i j = d.rd g i j := by
  have hm : (128 * p + k) / 128 = p := by omega
  have hevt : ∀ (e : Datapath) (kind : Nat), (e.tallyEvt (128 * p + k) kind).rd g i j = e.rd g i j :=
    fun e kind => Datapath.rd_tallyEvt (by rw [hm]; exact h) e kind
  unfold Datapath.tallyAdd
  dsimp only
  split <;> split
  · exact (hevt _ _).trans (hevt _ _)
  · exact hevt _ _
  · exact hevt _ _
  · rfl

/-- The capture of a parse failure reaches PEN_PARSE_STAT of its pen alone (R252). -/
theorem Datapath.rd_parseStat {g : RegField} {i j pen : Nat} (h : g.reg.addr i j ≠ Reg.penParseStat.addr pen 0)
    (d : Datapath) (kind ext slot pass prof : Nat) : (d.parseStat pen kind ext slot pass prof).rd g i j = d.rd g i j := by
  unfold Datapath.parseStat
  split
  · rfl
  · split
    · exact d.rd_wr_ne _ _ _ _ _ _ _ h
    · simp only [Datapath.rd_wr_ne _ F.penParseStat_NEW g _ _ _ _ _ h, Datapath.rd_wr_ne _ F.penParseStat_KIND g _ _ _ _ _ h,
        Datapath.rd_wr_ne _ F.penParseStat_EXT g _ _ _ _ _ h, Datapath.rd_wr_ne _ F.penParseStat_SLOT g _ _ _ _ _ h,
        Datapath.rd_wr_ne _ F.penParseStat_PASS g _ _ _ _ _ h, Datapath.rd_wr_ne _ F.penParseStat_PROFILE g _ _ _ _ _ h]

theorem slotOf_lt (p : Nat) : slotOf p < 16 := by
  unfold slotOf
  split <;> omega

/-- PEN_LINK_CTL lies beside the registers of the tally events and the parse failures, whichever pen they are of. -/
theorem linkCtl_beside {j : Nat} (hj : j < 16) (i n : Nat) :
    Reg.penLinkCtl.addr i j ≠ Reg.penTallyEvt.addr n 0 ∧ Reg.penLinkCtl.addr i j ≠ Reg.penParseStat.addr n 0 := by
  simp only [Reg.addr, Reg.geom]
  omega

/-- PEN_PARSE_PORT lies beside them too. -/
theorem parsePort_beside {j : Nat} (hj : j < 16) (i n : Nat) :
    Reg.penParsePort.addr i j ≠ Reg.penTallyEvt.addr n 0 ∧ Reg.penParsePort.addr i j ≠ Reg.penParseStat.addr n 0 := by
  simp only [Reg.addr, Reg.geom]
  omega

theorem Datapath.tallyStep_congr {d e : Datapath} {p : Nat}
    (h : e.rd F.penLinkCtl_LOOP (p / 16) (p % 16) = d.rd F.penLinkCtl_LOOP (p / 16) (p % 16)) : e.tallyStep p = d.tallyStep p := by
  unfold Datapath.tallyStep Datapath.loopMode
  rw [h]

theorem Datapath.defMode_congr {d e : Datapath} {p : Nat}
    (h : e.rd F.penParsePort_DEF_MODE (penOf p) (parseIdx p) = d.rd F.penParsePort_DEF_MODE (penOf p) (parseIdx p)) :
    e.defMode p = d.defMode p := by
  unfold Datapath.defMode
  rw [h]

theorem Datapath.tallyStep_tallyAdd (d : Datapath) {p k : Nat} (hk : k < 128) (n : Nat) :
    (d.tallyAdd p k n).tallyStep p = d.tallyStep p :=
  Datapath.tallyStep_congr (Datapath.rd_tallyAdd hk (linkCtl_beside (Nat.mod_lt _ (by decide)) _ _).1 _ _)

/-- Two tallies of a port count one after the other. -/
theorem Datapath.tallyAdd_both (d : Datapath) (p : Nat) {k k' : Nat} (hk : k < 128) (hne : k ≠ k') :
    Tab.get ((d.tallyAdd p k).tallyAdd p k').tally (128 * p + k) 0 = (Tab.get d.tally (128 * p + k) 0 + d.tallyStep p) % 2 ^ 56 ∧
      Tab.get ((d.tallyAdd p k).tallyAdd p k').tally (128 * p + k') 0 =
        (Tab.get d.tally (128 * p + k') 0 + d.tallyStep p) % 2 ^ 56 := by
  rw [Datapath.tallyAdd_tally _ p k', Datapath.tallyStep_tallyAdd d hk, Datapath.tallyAdd_tally d, Nat.one_mul]
  refine ⟨?_, ?_⟩
  · rw [Tab.get_put_ne _ (by omega), Tab.get_put_same]
  · rw [Tab.get_put_same, Tab.get_put_ne _ (by omega)]

/-! ### The parse, part by part -/

/-- How the sort table and the profile it selects run on a pass (R242, R247). -/
def Datapath.parseOut (d : Datapath) (pen : Nat) (x : Frame) : ParseOut :=
  match d.sortSelect pen (d.sortKey pen x (d.hintOf x) (dataEndOf x)) with
  | some prof => d.runProfile pen prof x (d.hintOf x) (dataEndOf x)
  | none => .noProfile

theorem Datapath.parseOut_some {d : Datapath} {pen prof : Nat} {x : Frame}
    (h : d.sortSelect pen (d.sortKey pen x (d.hintOf x) (dataEndOf x)) = some prof) :
    d.parseOut pen x = d.runProfile pen prof x (d.hintOf x) (dataEndOf x) := by
  unfold Datapath.parseOut
  rw [h]

theorem Datapath.parseOut_none {d : Datapath} {pen : Nat} {x : Frame}
    (h : d.sortSelect pen (d.sortKey pen x (d.hintOf x) (dataEndOf x)) = none) : d.parseOut pen x = .noProfile := by
  unfold Datapath.parseOut
  rw [h]

/-- A frame of the first pass, as its slot stamps it with the verdict epoch (R236). -/
def Datapath.stamped (d : Datapath) (x : Frame) : Frame := { x with epoch := d.rd F.larEpoch_CUR, inside := true }

/-- The datapath once a slot has taken the earliest ready frame of its pen, and `rest` is left (R214, R234). -/
def Datapath.slotFilled (d : Datapath) (pen slot : Nat) (rest : List Nat) : Datapath :=
  let t := (d.setReady pen rest).slotTaken pen slot
  { t with pmn := { t.pmn with started := if t.flag F.pmnCtl_RUN then Tab.upd t.pmn.started pen 0 (· + 1) else t.pmn.started } }

/-- A failed parse is counted and captured (R251, R252); only `parseRun` uses this, and of outcomes that are no `ok`. -/
def Datapath.parseFailed (d : Datapath) (pen : Nat) (x : Frame) : ParseOut → Datapath
  | .short k prof => (d.tallyAdd x.info.port T.PARSE_SHORT).parseStat pen 1 k (slotOf x.info.port) x.info.pass prof
  | .noProfile | .ok _ _ _ => (d.tallyAdd x.info.port T.PARSE_NO_PROFILE).parseStat pen 0 0 (slotOf x.info.port) x.info.pass 0

/-- The default action drops a frame whose parse failed (R251). -/
def Datapath.parseDrop (d : Datapath) (pen f port : Nat) : Datapath :=
  ((d.tallyAdd port T.PARSE_DEF_DROP).dropFrame f).pmnOutcome pen (d.flag F.pmnCtl_RUN) false

/-- The default action of a failed parse: drop, the default verdict, or another profile (R251). -/
def Datapath.parseDefault (d : Datapath) (pen slot f : Nat) (x : Frame) (hint : Nat) : Datapath :=
  if d.defMode x.info.port = 0 then d.parseDrop pen f x.info.port
  else if d.defMode x.info.port = 1 then d.startFailed pen slot f x hint
  else
    match d.runProfile pen (d.rd F.penParsePort_DEF_PROFILE (penOf x.info.port) (parseIdx x.info.port)) x hint (dataEndOf x) with
    | .ok prof kv sv => d.startPass pen slot f x prof kv sv hint
    | _ => d.parseDrop pen f x.info.port

/-- A parse on the pass of a frame just taken: its pass starts, or it fails. -/
def Datapath.parseRun (d : Datapath) (pen slot f : Nat) (x : Frame) : Datapath :=
  match d.parseOut pen x with
  | .ok prof kv sv => d.startPass pen slot f x prof kv sv (d.hintOf x)
  | bad => (d.parseFailed pen x bad).parseDefault pen slot f x (d.hintOf x)

/-- Filling a slot changes what is ready, the slots counted and what is noted of the clock alone. -/
theorem Datapath.slotFilled_eq (d : Datapath) (pen slot : Nat) (rest : List Nat) : d.slotFilled pen slot rest =
    { d with ready := Tab.put d.ready pen rest [], pmn := (d.slotFilled pen slot rest).pmn,
             together := (d.slotFilled pen slot rest).together } := by
  unfold Datapath.slotFilled Datapath.slotTaken
  split <;> rfl

theorem Datapath.stamped_slotFilled (d : Datapath) (pen slot : Nat) (rest : List Nat) (x : Frame) :
    (d.slotFilled pen slot rest).stamped x = d.stamped x := by
  rw [Datapath.slotFilled_eq]
  rfl

/-- The datapath with frame f, which stands as x from then on, in a slot. -/
def Datapath.frameTaken (d : Datapath) (pen slot f : Nat) (rest : List Nat) (x : Frame) : Datapath :=
  (d.slotFilled pen slot rest).setFrame f x

/-- A slot takes the earliest ready frame of its pen and runs the parse on its first pass. -/
theorem Datapath.parseStart_firstPass {d : Datapath} {pen f : Nat} {rest : List Nat} {x : Frame} (hr : d.readyOf pen = f :: rest)
    (hf : d.frame f = some x) (ht : x.transit = false) (hp : x.info.pass = 1) (hl : isLoop x.info.port = false) (lead slot : Nat) :
    d.parseStart lead pen slot =
      (d.frameTaken pen (d.slotFor pen slot) f rest (d.stamped x)).parseRun pen (d.slotFor pen slot) f (d.stamped x) := by
  unfold Datapath.parseStart
  rw [hr]
  simp -zeta only [hf]
  extract_lets slot' t0 m t y u v port hint e out drop
  have hy : y = t.stamped x := if_pos hp
  have hv : v = t.setFrame f y := if_neg (by rw [hy]; change ¬ (isLoop x.info.port && x.ended) = true; simp [hl])
  rw [if_neg (by rw [hy]; change ¬ x.transit = true; simp [ht])]
  have ho : v.parseOut pen y = out := rfl
  rw [← Datapath.stamped_slotFilled d pen slot' rest]
  change _ = (t.setFrame f (t.stamped x)).parseRun pen slot' f (t.stamped x)
  rw [← hy, ← hv, Datapath.parseRun, ho]
  clear_value out
  cases out <;> rfl

section
variable (d : Datapath) (pen slot f : Nat) (rest : List Nat) (x : Frame)

theorem Datapath.frameTaken_eq : d.frameTaken pen slot f rest x =
    { d with ready := Tab.put d.ready pen rest [], frames := Tab.set d.frames f x,
             pmn := (d.slotFilled pen slot rest).pmn, together := (d.slotFilled pen slot rest).together } := by
  unfold Datapath.frameTaken
  rw [Datapath.slotFilled_eq]
  rfl

/-- Taking the frame does not change how it parses. -/
theorem Datapath.parseOut_frameTaken : (d.frameTaken pen slot f rest x).parseOut pen x = d.parseOut pen x := by
  rw [Datapath.frameTaken_eq]
  rfl

@[simp] theorem Datapath.frameTaken_readyOf : (d.frameTaken pen slot f rest x).readyOf pen = rest := by
  rw [Datapath.frameTaken_eq]
  exact Tab.get_put_same _ _ _ _

@[simp] theorem Datapath.frameTaken_frame : (d.frameTaken pen slot f rest x).frame f = some x := Datapath.frame_setFrame _ _ _
@[simp] theorem Datapath.frameTaken_copies : (d.frameTaken pen slot f rest x).copies = d.copies := by rw [Datapath.frameTaken_eq]
@[simp] theorem Datapath.frameTaken_passes : (d.frameTaken pen slot f rest x).passes = d.passes := by rw [Datapath.frameTaken_eq]
@[simp] theorem Datapath.frameTaken_regs : (d.frameTaken pen slot f rest x).regs = d.regs := by rw [Datapath.frameTaken_eq]
@[simp] theorem Datapath.frameTaken_tally : (d.frameTaken pen slot f rest x).tally = d.tally := by rw [Datapath.frameTaken_eq]
@[simp] theorem Datapath.frameTaken_lar : (d.frameTaken pen slot f rest x).lar = d.lar := by rw [Datapath.frameTaken_eq]

end

/-! ### Where a pass goes from its parse -/

section
variable {d : Datapath} {pen f : Nat} {x : Frame}

/-- A pass that starts changes the passes, and the register file by its window, alone (R250, R260). -/
theorem Datapath.startPass_frame (d : Datapath) (pen slot f : Nat) (x : Frame) (prof : Nat) (kv : List Byte) (sv hint : Nat) :
    { d.startPass pen slot f x prof kv sv hint with regs := d.regs, passes := d.passes } = d :=
  congrArg (fun z : Datapath => { z with passes := d.passes })
    (d.openWindow_frame pen (d.profileRec pen prof) x.info.base)

@[simp] theorem Datapath.startPass_readyOf (d : Datapath) (pen slot f : Nat) (x : Frame) (prof : Nat) (kv : List Byte)
    (sv hint n : Nat) : (d.startPass pen slot f x prof kv sv hint).readyOf n = d.readyOf n :=
  (congrArg (fun z : Datapath => z.readyOf n) (d.startPass_frame pen slot f x prof kv sv hint) :)

@[simp] theorem Datapath.startPass_copies (d : Datapath) (pen slot f : Nat) (x : Frame) (prof : Nat) (kv : List Byte)
    (sv hint : Nat) : (d.startPass pen slot f x prof kv sv hint).copies = d.copies :=
  (congrArg Datapath.copies (d.startPass_frame pen slot f x prof kv sv hint) :)

@[simp] theorem Datapath.startPass_frames (d : Datapath) (pen slot f : Nat) (x : Frame) (prof : Nat) (kv : List Byte)
    (sv hint : Nat) : (d.startPass pen slot f x prof kv sv hint).frames = d.frames :=
  (congrArg Datapath.frames (d.startPass_frame pen slot f x prof kv sv hint) :)

/-- The pass that starts is the youngest of its pen. -/
theorem Datapath.startPass_passesOf (d : Datapath) (pen slot f : Nat) (x : Frame) (prof : Nat) (kv : List Byte) (sv hint : Nat) :
    ∃ p, (d.startPass pen slot f x prof kv sv hint).passesOf pen = d.passesOf pen ++ [p] ∧ p.fid = f ∧ p.slot = slot ∧
      p.profile = prof ∧ p.kv = kv ∧ p.live = d.lar.live ∧ p.failed = false := by
  have hold := congrArg (fun z : Datapath => z.passesOf pen) (d.openWindow_frame pen (d.profileRec pen prof) x.info.base)
  refine ⟨_, (Datapath.passesOf_setPasses _ _ _).trans (congrArg (· ++ [_]) hold), ?_⟩
  exact ⟨rfl, rfl, rfl, rfl, rfl, rfl⟩

theorem Datapath.dropFrame_eq (hx : d.frame f = some x) : d.dropFrame f =
    { d with frames := Tab.erase d.frames f, ready := Tab.put d.ready x.inPen ((d.readyOf x.inPen).filter (· ≠ f)) [] } := by
  unfold Datapath.dropFrame
  rw [hx]
  rfl

/-- The default action that drops a frame removes and counts it; the other ready frames of its pen, the copies and the passes
stay (R251). -/
theorem Datapath.parseDrop_keeps (hx : d.frame f = some x) (hp : x.inPen = pen) (hn : f ∉ d.readyOf pen) (port : Nat) :
    (d.parseDrop pen f port).readyOf pen = d.readyOf pen ∧ (d.parseDrop pen f port).copies = d.copies ∧
      (d.parseDrop pen f port).passes = d.passes ∧ (d.parseDrop pen f port).frame f = none ∧
      (d.parseDrop pen f port).tally = (d.tallyAdd port T.PARSE_DEF_DROP).tally := by
  subst hp
  have hx' : (d.tallyAdd port T.PARSE_DEF_DROP).frame f = some x := by
    simpa [Datapath.frame] using hx
  have hready : (d.tallyAdd port T.PARSE_DEF_DROP).readyOf x.inPen = d.readyOf x.inPen := by simp [Datapath.readyOf]
  have hrest : (d.parseDrop x.inPen f port).pmnRest = ((d.tallyAdd port T.PARSE_DEF_DROP).dropFrame f).pmnRest :=
    Datapath.pmnOutcome_rest _ _ _ _
  rw [Datapath.dropFrame_eq hx', hready] at hrest
  have hfilter : (d.readyOf x.inPen).filter (· ≠ f) = d.readyOf x.inPen :=
    List.filter_eq_self.2 fun g hg => by simpa using ne_of_mem_of_not_mem hg hn
  rw [hfilter] at hrest
  refine ⟨?_, ?_, ?_, ?_, (congrArg Datapath.tally hrest :)⟩
  · exact (congrArg (fun z : Datapath => z.readyOf x.inPen) hrest :).trans (Tab.get_put_same _ _ _ _)
  · exact (congrArg Datapath.copies hrest :).trans (Datapath.tallyAdd_copies _ _ _ _)
  · exact (congrArg Datapath.passes hrest :).trans (Datapath.tallyAdd_passes _ _ _ _)
  · exact (congrArg (fun z : Datapath => z.frame f) hrest :).trans (Tab.find_erase_same _ _)

@[simp] theorem Datapath.parseFailed_uncounted (d : Datapath) (pen : Nat) (x : Frame) (o : ParseOut) :
    (d.parseFailed pen x o).uncounted = d.uncounted := by
  cases o <;> simp [Datapath.parseFailed]

@[simp] theorem Datapath.parseFailed_readyOf (d : Datapath) (pen : Nat) (x : Frame) (o : ParseOut) (n : Nat) :
    (d.parseFailed pen x o).readyOf n = d.readyOf n :=
  (congrArg (fun z : Datapath => z.readyOf n) (d.parseFailed_uncounted pen x o) :)

@[simp] theorem Datapath.parseFailed_frame (d : Datapath) (pen : Nat) (x : Frame) (o : ParseOut) (n : Nat) :
    (d.parseFailed pen x o).frame n = d.frame n :=
  (congrArg (fun z : Datapath => z.frame n) (d.parseFailed_uncounted pen x o) :)

@[simp] theorem Datapath.parseFailed_copies (d : Datapath) (pen : Nat) (x : Frame) (o : ParseOut) :
    (d.parseFailed pen x o).copies = d.copies :=
  (congrArg Datapath.copies (d.parseFailed_uncounted pen x o) :)

@[simp] theorem Datapath.parseFailed_passes (d : Datapath) (pen : Nat) (x : Frame) (o : ParseOut) :
    (d.parseFailed pen x o).passes = d.passes :=
  (congrArg Datapath.passes (d.parseFailed_uncounted pen x o) :)

theorem Datapath.parseDefault_keeps (hx : d.frame f = some x) (hp : x.inPen = pen) (hn : f ∉ d.readyOf pen) (slot hint : Nat) :
    (d.parseDefault pen slot f x hint).readyOf pen = d.readyOf pen ∧ (d.parseDefault pen slot f x hint).copies = d.copies := by
  obtain ⟨hready, hcopies, -⟩ := Datapath.parseDrop_keeps hx hp hn x.info.port
  unfold Datapath.parseDefault
  split
  · exact ⟨hready, hcopies⟩
  · split
    · exact ⟨rfl, rfl⟩
    · split
      · exact ⟨Datapath.startPass_readyOf .., Datapath.startPass_copies ..⟩
      · exact ⟨hready, hcopies⟩

/-- However a parse ends, the other ready frames of the pen and the copies stay. -/
theorem Datapath.parseRun_keeps (hx : d.frame f = some x) (hp : x.inPen = pen) (hn : f ∉ d.readyOf pen) (slot : Nat) :
    (d.parseRun pen slot f x).readyOf pen = d.readyOf pen ∧ (d.parseRun pen slot f x).copies = d.copies := by
  unfold Datapath.parseRun
  split
  · exact ⟨Datapath.startPass_readyOf .., Datapath.startPass_copies ..⟩
  · simpa using Datapath.parseDefault_keeps (d := d.parseFailed pen x (d.parseOut pen x)) (by simpa using hx) hp
      (by simpa using hn) slot (d.hintOf x)

/-- Where no profile is selected and DEF_MODE is 0, the frame leaves, counted in PARSE_NO_PROFILE and PARSE_DEF_DROP (R251). -/
theorem Datapath.parseRun_noProfile {port : Nat} (hx : d.frame f = some x) (hp : x.inPen = pen) (hn : f ∉ d.readyOf pen)
    (hport : x.info.port = port) (ho : d.parseOut pen x = .noProfile) (hm : d.defMode port = 0) (slot : Nat) :
    (d.parseRun pen slot f x).frame f = none ∧ (d.parseRun pen slot f x).passes = d.passes ∧
      Tab.get (d.parseRun pen slot f x).tally (128 * port + T.PARSE_NO_PROFILE) 0 =
        (Tab.get d.tally (128 * port + T.PARSE_NO_PROFILE) 0 + d.tallyStep port) % 2 ^ 56 ∧
      Tab.get (d.parseRun pen slot f x).tally (128 * port + T.PARSE_DEF_DROP) 0 =
        (Tab.get d.tally (128 * port + T.PARSE_DEF_DROP) 0 + d.tallyStep port) % 2 ^ 56 := by
  subst hport
  have hbeside := parsePort_beside (slotOf_lt x.info.port) (penOf x.info.port)
  have hmode : (d.parseFailed pen x .noProfile).defMode x.info.port = 0 := by
    rw [← hm]
    exact Datapath.defMode_congr ((Datapath.rd_parseStat (hbeside pen).2 _ _ _ _ _ _).trans
      (Datapath.rd_tallyAdd (by decide) (hbeside _).1 _ _))
  have hstep : (d.parseFailed pen x .noProfile).tallyStep x.info.port =
      (d.tallyAdd x.info.port T.PARSE_NO_PROFILE).tallyStep x.info.port :=
    Datapath.tallyStep_congr (Datapath.rd_parseStat (linkCtl_beside (Nat.mod_lt _ (by decide)) _ pen).2 _ _ _ _ _ _)
  obtain ⟨-, -, hpasses, hframe, htally⟩ := Datapath.parseDrop_keeps (d := d.parseFailed pen x .noProfile) (pen := pen) (f := f)
    (by simpa using hx) hp (by simpa using hn) x.info.port
  have hrun : d.parseRun pen slot f x = (d.parseFailed pen x .noProfile).parseDrop pen f x.info.port := by
    simp only [Datapath.parseRun, ho, Datapath.parseDefault, hmode, if_true]
  rw [hrun]
  have htwice : ((d.parseFailed pen x .noProfile).tallyAdd x.info.port T.PARSE_DEF_DROP).tally =
      ((d.tallyAdd x.info.port T.PARSE_NO_PROFILE).tallyAdd x.info.port T.PARSE_DEF_DROP).tally := by
    rw [Datapath.tallyAdd_tally, Datapath.tallyAdd_tally _ _ T.PARSE_DEF_DROP, hstep, Datapath.parseFailed,
      Datapath.parseStat_tally]
  rw [htally, htwice]
  exact ⟨hframe, by simpa using hpasses, d.tallyAdd_both x.info.port (by decide) (by decide)⟩

end

/-! ### The start of a first pass -/

section
variable {d : Datapath} {pen f : Nat} {rest : List Nat} {x : Frame} (hr : d.readyOf pen = f :: rest) (hn : f ∉ rest)
  (hf : d.frame f = some x) (hpen : x.inPen = pen) (ht : x.transit = false) (hp : x.info.pass = 1)
  (hl : isLoop x.info.port = false) (lead slot : Nat)
include hr hf ht hp hl

/-- A profile that runs gives the frame, stamped with the verdict epoch, a pass of its own (R236, R250). -/
theorem Datapath.parseStart_runs {prof sv : Nat} {kv : List Byte} (ho : d.parseOut pen (d.stamped x) = .ok prof kv sv) :
    (d.parseStart lead pen slot).frame f = some (d.stamped x) ∧
      ∃ p, (d.parseStart lead pen slot).passesOf pen = d.passesOf pen ++ [p] ∧ p.fid = f ∧ p.slot = d.slotFor pen slot ∧
        p.profile = prof ∧ p.kv = kv ∧ p.live = d.lar.live ∧ p.failed = false := by
  rw [Datapath.parseStart_firstPass hr hf ht hp hl, Datapath.parseRun, Datapath.parseOut_frameTaken, ho]
  refine ⟨?_, ?_⟩
  · exact (congrArg (Tab.find · f) (Datapath.startPass_frames ..)).trans (Datapath.frameTaken_frame ..)
  · simpa [Datapath.passesOf] using Datapath.startPass_passesOf (d.frameTaken pen (d.slotFor pen slot) f rest (d.stamped x)) pen
      (d.slotFor pen slot) f (d.stamped x) prof kv sv (Datapath.hintOf _ (d.stamped x))

include hn hpen

/-- A parse start takes the earliest ready frame of its pen and leaves the copies (R236). -/
theorem Datapath.parseStart_keeps :
    (d.parseStart lead pen slot).readyOf pen = rest ∧ (d.parseStart lead pen slot).copies = d.copies := by
  rw [Datapath.parseStart_firstPass hr hf ht hp hl]
  simpa using Datapath.parseRun_keeps (d := d.frameTaken pen (d.slotFor pen slot) f rest (d.stamped x))
    (Datapath.frameTaken_frame ..) hpen (by simpa using hn) (d.slotFor pen slot)

/-- Without a profile, and with DEF_MODE 0, the frame leaves, counted in both tallies (R242, R251). -/
theorem Datapath.parseStart_drops (ho : d.parseOut pen (d.stamped x) = .noProfile) (hm : d.defMode x.info.port = 0) :
    (d.parseStart lead pen slot).frame f = none ∧ (d.parseStart lead pen slot).passes = d.passes ∧
      Tab.get (d.parseStart lead pen slot).tally (128 * x.info.port + T.PARSE_NO_PROFILE) 0 =
        (Tab.get d.tally (128 * x.info.port + T.PARSE_NO_PROFILE) 0 + d.tallyStep x.info.port) % 2 ^ 56 ∧
      Tab.get (d.parseStart lead pen slot).tally (128 * x.info.port + T.PARSE_DEF_DROP) 0 =
        (Tab.get d.tally (128 * x.info.port + T.PARSE_DEF_DROP) 0 + d.tallyStep x.info.port) % 2 ^ 56 := by
  have hregs := d.frameTaken_regs pen (d.slotFor pen slot) f rest (d.stamped x)
  have hmode : (d.frameTaken pen (d.slotFor pen slot) f rest (d.stamped x)).defMode x.info.port = 0 := by
    rw [← hm]
    exact Datapath.defMode_congr (by simp only [Datapath.rd, hregs])
  have hstep : (d.frameTaken pen (d.slotFor pen slot) f rest (d.stamped x)).tallyStep x.info.port = d.tallyStep x.info.port :=
    Datapath.tallyStep_congr (by simp only [Datapath.rd, hregs])
  rw [Datapath.parseStart_firstPass hr hf ht hp hl]
  have h := Datapath.parseRun_noProfile (d := d.frameTaken pen (d.slotFor pen slot) f rest (d.stamped x)) (port := x.info.port)
    (Datapath.frameTaken_frame ..) hpen (by simpa using hn) rfl ((Datapath.parseOut_frameTaken ..).trans ho) hmode
    (d.slotFor pen slot)
  rwa [Datapath.frameTaken_passes, Datapath.frameTaken_tally, hstep] at h

end

/-! ### The grazer -/

section
variable {d : Datapath} {pen : Nat} {p : Pass} {rest : List Pass} {x : Frame} {w : Window}

/-- A pen whose oldest pass has a scannable block scans that block (R260). -/
theorem Datapath.grazeScan_head (hp : d.passesOf pen = p :: rest) (hx : d.frame p.fid = some x) (hs : scannable x p = true) :
    d.grazeScan pen = (d.setPasses pen
      ({ p with window := p.window.map (fun w => { w with blocks := w.blocks + 1 }) } :: rest)).pmnEvent 0x0A pen := by
  simp [Datapath.grazeScan, hp, hx, hs, List.range_succ_eq_map, modAt]

/-- An open window closes with the result of the blocks scanned (R259, R262). -/
theorem Datapath.closeWindow_open (hw : p.window = some w) (hx : d.frame p.fid = some x) (hc : w.closed = false) :
    d.closeWindow pen p =
      (d.pmnEvent 0x0B pen (ceilDiv (windowBytes x p w).1.length 64 - w.blocks),
       { p with
          window := some { w with closed := true }
          graze := grazeResult (d.patternsOf pen) (windowBytes x p w).1 (min (64 * w.blocks) (windowBytes x p w).1.length) }) := by
  simp [Datapath.closeWindow, hw, hx, hc]

/-- The deadline of the oldest pass closes its window (R262). -/
theorem Datapath.grazeDeadline_head (hp : d.passesOf pen = p :: rest) (hx : d.frame p.fid = some x) (hw : p.window = some w)
    (hb : (windowBytes x p w).2 = true) (hl : p.lookupsDone = true) :
    d.grazeDeadline pen 0 = (d.closeWindow pen p).1.setPasses pen ((d.closeWindow pen p).2 :: rest) := by
  simp [Datapath.grazeDeadline, hp, hx, hw, hb, hl, modAt]

end

/-! ### Lookups -/

/-- The element of a list that was changed. -/
theorem getElem?_modAt_same {α : Type} (f : α → α) (l : List α) (n : Nat) : (modAt f l n)[n]? = l[n]?.map f := by
  induction l generalizing n with
  | nil => rfl
  | cons a l ih =>
    cases n with
    | zero => rfl
    | succ n => simpa [modAt] using ih n

section
variable {d : Datapath} {pen idx pos : Nat} {p : Pass} {l : Lookup}

/-- A lookup changed in its pass. -/
theorem Datapath.modLookup_lookup (hp : (d.passesOf pen)[idx]? = some p) (hl : p.lookups[pos]? = some l) (f : Lookup → Lookup) :
    ∃ p', ((d.modLookup pen idx pos f).passesOf pen)[idx]? = some p' ∧ p'.lookups[pos]? = some (f l) := by
  refine ⟨{ p with lookups := modAt f p.lookups pos }, ?_, ?_⟩
  · simp [Datapath.modLookup, getElem?_modAt_same, hp]
  · simp [getElem?_modAt_same, hl]

/-- A clock of grants that has passed is counted, and nothing else (R587). -/
theorem Datapath.countHolds_rest (d : Datapath) : d.countHolds.pmnRest = d.pmnRest := by
  unfold Datapath.countHolds
  split <;> rfl

/-- A granted lookup of a pass: it reads what its buckets hold in the copy that the pass sees (R273, R289). -/
def Datapath.granted (d : Datapath) (p : Pass) (l : Lookup) : LookupState :=
  .reading (d.lookup l.table (p.copyOf l.table) l.key).1 (d.lookup l.table (p.copyOf l.table) l.key).2

/-- A lookup that finds every bank free is granted its reads (R274); a table without a geometry has no bucket, and misses. -/
theorem Datapath.grantLookup_free {w : Waiter} (hp : (d.passesOf w.pen)[w.idx]? = some p) (hl : p.lookups[w.pos]? = some l) :
    (Datapath.grantLookup (d, []) w).1.pmnRest =
      (d.modLookup w.pen w.idx w.pos (fun l' => { l' with st := d.granted p l })).pmnRest := by
  cases hg : d.geom l.table with
  | none => simp [Datapath.grantLookup, Datapath.granted, Datapath.lookup, hp, hl, hg]
  | some g => simp [Datapath.grantLookup, Datapath.granted, hp, hl, hg]

/-- A clock of grants with one waiting lookup and an idle engine grants that lookup alone. -/
theorem Datapath.lookupIssue_one {w : Waiter} (hw : d.waiters = [w]) (he : d.lar.eng = none)
    (hp : (d.passesOf w.pen)[w.idx]? = some p) (hl : p.lookups[w.pos]? = some l) (on16 : Bool) :
    (d.lookupIssue on16).pmnRest = (d.modLookup w.pen w.idx w.pos (fun l' => { l' with st := d.granted p l })).pmnRest := by
  have hrest := (Datapath.countHolds_rest _).trans (Datapath.grantLookup_free hp hl)
  have heng : (Datapath.grantLookup (d, []) w).1.countHolds.lar.eng = none :=
    (congrArg (fun z : Datapath => z.lar.eng) hrest :).trans he
  rw [← hrest]
  simp [Datapath.lookupIssue, hw, heng]

/-- A lookup that reads delivers what its buckets gave (R273). -/
theorem Datapath.lookupResult_reading {hit : Bool} {r : List Byte} (hp : (d.passesOf pen)[idx]? = some p)
    (hl : p.lookups[pos]? = some l) (hr : l.st = .reading hit r) :
    (d.lookupResult pen idx pos).pmnRest = (d.modLookup pen idx pos (fun l' => { l' with st := .done hit r })).pmnRest := by
  simp [Datapath.lookupResult, hp, hl, hr]

end

/-! ### The commands -/

theorem exec_parseStart_open {s : State} {pen : Nat} (hq : s.quiet = false) (hfw : s.forwards = true) (hh : s.penHeld pen = false)
    (hg : pen ∉ s.dp.gated) (hb : s.dp.pipeHolds pen = false) (slot : Nat) :
    exec (.parseStart pen slot) s = .next (s.onDp (fun d => d.parseStart s.lead pen slot)) := by
  change execParseStart pen slot s = _
  simp [execParseStart, hq, hfw, hh, hg, hb]

theorem exec_parseStart_shut {s : State} {pen : Nat} (h : s.quiet = true ∨ s.forwards = false ∨ s.penHeld pen = true ∨
    pen ∈ s.dp.gated ∨ s.dp.pipeHolds pen = true) (slot : Nat) : exec (.parseStart pen slot) s = .next s := by
  change execParseStart pen slot s = _
  rcases h with h | h | h | h | h <;> simp [execParseStart, h]

/-- Settles O39: a slot's parse starts a pass or drops its frame, and the grazer and the lookups each change their own pass. -/
theorem parsePasses : Obligations.ParsePasses := by
  unfold Obligations.ParsePasses
  refine ⟨fun s pen slot f rest x hq hfw hh hg hb hr hn hx hpen ht hp hl => ?_, fun s pen slot h => exec_parseStart_shut h slot,
    fun s pen p rest x w hp hx hs hw => ?_, fun s pen p rest x w hp hx hw hc hb hl => ?_, fun s w p l hw hp hl he => ?_,
    fun s pen idx pos p l hit r hp hl hr => ?_⟩
  · refine ⟨_, exec_parseStart_open hq hfw hh hg hb slot, rfl, rfl, ?_⟩
    rw [State.onDp_dp]
    obtain ⟨hready, hcopies⟩ := Datapath.parseStart_keeps hr hn hx hpen ht hp hl s.lead slot
    refine ⟨hcopies, hready, fun prof kv sv hsel hrun => ?_, fun hsel hm => ?_⟩
    · have ho : s.dp.parseOut pen (s.dp.stamped x) = .ok prof kv sv := (Datapath.parseOut_some hsel).trans hrun
      exact Datapath.parseStart_runs hr hx ht hp hl s.lead slot ho
    · exact Datapath.parseStart_drops hr hn hx hpen ht hp hl s.lead slot (Datapath.parseOut_none hsel) hm
  · obtain ⟨hframes, -, hpasses⟩ := Datapath.kept_of_rest (Datapath.pmnEvent_rest (s.dp.setPasses pen
      ({ p with window := p.window.map (fun w => { w with blocks := w.blocks + 1 }) } :: rest)) 0x0A pen 1 false)
    refine ⟨_, rfl, rfl, rfl, ?_⟩
    rw [State.onDp_dp, Datapath.grazeScan_head hp hx hs]
    exact ⟨hframes, (hpasses pen).trans (by simp [hw])⟩
  · refine ⟨_, rfl, rfl, rfl, ?_⟩
    rw [State.onDp_dp, Datapath.grazeDeadline_head hp hx hw hb hl, Datapath.closeWindow_open hw hx hc]
    exact ⟨(Datapath.kept_of_rest (Datapath.pmnEvent_rest ..)).1, Datapath.passesOf_setPasses ..⟩
  · obtain ⟨p', hp', hl'⟩ := Datapath.modLookup_lookup hp hl (fun l' => { l' with st := s.dp.granted p l })
    obtain ⟨hframes, hlar, hpasses⟩ := Datapath.kept_of_rest (Datapath.lookupIssue_one hw he hp hl (s.sh.domOn 16))
    exact ⟨_, p', _, rfl, rfl, rfl, hlar, hframes, (congrArg (·[w.idx]?) (hpasses w.pen)).trans hp', hl', rfl, rfl⟩
  · obtain ⟨p', hp', hl'⟩ := Datapath.modLookup_lookup hp hl (fun l' => { l' with st := .done hit r })
    obtain ⟨hframes, hlar, hpasses⟩ := Datapath.kept_of_rest (Datapath.lookupResult_reading hp hl hr)
    exact ⟨_, p', rfl, rfl, rfl, hlar, hframes, (congrArg (·[idx]?) (hpasses pen)).trans hp', hl'⟩

end Sys2Proof.Machine

/-! ## The larder's command engine (R278, R281 to R286) -/

namespace Sys2Proof.Machine

/-! ### Registers of the engine -/

theorem Datapath.rd_wr_of_apart {f g : RegField} (hfg : f.apart g = true) (d : Datapath) (v : Nat) :
    (d.wr f v).rd g = d.rd g := by
  simp only [RegField.apart, Bool.or_eq_true, Bool.and_eq_true, decide_eq_true_eq] at hfg
  rcases hfg with hne | ⟨⟨hr, hlt⟩, hlo⟩
  · exact Datapath.rd_wr_ne _ _ _ _ _ _ _ _ hne
  · exact Datapath.rd_wr_apart _ _ _ _ _ _ hr hlt hlo

@[simp] theorem Datapath.larEnd_lar (d : Datapath) (code : Nat) (moves : Option Nat) :
    (d.larEnd code moves).lar = { d.lar with eng := none } := by
  unfold Datapath.larEnd
  cases moves <;> dsimp only <;> split <;> rfl

/-- LAR_STAT with the code of a command's end, and its MOVES where it names them (R278). -/
def Datapath.larCoded (d : Datapath) (code : Nat) : Option Nat → Datapath
  | some n => (d.wr F.larStat_CODE code).wr F.larStat_MOVES n
  | none => d.wr F.larStat_CODE code

/-- The bit of LAR_EVT that a command's end sets (R278). -/
def larOutcome (code : Nat) : RegField := if code = LC.ok ∨ code = LC.updated then F.larEvt_DONE else F.larEvt_ERROR

theorem Datapath.larEnd_regs (d : Datapath) (code : Nat) (moves : Option Nat) :
    (d.larEnd code moves).regs = ((d.larCoded code moves).wr (larOutcome code) 1).regs := by
  unfold Datapath.larEnd larOutcome
  by_cases h : code = LC.ok ∨ code = LC.updated
  · cases moves <;> simp [h, Datapath.larCoded]
  · cases moves <;> simp [h, Datapath.larCoded]

theorem Datapath.rd_larEnd_eq (d : Datapath) (code : Nat) (moves : Option Nat) (g : RegField) (i j : Nat) :
    (d.larEnd code moves).rd g i j = ((d.larCoded code moves).wr (larOutcome code) 1).rd g i j := by
  unfold Datapath.rd
  rw [Datapath.larEnd_regs]

theorem larOutcome_reg (code : Nat) : (larOutcome code).reg = .larEvt := by
  unfold larOutcome
  split <;> rfl

/-- LAR_STAT.CODE takes the code (R278). -/
theorem Datapath.rd_larEnd_code (d : Datapath) {code : Nat} (hc : code < 256) (moves : Option Nat) :
    (d.larEnd code moves).rd F.larStat_CODE = code := by
  have hcode : (d.wr F.larStat_CODE code).rd F.larStat_CODE = code :=
    (d.rd_wr_same F.larStat_CODE 0 0 code (by decide)).trans (Nat.mod_eq_of_lt hc)
  rw [Datapath.rd_larEnd_eq, Datapath.rd_wr_ne _ _ _ _ _ _ _ _ (by rw [larOutcome_reg]; decide)]
  cases moves with
  | none => exact hcode
  | some n => exact (Datapath.rd_wr_of_apart (by decide) _ n).trans hcode

/-- DONE is set for OK and UPDATED (R278). -/
theorem Datapath.rd_larEnd_done (d : Datapath) {code : Nat} (h : code = LC.ok ∨ code = LC.updated) (moves : Option Nat) :
    (d.larEnd code moves).rd F.larEvt_DONE = 1 := by
  rw [Datapath.rd_larEnd_eq, larOutcome, if_pos h]
  exact Datapath.rd_wr_same _ _ _ _ _ (by decide)

/-- ERROR is set for any other code (R278). -/
theorem Datapath.rd_larEnd_error (d : Datapath) {code : Nat} (h : LC.updated < code) (moves : Option Nat) :
    (d.larEnd code moves).rd F.larEvt_ERROR = 1 := by
  have hn : ¬ (code = LC.ok ∨ code = LC.updated) := by
    unfold LC.updated at h
    unfold LC.ok LC.updated
    omega
  rw [Datapath.rd_larEnd_eq, larOutcome, if_neg hn]
  exact Datapath.rd_wr_same _ _ _ _ _ (by decide)

/-- A command's end reaches LAR_STAT and LAR_EVT alone. -/
theorem Datapath.rd_larEnd_ne {g : RegField} {i j : Nat} (hs : g.reg.addr i j ≠ Reg.larStat.addr 0 0)
    (he : g.reg.addr i j ≠ Reg.larEvt.addr 0 0) (d : Datapath) (code : Nat) (moves : Option Nat) :
    (d.larEnd code moves).rd g i j = d.rd g i j := by
  rw [Datapath.rd_larEnd_eq, Datapath.rd_wr_ne _ _ _ _ _ _ _ _ (by rw [larOutcome_reg]; exact he)]
  cases moves with
  | none => exact Datapath.rd_wr_ne _ _ _ _ _ _ _ _ hs
  | some n => exact (Datapath.rd_wr_ne _ _ _ _ _ _ _ _ hs).trans (Datapath.rd_wr_ne _ _ _ _ _ _ _ _ hs)

@[simp] theorem Datapath.setLoc_lar (d : Datapath) (b k i : Nat) : (d.setLoc b k i).lar = d.lar := rfl

/-- LAR_LOC names the place. -/
theorem Datapath.rd_setLoc (d : Datapath) (b k i : Nat) : (d.setLoc b k i).rd F.larLoc_BANK = b % 2 ^ 8 ∧
    (d.setLoc b k i).rd F.larLoc_BUCKET = k % 2 ^ 10 ∧ (d.setLoc b k i).rd F.larLoc_SLOT = i % 2 ^ 2 := by
  refine ⟨?_, ?_, ?_⟩
  · exact (Datapath.rd_wr_of_apart (by decide) _ _).trans
      ((Datapath.rd_wr_of_apart (by decide) _ _).trans (Datapath.rd_wr_same _ _ _ _ _ (by decide)))
  · exact (Datapath.rd_wr_of_apart (by decide) _ _).trans (Datapath.rd_wr_same _ _ _ _ _ (by decide))
  · exact Datapath.rd_wr_same _ _ _ _ _ (by decide)

theorem Datapath.rd_setLoc_ne {g : RegField} {i j : Nat} (h : g.reg.addr i j ≠ Reg.larLoc.addr 0 0) (d : Datapath)
    (b k n : Nat) : (d.setLoc b k n).rd g i j = d.rd g i j := by
  have hbank := fun (e : Datapath) v => e.rd_wr_ne F.larLoc_BANK g 0 0 i j v h
  have hbucket := fun (e : Datapath) v => e.rd_wr_ne F.larLoc_BUCKET g 0 0 i j v h
  have hslot := fun (e : Datapath) v => e.rd_wr_ne F.larLoc_SLOT g 0 0 i j v h
  simp only [Datapath.setLoc, hbank, hbucket, hslot]

theorem loop_succ {σ : Type} (n : Nat) (f : Nat → σ → σ) (s : σ) : loop (n + 1) f s = f n (loop n f s) := by
  simp [loop, List.range_succ]

/-- A loop that writes a field of each of the first n registers of a row leaves each with its own value. -/
theorem Datapath.rd_loop_wr {f : RegField} (hf : f.hi < 32) (hinj : ∀ i j, i ≠ j → f.reg.addr i 0 ≠ f.reg.addr j 0)
    (v : Nat → Nat) (d : Datapath) {n i : Nat} (hi : i < n) :
    (loop n (fun w e => e.wr f (v w) w) d).rd f i = v i % 2 ^ (f.hi + 1 - f.lo) := by
  induction n with
  | zero => omega
  | succ n ih =>
    rw [loop_succ]
    by_cases h : i = n
    · rw [h]
      exact Datapath.rd_wr_same _ _ _ _ _ hf
    · rw [Datapath.rd_wr_ne _ _ _ _ _ _ _ _ (hinj i n h)]
      exact ih (by omega)

@[simp] theorem Datapath.setLarStage_lar (d : Datapath) (bs : List Byte) : (d.setLarStage bs).lar = d.lar :=
  loop_keeps (fun e : Datapath => e.lar = d.lar) _ (fun _ _ h => h) 16 d rfl

theorem leNat_lt (bs : List Byte) : leNat bs < 256 ^ bs.length := by
  induction bs with
  | nil => simp [leNat]
  | cons b bs ih =>
    have hb : b.toNat < 256 := b.isLt
    rw [leNat, List.length_cons, Nat.pow_succ]
    omega

@[simp] theorem length_slice (bs : List Byte) (i n : Nat) : (slice bs i n).length = n := by
  simp only [slice, List.length_append, List.length_replicate, List.length_take, List.length_drop]
  omega

theorem le_lt (bs : List Byte) (i n : Nat) : le bs i n < 256 ^ n := by
  simpa [le] using leNat_lt (slice bs i n)

/-- LAR_STAGE_w holds bytes 4w to 4w + 3 (R279). -/
theorem Datapath.rd_setLarStage (d : Datapath) (bs : List Byte) {w : Nat} (hw : w < 16) :
    (d.setLarStage bs).rd F.larStage_DATA w = le bs (4 * w) 4 := by
  have hinj : ∀ i j, i ≠ j → F.larStage_DATA.reg.addr i 0 ≠ F.larStage_DATA.reg.addr j 0 := by
    intro i j h
    simp only [F.larStage_DATA, Reg.addr, Reg.geom]
    omega
  exact (Datapath.rd_loop_wr (by decide) hinj (fun w => le bs (4 * w) 4) d hw).trans (Nat.mod_eq_of_lt (le_lt bs (4 * w) 4))

/-- LAR_STAGE lies beside the registers that a command's end reaches. -/
theorem larStage_beside (w : Nat) : F.larStage_DATA.reg.addr w 0 ≠ Reg.larStat.addr 0 0 ∧
    F.larStage_DATA.reg.addr w 0 ≠ Reg.larEvt.addr 0 0 ∧ F.larStage_DATA.reg.addr w 0 ≠ Reg.larLoc.addr 0 0 := by
  simp only [F.larStage_DATA, Reg.addr, Reg.geom]
  omega

theorem Datapath.setCands_eq (d : Datapath) (t x : Nat) (g : Geom) (key : List Byte) : d.setCands t x g key =
    (((d.wr F.larCand_BANK (d.candidate t x g key 0).1 0).wr F.larCand_BUCKET (d.candidate t x g key 0).2 0).wr
      F.larCand_BANK (d.candidate t x g key 1).1 1).wr F.larCand_BUCKET (d.candidate t x g key 1).2 1 := rfl

/-- LAR_CAND_c names candidate c (R277). -/
theorem Datapath.rd_setCands (d : Datapath) (t x : Nat) (g : Geom) (key : List Byte) {c : Nat} (hc : c < 2) :
    (d.setCands t x g key).rd F.larCand_BANK c = (d.candidate t x g key c).1 % 2 ^ 8 ∧
    (d.setCands t x g key).rd F.larCand_BUCKET c = (d.candidate t x g key c).2 % 2 ^ 10 := by
  have hother : ∀ (e : Datapath) (f g : RegField) (v : Nat), f.reg = .larCand → g.reg = .larCand →
      (e.wr f v 1).rd g 0 = e.rd g 0 := fun e f g v hf hg => e.rd_wr_ne f g 1 0 0 0 v (by rw [hf, hg]; decide)
  have hbank : ∀ (e : Datapath) (i v : Nat), (e.wr F.larCand_BUCKET v i).rd F.larCand_BANK i = e.rd F.larCand_BANK i :=
    fun e i v => e.rd_wr_apart _ _ _ _ _ rfl (by decide) (by decide)
  rw [Datapath.setCands_eq]
  obtain rfl | rfl : c = 0 ∨ c = 1 := by omega
  · rw [hother _ _ _ _ rfl rfl, hother _ _ _ _ rfl rfl, hother _ _ _ _ rfl rfl, hother _ _ _ _ rfl rfl, hbank]
    exact ⟨Datapath.rd_wr_same _ _ _ _ _ (by decide), Datapath.rd_wr_same _ _ _ _ _ (by decide)⟩
  · rw [hbank]
    exact ⟨Datapath.rd_wr_same _ _ _ _ _ (by decide), Datapath.rd_wr_same _ _ _ _ _ (by decide)⟩

/-! ### What a command's effect depends on -/

section
variable {d e : Datapath} (hl : e.lar = d.lar)
include hl

theorem Datapath.candidate_congr (t x : Nat) (g : Geom) (key : List Byte) (c : Nat) :
    e.candidate t x g key c = d.candidate t x g key c := by simp only [Datapath.candidate, Datapath.seed, hl]

theorem Datapath.insertWalk_congr (t x : Nat) (g : Geom) (c0 : Nat × Nat) (n step : Nat) (cur : Nat × Nat)
    (path : List (Nat × Nat × Nat)) : e.insertWalk t x g c0 n step cur path = d.insertWalk t x g c0 n step cur path := by
  induction n generalizing step cur path with
  | zero => rfl
  | succ n ih => simp only [Datapath.insertWalk, Datapath.candidate_congr hl, hl, ih]

/-- The plan of an insertion rests on the larder and on MAX_MOVES alone (R285). -/
theorem Datapath.insertPlan_congr (hm : e.maxMoves = d.maxMoves) (t x : Nat) (g : Geom) (key : List Byte) :
    e.insertPlan t x g key = d.insertPlan t x g key := by
  simp only [Datapath.insertPlan, Datapath.candidate_congr hl, Datapath.insertWalk_congr hl, hl, hm]

/-- A lookup rests on the larder and the geometry alone (R273). -/
theorem Datapath.lookup_congr (hg : e.larderGeom = d.larderGeom) (t x : Nat) (key : List Byte) :
    e.lookup t x key = d.lookup t x key := by
  simp only [Datapath.lookup, Datapath.geom, Datapath.candidate_congr hl, hl, hg]

theorem Datapath.larClearKey_congr (x : Nat) (g : Geom) (key : List Byte) (q : Nat × Nat) :
    (e.larClearKey x g key q).lar = (d.larClearKey x g key q).lar := by simp only [Datapath.larClearKey, hl]

end

/-- The datapath as a command's effect finds it: the banks that the command writes noted for the loader (R288), and the candidates
of its key in LAR_CAND, but for a command at LAR_LOC (R277). -/
def Datapath.larReady (d : Datapath) (e : LarCmd) (g : Geom) : Datapath :=
  let d := (d.larWrites e).foldl (fun d b => d.meet .engineWrite b) d
  if e.op = 4 || e.op = 5 then d else d.setCands e.table e.copy g (slice e.stage 4 g.kw)

/-- The effect of a command on the datapath that it finds (R282). -/
def Datapath.larEffect (d : Datapath) (e : LarCmd) (g : Geom) : Datapath :=
  match e.op with
  | 1 => d.larInsert e.table e.copy g e.stage
  | 2 => d.larDelete e.table e.copy g e.stage
  | 3 => d.larFind e.table e.copy g e.stage
  | 4 => d.larWriteAt e.copy g e.stage (fieldOf e.loc 23 16) (fieldOf e.loc 11 2) (fieldOf e.loc 1 0)
  | 5 => (d.setLarStage (g.entry (d.lar.bucket (fieldOf e.loc 23 16) (g.phys e.copy (fieldOf e.loc 11 2)))
      (fieldOf e.loc 1 0))).larEnd LC.ok none
  | _ => d.larEnd LC.ok none

/-- The notes for the loader change nothing but the notes. -/
theorem Datapath.meets_frame (l : List Nat) (d : Datapath) :
    { l.foldl (fun d b => d.meet .engineWrite b) d with together := d.together } = d :=
  foldl_keeps (fun z : Datapath => { z with together := d.together } = d)
    (fun d b => Datapath.meet d .engineWrite b) (fun _ _ h => h) l d rfl

theorem Datapath.larReady_frame (d : Datapath) (e : LarCmd) (g : Geom) :
    { d.larReady e g with regs := d.regs, together := d.together } = d := by
  have hnoted := Datapath.meets_frame (d.larWrites e) d
  unfold Datapath.larReady
  dsimp only
  split
  · exact congrArg (fun z : Datapath => { z with regs := d.regs }) hnoted
  · exact congrArg (fun z : Datapath => { z with regs := d.regs }) hnoted

@[simp] theorem Datapath.larReady_lar (d : Datapath) (e : LarCmd) (g : Geom) : (d.larReady e g).lar = d.lar :=
  (congrArg Datapath.lar (d.larReady_frame e g) :)

@[simp] theorem Datapath.larReady_geom (d : Datapath) (e : LarCmd) (g : Geom) : (d.larReady e g).larderGeom = d.larderGeom :=
  (congrArg Datapath.larderGeom (d.larReady_frame e g) :)

/-- The notes for the loader leave the registers. -/
theorem Datapath.rd_meets (l : List Nat) (d : Datapath) (f : RegField) (i j : Nat) :
    (l.foldl (fun d b => d.meet .engineWrite b) d).rd f i j = d.rd f i j :=
  (congrArg (fun z : Datapath => z.rd f i j) (Datapath.meets_frame l d) :)

/-- LAR_CAND lies beside the setting of MAX_MOVES. -/
@[simp] theorem Datapath.larReady_maxMoves (d : Datapath) (e : LarCmd) (g : Geom) : (d.larReady e g).maxMoves = d.maxMoves := by
  have hcand : ∀ z : Datapath, (z.setCands e.table e.copy g (slice e.stage 4 g.kw)).rd F.larEngCfg_MAX_MOVES =
      z.rd F.larEngCfg_MAX_MOVES := by
    intro z
    rw [Datapath.setCands_eq]
    simp only [Datapath.rd_wr_ne _ F.larCand_BANK F.larEngCfg_MAX_MOVES 0 0 0 0 _ (by decide),
      Datapath.rd_wr_ne _ F.larCand_BANK F.larEngCfg_MAX_MOVES 1 0 0 0 _ (by decide),
      Datapath.rd_wr_ne _ F.larCand_BUCKET F.larEngCfg_MAX_MOVES 0 0 0 0 _ (by decide),
      Datapath.rd_wr_ne _ F.larCand_BUCKET F.larEngCfg_MAX_MOVES 1 0 0 0 _ (by decide)]
  have hrd : (d.larReady e g).rd F.larEngCfg_MAX_MOVES = d.rd F.larEngCfg_MAX_MOVES := by
    unfold Datapath.larReady
    dsimp only
    split
    · exact Datapath.rd_meets ..
    · exact (hcand _).trans (Datapath.rd_meets ..)
  unfold Datapath.maxMoves
  rw [hrd]

@[simp] theorem Datapath.larReady_candidate (d : Datapath) (e : LarCmd) (g : Geom) (t x : Nat) (h : Geom) (key : List Byte)
    (c : Nat) : (d.larReady e g).candidate t x h key c = d.candidate t x h key c :=
  Datapath.candidate_congr (d.larReady_lar e g) ..

@[simp] theorem Datapath.larReady_insertPlan (d : Datapath) (e : LarCmd) (g : Geom) (t x : Nat) (h : Geom) (key : List Byte) :
    (d.larReady e g).insertPlan t x h key = d.insertPlan t x h key :=
  Datapath.insertPlan_congr (d.larReady_lar e g) (d.larReady_maxMoves e g) ..

@[simp] theorem Datapath.larReady_lookup (d : Datapath) (e : LarCmd) (g : Geom) (t x : Nat) (key : List Byte) :
    (d.larReady e g).lookup t x key = d.lookup t x key :=
  Datapath.lookup_congr (d.larReady_lar e g) (d.larReady_geom e g) ..

/-! ### The effect of each command -/

section
variable (d : Datapath) (t x : Nat) (g : Geom) (stage : List Byte)

/-- INSERT of a key that has an entry updates it (R285). -/
theorem Datapath.larInsert_update {b k i : Nat} (h : d.insertPlan t x g (slice stage 4 g.kw) = .update b k i) :
    d.larInsert t x g stage = (({ d with lar := d.lar.putEntry g b (g.phys x k) i (entryWith true (slice stage 0 g.es)) } :
      Datapath).setLoc b k i).larEnd LC.updated (some 0) := by
  unfold Datapath.larInsert
  dsimp only
  rw [h]

/-- INSERT of a key with a free slot in a candidate bucket takes the slot (R285). -/
theorem Datapath.larInsert_place {b k i : Nat} (h : d.insertPlan t x g (slice stage 4 g.kw) = .place b k i) :
    d.larInsert t x g stage = (({ d with lar := d.lar.putEntry g b (g.phys x k) i (entryWith true (slice stage 0 g.es)) } :
      Datapath).setLoc b k i).larEnd LC.ok (some 0) := by
  unfold Datapath.larInsert
  dsimp only
  rw [h]

/-- INSERT that finds no room changes no table (R285). -/
theorem Datapath.larInsert_fail {n : Nat} (h : d.insertPlan t x g (slice stage 4 g.kw) = .fail n) :
    d.larInsert t x g stage = d.larEnd LC.noRoom (some n) := by
  unfold Datapath.larInsert
  dsimp only
  rw [h]

theorem Datapath.larInsert_eng : (d.larInsert t x g stage).lar.eng = none := by
  unfold Datapath.larInsert
  dsimp only
  split <;> rw [Datapath.larEnd_lar]

theorem Datapath.larDelete_found (h : (d.lookup t x (slice stage 4 g.kw)).1 = true) : d.larDelete t x g stage =
    ((d.larClearKey x g (slice stage 4 g.kw) (d.candidate t x g (slice stage 4 g.kw) 0)).larClearKey x g (slice stage 4 g.kw)
      (d.candidate t x g (slice stage 4 g.kw) 1)).larEnd LC.ok none := if_pos h

theorem Datapath.larDelete_missing (h : (d.lookup t x (slice stage 4 g.kw)).1 = false) :
    d.larDelete t x g stage = d.larEnd LC.notFound none := if_neg (by simp [h])

theorem Datapath.larDelete_eng : (d.larDelete t x g stage).lar.eng = none := by
  cases h : (d.lookup t x (slice stage 4 g.kw)).1 with
  | true => rw [d.larDelete_found t x g stage h, Datapath.larEnd_lar]
  | false => rw [d.larDelete_missing t x g stage h, Datapath.larEnd_lar]

/-- FIND of a key in its first candidate bucket loads the entry (R282). -/
theorem Datapath.larFind_first {q : Nat × Nat} {k : Nat} (hq : d.candidate t x g (slice stage 4 g.kw) 0 = q)
    (hk : g.matchSlot (d.lar.bucket q.1 (g.phys x q.2)) (slice stage 4 g.kw) = some k) :
    d.larFind t x g stage =
      ((d.setLarStage (g.entry (d.lar.bucket q.1 (g.phys x q.2)) k)).setLoc q.1 q.2 k).larEnd LC.ok none := by
  subst hq
  simp [Datapath.larFind, hk]

theorem Datapath.larFind_eng : (d.larFind t x g stage).lar.eng = none := by
  unfold Datapath.larFind
  dsimp only
  split <;> rw [Datapath.larEnd_lar]

theorem Datapath.larWriteAt_eng (b k i : Nat) : (d.larWriteAt x g stage b k i).lar.eng = none := by
  unfold Datapath.larWriteAt
  dsimp only
  rw [Datapath.larEnd_lar]

/-- WRITE_AT stores a staged entry with VALID 1 as a valid entry (R284). -/
theorem Datapath.larWriteAt_valid (h : entryValid (slice stage 0 g.es) = true) (b k i : Nat) : d.larWriteAt x g stage b k i =
    ({ d with lar := d.lar.putEntry g b (g.phys x k) i (entryWith true (slice stage 0 g.es)) } : Datapath).larEnd LC.ok none := by
  simp [Datapath.larWriteAt, h]

end

/-- Every command that ends frees the engine. -/
theorem Datapath.larEffect_eng (d : Datapath) (e : LarCmd) (g : Geom) : (d.larEffect e g).lar.eng = none := by
  unfold Datapath.larEffect
  split
  · exact Datapath.larInsert_eng ..
  · exact Datapath.larDelete_eng ..
  · exact Datapath.larFind_eng ..
  · exact Datapath.larWriteAt_eng ..
  · rw [Datapath.larEnd_lar]
  · rw [Datapath.larEnd_lar]

/-! ### LAR_COMMAND_END -/

section
variable {d : Datapath} {e : LarCmd} {on16 : Bool} (he : d.lar.eng = some e)
include he

/-- A test of R282 ends the command with its code. -/
theorem Datapath.larCommandEnd_test {c : Nat} (ht : d.larTest e on16 = some c) :
    d.larCommandEnd on16 = d.larEnd c (if e.op = 1 then some 0 else none) := by
  simp only [Datapath.larCommandEnd, he, ht]

/-- A command goes on while it waits for its copy or has reads to issue (R274, R290). -/
theorem Datapath.larCommandEnd_waits (ht : d.larTest e on16 = none)
    (hw : d.larWaits e = true ∨ e.reads < (d.larReads e).length) : d.larCommandEnd on16 = d := by
  have hgo : (d.larWaits e || decide (e.reads < (d.larReads e).length)) = true := by simpa using hw
  simp only [Datapath.larCommandEnd, he, ht]
  cases d.geom e.table with
  | none => rfl
  | some g => exact if_pos hgo

/-- A command that waits for nothing and has issued its reads takes effect. -/
theorem Datapath.larCommandEnd_runs {g : Geom} (ht : d.larTest e on16 = none) (hg : d.geom e.table = some g)
    (hw : d.larWaits e = false) (hr : (d.larReads e).length ≤ e.reads) :
    d.larCommandEnd on16 = (d.larReady e g).larEffect e g := by
  have hgo : ¬ (d.larWaits e || decide (e.reads < (d.larReads e).length)) = true := by simpa [hw] using hr
  simp only [Datapath.larCommandEnd, he, ht, hg]
  exact if_neg hgo

end

/-- The codes of the tests of R282. -/
theorem Datapath.larTest_code {d : Datapath} {e : LarCmd} {on16 : Bool} {c : Nat} (h : d.larTest e on16 = some c) :
    LC.updated < c ∧ c < 256 := by
  unfold Datapath.larTest at h
  split at h
  · cases h; decide
  · split at h
    · cases h; decide
    · split at h
      · cases h; decide
      · split at h
        · cases h; decide
        · split at h
          · cases h; decide
          · cases h

theorem Datapath.larTest_domainOff (d : Datapath) {e : LarCmd} (h1 : 1 ≤ e.op) (h6 : e.op < 6) :
    d.larTest e false = some LC.domainOff := by
  have hop : ¬ (e.op = 0 ∨ 6 < e.op) := by omega
  have hne : e.op ≠ 6 := by omega
  simp [Datapath.larTest, hop, hne]

/-! ### LAR_CMD (R281, R283) -/

/-- A number that fits a register word is what a write of all its bytes carries. -/
theorem toNat_all_bytes {n : Nat} (hn : n < 2 ^ 32) : (BitVec.ofNat 32 n).toNat &&& beMask 0xF = n := by
  rw [BitVec.toNat_ofNat, Nat.mod_eq_of_lt hn, show beMask 0xF = 2 ^ 32 - 1 by decide, Nat.and_two_pow_sub_one_eq_mod,
    Nat.mod_eq_of_lt hn]

/-- The fields of a command word (R277). -/
theorem larWord_fields {op : Nat} (hop : op < 16) (table copy : Nat) :
    fieldOf (copy % 2 * 2 ^ 12 + table % 16 * 2 ^ 8 + op) 3 0 = op ∧
    fieldOf (copy % 2 * 2 ^ 12 + table % 16 * 2 ^ 8 + op) 11 8 = table % 16 ∧
    fieldOf (copy % 2 * 2 ^ 12 + table % 16 * 2 ^ 8 + op) 12 12 = copy % 2 := by
  simp only [fieldOf, Nat.shiftRight_eq_div_pow]
  omega

section
variable {s : State} {src : Src} (hr : s.reaches src (Reg.larCmd.addr 0 0) true = true) {op : Nat} (hop : op < 16)
  (table copy : Nat)
include hr hop

/-- An idle engine accepts a command. -/
theorem State.larCommand_idle (he : s.dp.lar.eng = none) : s.larCommand src op table copy =
    (s.onDp (fun d => d.larAccept (copy % 2 * 2 ^ 12 + table % 16 * 2 ^ 8 + op))).performed src (Reg.larCmd.addr 0 0) true 0 := by
  have hw : (BitVec.ofNat 32 (copy % 2 * 2 ^ 12 + table % 16 * 2 ^ 8 + op)).toNat &&& beMask 0xF = _ :=
    toNat_all_bytes (by omega)
  simp only [State.larCommand, hr, if_true, Datapath.writeLarCmd, hw, Datapath.larBusy, he]
  rfl

/-- A busy engine holds the write. -/
theorem State.larCommand_busy (he : s.dp.lar.eng ≠ none) : s.larCommand src op table copy =
    s.onDp (fun d => { d with lar := { d.lar with
      cmdWait := d.lar.cmdWait ++ [(src, copy % 2 * 2 ^ 12 + table % 16 * 2 ^ 8 + op)] } }) := by
  have hw : (BitVec.ofNat 32 (copy % 2 * 2 ^ 12 + table % 16 * 2 ^ 8 + op)).toNat &&& beMask 0xF = _ :=
    toNat_all_bytes (by omega)
  have hb : s.dp.lar.eng.isSome = true := Option.isSome_iff_ne_none.2 he
  simp only [State.larCommand, hr, if_true, Datapath.writeLarCmd, hw, Datapath.larBusy, hb]
  rfl

end

/-- The engine of the housekeeping DMA moves only while a channel runs. -/
theorem State.hdmPump_none {s : State} (h : s.dp.hdm.run = none) : s.hdmPump = s := by
  unfold State.hdmPump
  rw [h]

/-- An idle engine takes the write held first (R283). -/
theorem exec_larCommandAccept {s : State} {src : Src} {w : Nat} {rest : List (Src × Nat)}
    (hw : s.dp.lar.cmdWait = (src, w) :: rest) (he : s.dp.lar.eng = none) (hrun : s.dp.hdm.run = none) :
    exec .larCommandAccept s = .next ((s.onDp (fun d =>
      ({ d with lar := { d.lar with cmdWait := rest } } : Datapath).larAccept w)).performed src (Reg.larCmd.addr 0 0) true 0) := by
  have htake : s.larHeldAccept = (s.onDp (fun d =>
      ({ d with lar := { d.lar with cmdWait := rest } } : Datapath).larAccept w)).performed src (Reg.larCmd.addr 0 0) true 0 := by
    simp [State.larHeldAccept, hw, Datapath.larBusy, he]
  change Host.Outcome.next s.larHeldAccept.hdmPump = _
  rw [htake, State.hdmPump_none (by rw [State.performed_dp]; exact hrun)]

/-- A held write that has waited for its limit is answered with BUSY and ERROR (R283). -/
theorem exec_larCommandTimeout {s : State} {m : RPort} {w : Nat} (h : (Src.port m, w) ∈ s.dp.lar.cmdWait) :
    exec (.larCommandTimeout m) s = .next ((s.onDp (fun d =>
      (({ d with lar := { d.lar with cmdWait := d.lar.cmdWait.filter (fun x => x.1 ≠ Src.port m) } } : Datapath).wr
        F.larStat_CODE LC.busy).wr F.larEvt_ERROR 1)).performed (.port m) (Reg.larCmd.addr 0 0) true 0) := by
  have hany : s.dp.lar.cmdWait.any (fun x => x.1 = Src.port m) = true := List.any_eq_true.2 ⟨_, h, decide_eq_true rfl⟩
  change execLarCommandTimeout m s = _
  simp only [execLarCommandTimeout, hany, if_true]

theorem exec_larCommandEnd {s : State} {u : Datapath} (h : s.dp.larCommandEnd (s.sh.domOn 16) = u) :
    exec .larCommandEnd s = .next (s.onDp (fun _ => u)) := by
  subst h
  rfl

/-- LAR_COMMAND_END of a command that a test of R282 is against. -/
theorem exec_larCommandEnd_test {s : State} {e : LarCmd} {c : Nat} (he : s.dp.lar.eng = some e)
    (ht : s.dp.larTest e (s.sh.domOn 16) = some c) :
    ∃ t, exec .larCommandEnd s = .next t ∧ t.sh = s.sh ∧ t.pending = s.pending ∧
      t.dp.lar = { s.dp.lar with eng := none } ∧ t.dp.rd F.larStat_CODE = c ∧ t.dp.rd F.larEvt_ERROR = 1 := by
  obtain ⟨hlo, hhi⟩ := Datapath.larTest_code ht
  exact ⟨_, exec_larCommandEnd (Datapath.larCommandEnd_test he ht), rfl, rfl, Datapath.larEnd_lar ..,
    Datapath.rd_larEnd_code _ hhi _, Datapath.rd_larEnd_error _ hlo _⟩

/-! ### The registers after a command's end -/

/-- LAR_LOC lies beside the registers that a command's end reaches. -/
theorem larLoc_beside {f : RegField} (hf : f.reg = .larLoc) :
    f.reg.addr 0 0 ≠ Reg.larStat.addr 0 0 ∧ f.reg.addr 0 0 ≠ Reg.larEvt.addr 0 0 := by rw [hf]; decide

/-- A command that ends at a place leaves LAR_LOC at it. -/
theorem Datapath.rd_larEnd_loc (d : Datapath) (b k i code : Nat) (moves : Option Nat) :
    ((d.setLoc b k i).larEnd code moves).rd F.larLoc_BANK = b % 2 ^ 8 ∧
    ((d.setLoc b k i).larEnd code moves).rd F.larLoc_BUCKET = k % 2 ^ 10 ∧
    ((d.setLoc b k i).larEnd code moves).rd F.larLoc_SLOT = i % 2 ^ 2 := by
  have hkeep : ∀ f : RegField, f.reg = .larLoc → ((d.setLoc b k i).larEnd code moves).rd f = (d.setLoc b k i).rd f :=
    fun f hf => Datapath.rd_larEnd_ne (larLoc_beside hf).1 (larLoc_beside hf).2 ..
  rw [hkeep _ rfl, hkeep _ rfl, hkeep _ rfl]
  exact d.rd_setLoc b k i

/-- A command's end leaves LAR_STAGE. -/
theorem Datapath.rd_larEnd_stage (d : Datapath) (code : Nat) (moves : Option Nat) (w : Nat) :
    (d.larEnd code moves).rd F.larStage_DATA w = d.rd F.larStage_DATA w := by
  obtain ⟨hstat, hevt, -⟩ := larStage_beside w
  exact Datapath.rd_larEnd_ne hstat hevt ..

/-- LAR_CAND lies beside the registers that a command's end reaches. -/
theorem larCand_beside {c : Nat} (hc : c < 2) :
    Reg.larCand.addr c 0 ≠ Reg.larStat.addr 0 0 ∧ Reg.larCand.addr c 0 ≠ Reg.larEvt.addr 0 0 := by
  simp only [Reg.addr, Reg.geom]
  omega

/-- A command that hashes its key finds the candidates in LAR_CAND (R277). -/
theorem Datapath.rd_larReady_cand (d : Datapath) {e : LarCmd} (h4 : e.op ≠ 4) (h5 : e.op ≠ 5) (g : Geom) {c : Nat}
    (hc : c < 2) :
    (d.larReady e g).rd F.larCand_BANK c = (d.candidate e.table e.copy g (slice e.stage 4 g.kw) c).1 % 2 ^ 8 ∧
    (d.larReady e g).rd F.larCand_BUCKET c = (d.candidate e.table e.copy g (slice e.stage 4 g.kw) c).2 % 2 ^ 10 := by
  have hnoted : ∀ t x h key n, ((d.larWrites e).foldl (fun d b => d.meet .engineWrite b) d).candidate t x h key n =
      d.candidate t x h key n := Datapath.candidate_congr (congrArg Datapath.lar (Datapath.meets_frame (d.larWrites e) d) :)
  have hset := Datapath.rd_setCands ((d.larWrites e).foldl (fun d b => d.meet .engineWrite b) d) e.table e.copy g
    (slice e.stage 4 g.kw) hc
  rw [hnoted] at hset
  simpa [Datapath.larReady, h4, h5] using hset

section
variable {d : Datapath} {e : LarCmd} {g : Geom}

theorem Datapath.larEffect_insert (h : e.op = 1) : d.larEffect e g = d.larInsert e.table e.copy g e.stage := by
  simp only [Datapath.larEffect, h]

theorem Datapath.larEffect_delete (h : e.op = 2) : d.larEffect e g = d.larDelete e.table e.copy g e.stage := by
  simp only [Datapath.larEffect, h]

theorem Datapath.larEffect_find (h : e.op = 3) : d.larEffect e g = d.larFind e.table e.copy g e.stage := by
  simp only [Datapath.larEffect, h]

theorem Datapath.larEffect_writeAt (h : e.op = 4) : d.larEffect e g =
    d.larWriteAt e.copy g e.stage (fieldOf e.loc 23 16) (fieldOf e.loc 11 2) (fieldOf e.loc 1 0) := by
  simp only [Datapath.larEffect, h]

/-- WRITE_AT ends with OK whatever it stores (R284). -/
theorem Datapath.larWriteAt_ends (d : Datapath) (x : Nat) (g : Geom) (stage : List Byte) (b k i : Nat) :
    ∃ l, d.larWriteAt x g stage b k i = ({ d with lar := l } : Datapath).larEnd LC.ok none := ⟨_, rfl⟩

theorem Datapath.larEffect_readAt (h : e.op = 5) : d.larEffect e g =
    (d.setLarStage (g.entry (d.lar.bucket (fieldOf e.loc 23 16) (g.phys e.copy (fieldOf e.loc 11 2)))
      (fieldOf e.loc 1 0))).larEnd LC.ok none := by
  simp only [Datapath.larEffect, h]

theorem Datapath.larEffect_hash (h : e.op = 6) : d.larEffect e g = d.larEnd LC.ok none := by
  simp only [Datapath.larEffect, h]

end

/-! ### What each command leaves when it ends (R282, R284, R285) -/

section
variable (d : Datapath) {e : LarCmd} (g : Geom)

theorem Datapath.larReady_insert_update (ho : e.op = 1) {b k i : Nat}
    (hp : d.insertPlan e.table e.copy g (slice e.stage 4 g.kw) = .update b k i) :
    ((d.larReady e g).larEffect e g).lar =
      { d.lar.putEntry g b (g.phys e.copy k) i (entryWith true (slice e.stage 0 g.es)) with eng := none } ∧
    ((d.larReady e g).larEffect e g).rd F.larStat_CODE = LC.updated ∧
    ((d.larReady e g).larEffect e g).rd F.larEvt_DONE = 1 := by
  rw [Datapath.larEffect_insert ho, Datapath.larInsert_update _ _ _ _ _ ((d.larReady_insertPlan ..).trans hp)]
  exact ⟨by simp, Datapath.rd_larEnd_code _ (by decide) _, Datapath.rd_larEnd_done _ (.inr rfl) _⟩

theorem Datapath.larReady_insert_fail (ho : e.op = 1) {n : Nat}
    (hp : d.insertPlan e.table e.copy g (slice e.stage 4 g.kw) = .fail n) :
    ((d.larReady e g).larEffect e g).lar = { d.lar with eng := none } ∧
    ((d.larReady e g).larEffect e g).rd F.larStat_CODE = LC.noRoom ∧
    ((d.larReady e g).larEffect e g).rd F.larEvt_ERROR = 1 := by
  rw [Datapath.larEffect_insert ho, Datapath.larInsert_fail _ _ _ _ _ ((d.larReady_insertPlan ..).trans hp)]
  exact ⟨by simp, Datapath.rd_larEnd_code _ (by decide) _, Datapath.rd_larEnd_error _ (by decide) _⟩

theorem Datapath.larReady_insert_place (ho : e.op = 1) {b k i : Nat}
    (hp : d.insertPlan e.table e.copy g (slice e.stage 4 g.kw) = .place b k i) :
    ((d.larReady e g).larEffect e g).lar =
      { d.lar.putEntry g b (g.phys e.copy k) i (entryWith true (slice e.stage 0 g.es)) with eng := none } ∧
    ((d.larReady e g).larEffect e g).rd F.larStat_CODE = LC.ok ∧
    ((d.larReady e g).larEffect e g).rd F.larEvt_DONE = 1 ∧
    ((d.larReady e g).larEffect e g).rd F.larLoc_BANK = b % 2 ^ 8 ∧
    ((d.larReady e g).larEffect e g).rd F.larLoc_BUCKET = k % 2 ^ 10 ∧
    ((d.larReady e g).larEffect e g).rd F.larLoc_SLOT = i % 2 ^ 2 := by
  rw [Datapath.larEffect_insert ho, Datapath.larInsert_place _ _ _ _ _ ((d.larReady_insertPlan ..).trans hp)]
  exact ⟨by simp, Datapath.rd_larEnd_code _ (by decide) _, Datapath.rd_larEnd_done _ (.inl rfl) _, Datapath.rd_larEnd_loc ..⟩

theorem Datapath.larReady_delete_found (ho : e.op = 2) (hl : (d.lookup e.table e.copy (slice e.stage 4 g.kw)).1 = true) :
    ((d.larReady e g).larEffect e g).lar =
      { ((d.larClearKey e.copy g (slice e.stage 4 g.kw) (d.candidate e.table e.copy g (slice e.stage 4 g.kw) 0)).larClearKey
          e.copy g (slice e.stage 4 g.kw) (d.candidate e.table e.copy g (slice e.stage 4 g.kw) 1)).lar with eng := none } ∧
    ((d.larReady e g).larEffect e g).rd F.larStat_CODE = LC.ok ∧
    ((d.larReady e g).larEffect e g).rd F.larEvt_DONE = 1 := by
  rw [Datapath.larEffect_delete ho, Datapath.larDelete_found _ _ _ _ _ ((congrArg Prod.fst (d.larReady_lookup ..)).trans hl),
    Datapath.larReady_candidate, Datapath.larReady_candidate]
  refine ⟨?_, Datapath.rd_larEnd_code _ (by decide) _, Datapath.rd_larEnd_done _ (.inl rfl) _⟩
  rw [Datapath.larEnd_lar, Datapath.larClearKey_congr (Datapath.larClearKey_congr (d.larReady_lar e g) ..)]

theorem Datapath.larReady_delete_missing (ho : e.op = 2) (hl : (d.lookup e.table e.copy (slice e.stage 4 g.kw)).1 = false) :
    ((d.larReady e g).larEffect e g).lar = { d.lar with eng := none } ∧
    ((d.larReady e g).larEffect e g).rd F.larStat_CODE = LC.notFound ∧
    ((d.larReady e g).larEffect e g).rd F.larEvt_ERROR = 1 := by
  rw [Datapath.larEffect_delete ho, Datapath.larDelete_missing _ _ _ _ _ ((congrArg Prod.fst (d.larReady_lookup ..)).trans hl)]
  exact ⟨by simp, Datapath.rd_larEnd_code _ (by decide) _, Datapath.rd_larEnd_error _ (by decide) _⟩

theorem Datapath.larReady_find (ho : e.op = 3) {q : Nat × Nat} {k : Nat}
    (hq : d.candidate e.table e.copy g (slice e.stage 4 g.kw) 0 = q)
    (hk : g.matchSlot (d.lar.bucket q.1 (g.phys e.copy q.2)) (slice e.stage 4 g.kw) = some k) :
    ((d.larReady e g).larEffect e g).lar = { d.lar with eng := none } ∧
    ((d.larReady e g).larEffect e g).rd F.larStat_CODE = LC.ok ∧
    ((d.larReady e g).larEffect e g).rd F.larEvt_DONE = 1 ∧
    ∀ w, w < 16 → ((d.larReady e g).larEffect e g).rd F.larStage_DATA w =
      le (g.entry (d.lar.bucket q.1 (g.phys e.copy q.2)) k) (4 * w) 4 := by
  rw [Datapath.larEffect_find ho, Datapath.larFind_first _ _ _ _ _ ((d.larReady_candidate ..).trans hq)
    (by rw [Datapath.larReady_lar]; exact hk), Datapath.larReady_lar]
  refine ⟨?_, Datapath.rd_larEnd_code _ (by decide) _, Datapath.rd_larEnd_done _ (.inl rfl) _, fun w hw => ?_⟩
  · rw [Datapath.larEnd_lar, Datapath.setLoc_lar, Datapath.setLarStage_lar, Datapath.larReady_lar]
  · obtain ⟨-, -, hloc⟩ := larStage_beside w
    rw [Datapath.rd_larEnd_stage, Datapath.rd_setLoc_ne hloc, Datapath.rd_setLarStage _ _ hw]

theorem Datapath.larReady_writeAt (ho : e.op = 4) :
    ((d.larReady e g).larEffect e g).rd F.larStat_CODE = LC.ok ∧
    ((d.larReady e g).larEffect e g).rd F.larEvt_DONE = 1 ∧
    (entryValid (slice e.stage 0 g.es) = true → ((d.larReady e g).larEffect e g).lar =
      { d.lar.putEntry g (fieldOf e.loc 23 16) (g.phys e.copy (fieldOf e.loc 11 2)) (fieldOf e.loc 1 0)
          (entryWith true (slice e.stage 0 g.es)) with eng := none }) := by
  rw [Datapath.larEffect_writeAt ho]
  obtain ⟨l, hend⟩ := (d.larReady e g).larWriteAt_ends e.copy g e.stage (fieldOf e.loc 23 16) (fieldOf e.loc 11 2)
    (fieldOf e.loc 1 0)
  refine ⟨?_, ?_, fun hv => ?_⟩
  · rw [hend]
    exact Datapath.rd_larEnd_code _ (by decide) _
  · rw [hend]
    exact Datapath.rd_larEnd_done _ (.inl rfl) _
  · rw [Datapath.larWriteAt_valid _ _ _ _ hv, Datapath.larEnd_lar, Datapath.larReady_lar]

theorem Datapath.larReady_readAt (ho : e.op = 5) :
    ((d.larReady e g).larEffect e g).rd F.larStat_CODE = LC.ok ∧
    ((d.larReady e g).larEffect e g).rd F.larEvt_DONE = 1 ∧
    ((d.larReady e g).larEffect e g).lar.buckets = d.lar.buckets ∧
    ∀ w, w < 16 → ((d.larReady e g).larEffect e g).rd F.larStage_DATA w =
      le (g.entry (d.lar.bucket (fieldOf e.loc 23 16) (g.phys e.copy (fieldOf e.loc 11 2))) (fieldOf e.loc 1 0)) (4 * w) 4 := by
  rw [Datapath.larEffect_readAt ho, Datapath.larReady_lar]
  refine ⟨Datapath.rd_larEnd_code _ (by decide) _, Datapath.rd_larEnd_done _ (.inl rfl) _, by simp, fun w hw => ?_⟩
  rw [Datapath.rd_larEnd_stage, Datapath.rd_setLarStage _ _ hw]

theorem Datapath.larReady_hash (ho : e.op = 6) {c : Nat} (hc : c < 2) :
    ((d.larReady e g).larEffect e g).rd F.larCand_BANK c =
      (d.candidate e.table e.copy g (slice e.stage 4 g.kw) c).1 % 2 ^ 8 ∧
    ((d.larReady e g).larEffect e g).rd F.larCand_BUCKET c =
      (d.candidate e.table e.copy g (slice e.stage 4 g.kw) c).2 % 2 ^ 10 := by
  obtain ⟨hstat, hevt⟩ := larCand_beside hc
  rw [Datapath.larEffect_hash ho, Datapath.rd_larEnd_ne hstat hevt, Datapath.rd_larEnd_ne hstat hevt]
  exact d.rd_larReady_cand (by omega) (by omega) g hc

end

/-- Settles O42: a command that no test ends has its effect on the datapath with the writes noted and the candidates loaded, which
leaves what the effect depends on. -/
theorem larderEngine : Obligations.LarderEngine := by
  unfold Obligations.LarderEngine
  refine ⟨fun s src op table copy c hr hc => ?_, fun s src w rest hw he hrun => ?_, fun s m w hw => ?_,
    fun s e g he ht hg hw hreads => ?_, fun s e c he ht => exec_larCommandEnd_test he ht,
    fun s e he ht hw => exec_larCommandEnd (Datapath.larCommandEnd_waits he ht hw), fun s e he hoff h1 h6 => ?_⟩
  · obtain ⟨hop, hx⟩ : op < 16 ∧ exec c s = .next (s.larCommand src op table copy) := by
      simp only [List.mem_cons, Prod.mk.injEq, List.not_mem_nil, or_false] at hc
      rcases hc with ⟨rfl, rfl⟩ | ⟨rfl, rfl⟩ | ⟨rfl, rfl⟩ | ⟨rfl, rfl⟩ | ⟨rfl, rfl⟩ | ⟨rfl, rfl⟩ <;>
        exact ⟨by decide, rfl⟩
    obtain ⟨hfop, hftable, hfcopy⟩ := larWord_fields hop table copy
    by_cases he : s.dp.lar.eng = none
    · rw [State.larCommand_idle hr hop table copy he] at hx
      refine ⟨_, hx, State.performed_pending .., State.performed_regs .., ?_, fun _ => ?_, fun h => absurd he h⟩
      · rw [State.performed_dp]
        rfl
      · rw [State.performed_dp, State.onDp_dp, Datapath.larAccept, hfop, hftable, hfcopy]
    · rw [State.larCommand_busy hr hop table copy he] at hx
      exact ⟨_, hx, rfl, rfl, rfl, fun h => absurd h he, fun _ => ⟨rfl, rfl⟩⟩
  · refine ⟨_, exec_larCommandAccept hw he hrun, State.performed_pending .., ?_, ?_⟩ <;> rw [State.performed_dp] <;> rfl
  · refine ⟨_, exec_larCommandTimeout hw, State.performed_pending .., ?_, ?_, ?_, ?_⟩ <;> rw [State.performed_dp]
    · rfl
    · rfl
    · exact (Datapath.rd_wr_of_apart (by decide) _ _).trans (Datapath.rd_wr_same _ _ _ _ _ (by decide))
    · exact Datapath.rd_wr_same _ _ _ _ _ (by decide)
  · refine ⟨_, exec_larCommandEnd (Datapath.larCommandEnd_runs he ht hg hw hreads), rfl, rfl, Datapath.larEffect_eng ..,
      fun ho b k i hp => s.dp.larReady_insert_update g ho hp, fun ho n hp => s.dp.larReady_insert_fail g ho hp,
      fun ho b k i hp => s.dp.larReady_insert_place g ho hp, fun ho c0 c1 h0 h1 hl => ?_,
      fun ho hl => s.dp.larReady_delete_missing g ho hl, fun ho q k hq hk => s.dp.larReady_find g ho hq hk, fun ho => ?_,
      fun ho c hc => s.dp.larReady_hash g ho hc⟩
    · rw [← h0, ← h1]
      exact s.dp.larReady_delete_found g ho hl
    · rcases ho with ho | ho
      · obtain ⟨hcode, hdone, hstored⟩ := s.dp.larReady_writeAt g ho
        exact ⟨hcode, hdone, fun h => absurd (ho.symm.trans h) (by decide), fun _ hv => hstored hv⟩
      · obtain ⟨hcode, hdone, hkept, hstage⟩ := s.dp.larReady_readAt g ho
        exact ⟨hcode, hdone, fun _ => ⟨hkept, hstage⟩, fun h => absurd (ho.symm.trans h) (by decide)⟩
  · exact exec_larCommandEnd_test he (by rw [hoff]; exact Datapath.larTest_domainOff _ h1 h6)

end Sys2Proof.Machine

/-! ## The attic loader beside the housekeeping DMA (R290, R555) -/

namespace Sys2Proof.Machine

/-- A settling copy holds the loader, and ATTIC_WRITE then only lets the housekeeping DMA go on: the state stays where no channel runs,
and need not stay where one does. -/
theorem exec_atticWrite_settling {s : State} {r : AtticRec} {rest : List AtticRec} (hf : s.dp.lar.fifo = r :: rest)
    (hw : s.dp.lar.pushWait = []) (hs : s.dp.settlingCopy r.table r.copy = true) :
    exec .atticWrite s = .next s.hdmPump := by
  have hheld : s.dp.atticWrite = s.dp := by simp [Datapath.atticWrite, hf, hs]
  have hstep : s.atticStep = s := by simp [State.atticStep, State.onDp, hheld, hw]
  change Host.Outcome.next s.atticStep.hdmPump = _
  rw [hstep]

/-- The only action open to the engine of the housekeeping DMA is taken where the engine may go on. -/
theorem State.hdmPump_once {s t : State} {r : HRun} (hr : s.dp.hdm.run = some r) (ht : s.hdmMove = some t)
    (hend : t.hdmMove = none) : s.hdmPump = t := by
  unfold State.hdmPump
  rw [hr]
  simp only [State.hdmPumpN, ht, hend]

/-- A channel of the housekeeping DMA whose engine is held, or not, by a register write issued last. -/
def heldRun (held : Bool) : HRun := { id := 1, ch := 0, trig := 0, held := held }

/-- A settling copy holds the loader's head record, and the engine of the housekeeping DMA, if it stands held, does so by a write
that no unit holds any more. The reset of PD17 leaves that behind: it empties the larder's held writes and not the engine, which
lies in PD19 (R596). -/
def settlingBesideDma (held : Bool) : State :=
  { dp := {
      lar := { settling := [(1, [7])], fifo := [⟨1, 0, 1, 0, []⟩] }
      hdm := { run := some (heldRun held) } } }

/-- Refutes O43: the clause that a settling copy holds the loader has ATTIC_WRITE leave the whole state, but ATTIC_WRITE lets the
housekeeping DMA go on whatever the loader does, and the clause, unlike the one before it, does not ask that no channel runs. In
the counterexample the engine takes its only action: it finds that its write is no longer held. -/
theorem not_atticLiveAndEpoch : ¬ Obligations.AtticLiveAndEpoch := by
  unfold Obligations.AtticLiveAndEpoch
  rintro ⟨-, -, -, hsettling, -⟩
  have hstays : exec .atticWrite (settlingBesideDma true) = .next (settlingBesideDma true) :=
    hsettling (settlingBesideDma true) ⟨1, 0, 1, 0, []⟩ [] rfl rfl rfl
  have hmoves : exec .atticWrite (settlingBesideDma true) = .next (settlingBesideDma false) := by
    rw [exec_atticWrite_settling (s := settlingBesideDma true) (r := ⟨1, 0, 1, 0, []⟩) (rest := []) rfl rfl rfl,
      State.hdmPump_once (r := heldRun true) (t := settlingBesideDma false) rfl rfl rfl]
  have hsame : settlingBesideDma true = settlingBesideDma false := Host.Outcome.next.inj (hstays.symm.trans hmoves)
  have hrun : heldRun true = heldRun false := Option.some.inj (congrArg (fun s : State => s.dp.hdm.run) hsame :)
  exact absurd (congrArg HRun.held hrun) (by decide)

end Sys2Proof.Machine

/-! ## The ends of copies, flush and the registers of the queues (R333, R353, R357 to R359, R362) -/

namespace Sys2Proof.Machine

/-! ### What the release of a frame and the end of a copy leave alone -/

@[simp] theorem Datapath.xoffEval_frames (d : Datapath) (p c : Nat) (a : Bool) : (d.xoffEval p c a).frames = d.frames :=
  (congrArg Datapath.frames (d.xoffEval_frame p c a) :)
@[simp] theorem Datapath.xoffEval_copies (d : Datapath) (p c : Nat) (a : Bool) : (d.xoffEval p c a).copies = d.copies :=
  (congrArg Datapath.copies (d.xoffEval_frame p c a) :)
@[simp] theorem Datapath.xoffEval_tally (d : Datapath) (p c : Nat) (a : Bool) : (d.xoffEval p c a).tally = d.tally :=
  (congrArg Datapath.tally (d.xoffEval_frame p c a) :)
@[simp] theorem Datapath.xoffEval_cel (d : Datapath) (p c : Nat) (a : Bool) : (d.xoffEval p c a).cel = d.cel :=
  (congrArg Datapath.cel (d.xoffEval_frame p c a) :)

/-- The release of a frame's storage leaves the copies, the tallies and the flush engine's place (R333, R359). -/
theorem Datapath.releaseFrame_keeps (d : Datapath) (f : Nat) :
    (d.releaseFrame f).copies = d.copies ∧ (d.releaseFrame f).tally = d.tally ∧
      (d.releaseFrame f).cel.flushPtr = d.cel.flushPtr := by
  unfold Datapath.releaseFrame
  split
  · exact ⟨rfl, rfl, rfl⟩
  · next x _ =>
    dsimp only
    refine ⟨by simp, by simp, ?_⟩
    rw [Datapath.xoffEval_cel, Datapath.setReady_cel]
    have hsectors := foldl_keeps (fun k : Cellar => k.flushPtr = d.cel.flushPtr)
      (fun k l => if l % 2 = 1 then k.releaseSector (l / 2) else k) (fun k l h => by split <;> exact h) x.locs d.cel rfl
    split <;> exact hsectors

theorem Datapath.queueEmptied_frame (d : Datapath) (q : Nat) : { d.queueEmptied q with drv := d.drv } = d := by
  unfold Datapath.queueEmptied
  split <;> rfl

/-- Of the cellar, the queues that hold no copy lose the SW reason (R358). -/
theorem Datapath.swDone_cel (d : Datapath) :
    d.swDone.cel = { d.cel with sw := d.cel.sw.filter (fun q => !(d.classQueue q).isEmpty) } := by
  unfold Datapath.swDone
  dsimp only
  split <;> rfl

/-- Beside the cellar, the end of the SW reason reaches the register file alone (R359). -/
theorem Datapath.swDone_frame (d : Datapath) : { d.swDone with regs := d.regs, cel := d.cel } = d := by
  unfold Datapath.swDone
  dsimp only
  split <;> rfl

@[simp] theorem Datapath.swDone_copies (d : Datapath) : d.swDone.copies = d.copies :=
  (congrArg Datapath.copies d.swDone_frame :)
@[simp] theorem Datapath.swDone_frames (d : Datapath) : d.swDone.frames = d.frames :=
  (congrArg Datapath.frames d.swDone_frame :)
@[simp] theorem Datapath.swDone_tally (d : Datapath) : d.swDone.tally = d.tally :=
  (congrArg Datapath.tally d.swDone_frame :)

/-- The end of a copy takes its number off the list of copies, and no other, whether or not its frame ends with it; the tallies and
the flush engine's place stay (R294, R359). -/
theorem Datapath.endCopy_keeps {d : Datapath} {cid : Nat} {c : Copy} (hc : d.copy cid = some c) :
    (d.endCopy cid).copies = Tab.erase d.copies cid ∧ (d.endCopy cid).tally = d.tally ∧
      (d.endCopy cid).cel.flushPtr = d.cel.flushPtr := by
  unfold Datapath.endCopy
  rw [hc]
  dsimp only
  generalize hd : ({ d with
    copies := Tab.erase d.copies cid
    cel := { d.cel with wait := d.cel.wait.filter (fun e => e.1 / 1024 ≠ cid) } } : Datapath) = d₁
  obtain ⟨hcopies, htally, hptr⟩ : d₁.copies = Tab.erase d.copies cid ∧ d₁.tally = d.tally ∧
      d₁.cel.flushPtr = d.cel.flushPtr := by subst hd; exact ⟨rfl, rfl, rfl⟩
  generalize hreleased : (if (d₁.copiesOf c.fid).isEmpty then d₁.releaseFrame c.fid else d₁) = d₂
  obtain ⟨hcopies₂, htally₂, hptr₂⟩ : d₂.copies = d₁.copies ∧ d₂.tally = d₁.tally ∧ d₂.cel.flushPtr = d₁.cel.flushPtr := by
    rw [← hreleased]
    split
    · exact d₁.releaseFrame_keeps c.fid
    · exact ⟨rfl, rfl, rfl⟩
  have hemptied := d₂.queueEmptied_frame c.q
  rw [Datapath.swDone_copies, Datapath.swDone_tally, Datapath.swDone_cel]
  exact ⟨(congrArg Datapath.copies hemptied :).trans (hcopies₂.trans hcopies),
    (congrArg Datapath.tally hemptied :).trans (htally₂.trans htally),
    (congrArg (fun z : Datapath => z.cel.flushPtr) hemptied :).trans (hptr₂.trans hptr)⟩

/-- A key that a table lists is found, though not necessarily with each value listed at it. -/
theorem Tab.find_of_mem {α : Type} {t : Tab α} {k : Nat} {v : α} (h : (k, v) ∈ t) : ∃ w, Tab.find t k = some w := by
  induction t with
  | nil => cases h
  | cons e t ih =>
    rcases List.mem_cons.1 h with rfl | h
    · exact ⟨v, by simp [Tab.find]⟩
    · by_cases he : e.1 = k
      · exact ⟨e.2, by simp [Tab.find, he]⟩
      · simpa [Tab.find, he] using ih h

/-- A copy of the list ends after a tally of its port has counted it: no other copy changes (R294). -/
theorem Datapath.endCopy_counted {d : Datapath} {cid : Nat} {c : Copy} (h : (cid, c) ∈ d.copies) (p k : Nat) :
    ((d.tallyAdd p k).endCopy cid).copy cid = none ∧
      (∀ j, j ≠ cid → ((d.tallyAdd p k).endCopy cid).copy j = d.copy j) ∧
      ((d.tallyAdd p k).endCopy cid).cel.flushPtr = d.cel.flushPtr ∧
      Tab.get ((d.tallyAdd p k).endCopy cid).tally (128 * p + k) 0 =
        (Tab.get d.tally (128 * p + k) 0 + d.tallyStep p) % 2 ^ 56 := by
  obtain ⟨w, hw⟩ := Tab.find_of_mem h
  have hcopy : (d.tallyAdd p k).copy cid = some w := by rw [Datapath.copy, Datapath.tallyAdd_copies, hw]
  obtain ⟨hcopies, htally, hptr⟩ := Datapath.endCopy_keeps hcopy
  rw [Datapath.tallyAdd_copies] at hcopies
  refine ⟨?_, fun j hj => ?_, ?_, ?_⟩
  · rw [Datapath.copy, hcopies, Tab.find_erase_same]
  · rw [Datapath.copy, hcopies, Tab.find_erase_ne _ hj, Datapath.copy]
  · rw [hptr, Datapath.tallyAdd_cel]
  · rw [htally, Datapath.tallyAdd_tally, Tab.get_put_same, Nat.one_mul]

/-! ### Bad copies (R357) -/

theorem Datapath.badDiscard_bad {d : Datapath} {q cid : Nat} {c : Copy} {x : Frame}
    (hhead : ((d.classQueue q).filter (fun c => c.2.rxq.isNone)).find? (fun c => c.2.notLeft) = some (cid, c))
    (hx : d.frame c.fid = some x) (hended : x.ended = true) (hbad : x.rxErr ≠ RC.none) :
    d.badDiscard false q = (d.tallyAdd (portOfQ c.q) T.BAD_DISCARD).endCopy cid := by
  simp only [Datapath.badDiscard, Bool.false_eq_true, if_false]
  rw [hhead]
  simp [hx, hended, hbad]

theorem Datapath.mem_classQueue {d : Datapath} {q : Nat} {y : Nat × Copy} (h : y ∈ d.classQueue q) : y ∈ d.copies :=
  (List.mem_filter.1 h).1

/-! ### Flush (R358, R359) -/

/-- The class queues of a port that a flush command names. -/
def flushed (port tcs : Nat) : List Nat := ((List.range 8).filter (fun c => tcs.testBit c)).map (fun c => 8 * port + c)

theorem mem_flushed {port tcs q : Nat} :
    q ∈ flushed port tcs ↔ ∃ c, c < 8 ∧ tcs.testBit c = true ∧ q = 8 * port + c := by
  simp only [flushed, List.mem_map, List.mem_filter, List.mem_range]
  exact ⟨fun ⟨c, ⟨hc, ht⟩, hq⟩ => ⟨c, hc, ht, hq.symm⟩, fun ⟨c, hc, ht, hq⟩ => ⟨c, ⟨hc, ht⟩, hq.symm⟩⟩

/-- A command that names a class names a queue. -/
theorem flushed_ne_nil (port : Nat) {tcs : Nat} (h : tcs < 256) (h0 : tcs ≠ 0) : flushed port tcs ≠ [] := by
  obtain ⟨c, hc⟩ := Nat.exists_testBit_of_ne_zero h0
  have hlt : c < 8 := Nat.lt_of_not_le fun hge => by
    rw [Nat.testBit_lt_two_pow (Nat.lt_of_lt_of_le h (Nat.pow_le_pow_right (by decide) hge : 2 ^ 8 ≤ 2 ^ c))] at hc
    cases hc
  exact List.ne_nil_of_mem (mem_flushed.2 ⟨c, hlt, hc, rfl⟩)

/-- The datapath whose SW reason holds for the queues that a flush command names too. -/
def Datapath.flushing (d : Datapath) (port tcs : Nat) : Datapath :=
  { d with cel := { d.cel with sw := d.cel.sw ++ (flushed port tcs).filter (fun q => !d.cel.sw.contains q) } }

theorem Datapath.flushCmd_port (d : Datapath) {port : Nat} (h : port < 520) (tcs : Nat) :
    d.flushCmd port tcs = (d.flushing port tcs).swDone := by
  rw [Datapath.flushCmd, if_neg (by omega)]
  rfl

theorem Datapath.mem_flushing_sw (d : Datapath) (port tcs q : Nat) :
    q ∈ (d.flushing port tcs).cel.sw ↔ q ∈ d.cel.sw ∨ q ∈ flushed port tcs := by
  by_cases h : q ∈ d.cel.sw <;> simp [Datapath.flushing, h]

theorem Datapath.mem_swDone_sw (d : Datapath) (q : Nat) : q ∈ d.swDone.cel.sw ↔ d.classQueue q ≠ [] ∧ q ∈ d.cel.sw := by
  rw [Datapath.swDone_cel, List.mem_filter, and_comm]
  simp

theorem Datapath.rd_swDone_done {d : Datapath} (hall : ∀ q, q ∈ d.cel.sw → d.classQueue q = []) (hsome : d.cel.sw ≠ []) :
    d.swDone.rd F.celEvt_FLUSH_DONE = 1 := by
  have hnone : d.cel.sw.filter (fun q => !(d.classQueue q).isEmpty) = [] :=
    List.filter_eq_nil_iff.2 fun q hq => by simp [hall q hq]
  unfold Datapath.swDone
  simp only [hnone, hsome, ne_eq, not_false_eq_true, decide_true, Bool.and_true, if_true]
  exact Datapath.rd_wr_same _ _ _ _ _ (by decide)

/-- The only copy that the flush engine may take is the one it takes, wherever its round robin stands (R359). -/
theorem Datapath.flushRemove_one {d : Datapath} {cid : Nat} {c : Copy}
    (h : d.copies.filter (fun c => d.flushable c.2) = [(cid, c)]) :
    d.flushRemove =
      (({ d with cel := { d.cel with flushPtr := c.q + 1 } } : Datapath).tallyAdd (portOfQ c.q) T.Q_DROP_FLUSH).endCopy cid := by
  unfold Datapath.flushRemove
  rw [h]
  by_cases hq : d.cel.flushPtr ≤ c.q <;> simp [hq]

/-! ### Registers (R353, R362) -/

/-- A table made from a list of keys. -/
theorem Tab.find_map_key {α : Type} (g : Nat → α) {l : List Nat} {k : Nat} (h : k ∈ l) :
    Tab.find (l.map (fun p => (p, g p))) k = some (g k) := by
  induction l with
  | nil => cases h
  | cons p l ih =>
    by_cases hp : p = k
    · simp [Tab.find, hp]
    · simpa [Tab.find, hp] using ih ((List.mem_cons.1 h).resolve_left (Ne.symm hp))

theorem Datapath.rngOf_writeRedSeed (d : Datapath) (be : BitVec 4) (data : Word) {p : Nat} (hp : p < 40) :
    (d.writeRedSeed be data).rngOf p = if (d.writeRedSeed be data).rd F.celRedSeed_SEED ^^^ p = 0 then 1
      else (d.writeRedSeed be data).rd F.celRedSeed_SEED ^^^ p := by
  have hfind := Tab.find_map_key (fun p => if (d.writeRedSeed be data).rd F.celRedSeed_SEED ^^^ p = 0 then 1
    else (d.writeRedSeed be data).rd F.celRedSeed_SEED ^^^ p) (List.mem_range.2 hp)
  exact congrArg (fun v => v.getD (0xACE1 ^^^ p)) hfind

/-- CEL_EVT lies below the class queues' registers. -/
theorem celQCfg_beside (n : Nat) : Reg.celQCfg.addr n 0 ≠ Reg.celEvt.addr 0 0 := by
  simp only [Reg.addr, Reg.geom]
  omega

/-- A MIN that the reserve does not hold stays, beside the other fields of the write, which act (R362). -/
theorem Datapath.writeQCfg_refused {d e : Datapath} {n : Nat} {be : BitVec 4} {data : Word}
    (he : e = d.writeReg .celQCfg false be data n) (hup : d.rd F.celQCfg_MIN n < e.rd F.celQCfg_MIN n)
    (hover : d.minReserve < e.minSum) :
    d.writeQCfg n be data = (e.wr F.celQCfg_MIN (d.rd F.celQCfg_MIN n) n).wr F.celEvt_MIN_REFUSED 1 := by
  subst he
  simp only [Datapath.writeQCfg, hup, decide_true, Bool.true_and, decide_eq_true_eq]
  exact if_pos hover

theorem Datapath.writeQCfg_taken {d e : Datapath} {n : Nat} {be : BitVec 4} {data : Word}
    (he : e = d.writeReg .celQCfg false be data n)
    (hok : e.rd F.celQCfg_MIN n ≤ d.rd F.celQCfg_MIN n ∨ e.minSum ≤ d.minReserve) : d.writeQCfg n be data = e := by
  subst he
  refine if_neg ?_
  simp only [Bool.and_eq_true, decide_eq_true_eq, not_and, Nat.not_lt]
  exact fun hup => hok.resolve_left (Nat.not_le.2 hup)

theorem Datapath.writeQCfg_frame (d : Datapath) (n : Nat) (be : BitVec 4) (data : Word) :
    { d.writeQCfg n be data with regs := d.regs } = d := by
  unfold Datapath.writeQCfg
  dsimp only
  split <;> rfl

/-- What the refusal of a MIN leaves in the register of the queue and in CEL_EVT (R362). -/
theorem Datapath.rd_minRefused (d e : Datapath) (n : Nat) :
    ((e.wr F.celQCfg_MIN (d.rd F.celQCfg_MIN n) n).wr F.celEvt_MIN_REFUSED 1).rd F.celQCfg_MIN n = d.rd F.celQCfg_MIN n ∧
    ((e.wr F.celQCfg_MIN (d.rd F.celQCfg_MIN n) n).wr F.celEvt_MIN_REFUSED 1).rd F.celEvt_MIN_REFUSED = 1 ∧
    ((e.wr F.celQCfg_MIN (d.rd F.celQCfg_MIN n) n).wr F.celEvt_MIN_REFUSED 1).rd F.celQCfg_POOL n = e.rd F.celQCfg_POOL n := by
  refine ⟨?_, Datapath.rd_wr_same _ _ _ _ _ (by decide), ?_⟩
  · rw [Datapath.rd_wr_ne _ _ _ _ _ _ _ _ (celQCfg_beside n), Datapath.rd_wr_same _ _ _ _ _ (by decide)]
    exact Nat.mod_eq_of_lt (d.rd_lt F.celQCfg_MIN n 0)
  · rw [Datapath.rd_wr_ne _ _ _ _ _ _ _ _ (celQCfg_beside n)]
    exact Datapath.rd_wr_apart _ _ _ _ _ _ rfl (by decide) (by decide)

/-! ### The commands -/

theorem exec_badCopyDiscard_forwarding {s : State} (h : s.sh.seq.state = .run ∨ s.sh.seq.state = .trim) (rx : Bool) (q : Nat) :
    exec (.badCopyDiscard rx q) s = .next (s.onDp (fun d => d.badDiscard rx q)) := by
  change Host.Outcome.next _ = _
  rw [if_pos (by simpa using h)]

/-- A row of the command table that writes a datapath register where it reaches the register: beside its effect on the datapath it
only completes the access. -/
theorem State.regWrite_onDp {s : State} {src : Src} {a : Nat} (h : s.reaches src a true = true) (g : Datapath → Datapath) :
    (s.regWrite src a (fun s => s.onDp g)).sh.regs = s.sh.regs ∧ (s.regWrite src a (fun s => s.onDp g)).pending = s.pending ∧
      (s.regWrite src a (fun s => s.onDp g)).dp = g s.dp := by
  rw [State.regWrite_reaches _ _ _ _ h]
  exact ⟨State.performed_regs .., State.performed_pending .., State.performed_dp ..⟩

/-- Settles O45: a copy that ends leaves the list of copies by its number, after its tally; the SW reason stays for the queues that
hold a copy; and the two register writes act on their register and on what it loads. -/
theorem discardsAndQueues : Obligations.DiscardsAndQueues := by
  unfold Obligations.DiscardsAndQueues
  refine ⟨fun s q cid c x hstate hhead hx hended hbad => ?_, fun s src port tcs hr hport htcs => ?_, fun s cid c hone => ?_,
    fun s src be data hr => ?_, fun s src n be data d hr hd => ?_⟩
  · have hmem : (cid, c) ∈ s.dp.copies :=
      Datapath.mem_classQueue (List.mem_filter.1 (List.mem_of_find?_eq_some hhead)).1
    obtain ⟨hgone, hothers, -, htally⟩ := Datapath.endCopy_counted hmem (portOfQ c.q) T.BAD_DISCARD
    rw [← Datapath.badDiscard_bad hhead hx hended hbad] at hgone hothers htally
    exact ⟨_, exec_badCopyDiscard_forwarding hstate false q, rfl, rfl, hgone, hothers, htally⟩
  · obtain ⟨hregs, hpending, hdp⟩ := State.regWrite_onDp hr (fun d => d.flushCmd (port % 1024) (tcs % 256))
    simp only [Nat.mod_eq_of_lt (show port < 1024 by omega), Nat.mod_eq_of_lt htcs] at hregs hpending hdp
    rw [Datapath.flushCmd_port _ hport] at hdp
    refine ⟨s.regWrite src (Reg.celFlushCmd.addr 0 0) (fun s => s.onDp (fun d => d.flushCmd port tcs)), ?_, hregs, hpending,
      ?_, ?_, fun q => ?_, fun hempty hsw htcs0 => ?_⟩
    · change Host.Outcome.next _ = _
      rw [Nat.mod_eq_of_lt (show port < 1024 by omega), Nat.mod_eq_of_lt htcs]
    · rw [hdp, Datapath.swDone_copies]
      rfl
    · rw [hdp, Datapath.swDone_frames]
      rfl
    · rw [hdp, Datapath.mem_swDone_sw, Datapath.mem_flushing_sw, mem_flushed]
      rfl
    · rw [hdp]
      refine Datapath.rd_swDone_done (fun q hq => ?_) ?_
      · rw [Datapath.mem_flushing_sw, hsw, mem_flushed] at hq
        obtain ⟨c, hc, -, rfl⟩ := hq.resolve_left List.not_mem_nil
        exact hempty c hc
      · obtain ⟨q, hq⟩ := List.exists_mem_of_ne_nil _ (flushed_ne_nil port htcs htcs0)
        exact List.ne_nil_of_mem ((s.dp.mem_flushing_sw port tcs q).2 (.inr hq))
  · have hmem : (cid, c) ∈ s.dp.copies := (List.mem_filter.1 (hone ▸ List.mem_singleton_self _)).1
    obtain ⟨hgone, hothers, hptr, htally⟩ := Datapath.endCopy_counted
      (d := { s.dp with cel := { s.dp.cel with flushPtr := c.q + 1 } }) hmem (portOfQ c.q) T.Q_DROP_FLUSH
    rw [← Datapath.flushRemove_one hone] at hgone hothers hptr htally
    exact ⟨_, rfl, rfl, rfl, hgone, hothers, hptr, htally⟩
  · obtain ⟨hregs, hpending, hdp⟩ := State.regWrite_onDp hr (fun d => d.writeRedSeed be data)
    refine ⟨_, rfl, hregs, hpending, ?_, fun p hp => ?_⟩ <;> rw [hdp]
    · rfl
    · exact s.dp.rngOf_writeRedSeed be data hp
  · obtain ⟨hregs, hpending, hdp⟩ := State.regWrite_onDp hr (fun d => d.writeQCfg n be data)
    refine ⟨_, rfl, hregs, hpending, ?_, fun hup hover => ?_, fun hok => ?_⟩ <;> rw [hdp]
    · exact s.dp.writeQCfg_frame n be data
    · rw [Datapath.writeQCfg_refused hd hup hover]
      exact Datapath.rd_minRefused s.dp d n
    · exact Datapath.writeQCfg_taken hd hok

end Sys2Proof.Machine

/-! ## The sectors of the cellar and of the lofts (R330 to R333, R337 to R339) -/

namespace Sys2Proof.Machine

/-! ### Frames and copies by their numbers -/

theorem Datapath.frame_setFrame_ne (d : Datapath) {f k : Nat} (h : k ≠ f) (x : Frame) : (d.setFrame f x).frame k = d.frame k :=
  Tab.find_set_ne _ h _

theorem Datapath.copy_setCopy_ne (d : Datapath) {c k : Nat} (h : k ≠ c) (x : Copy) : (d.setCopy c x).copy k = d.copy k :=
  Tab.find_set_ne _ h _

theorem Datapath.modFrame_frame {d : Datapath} {f : Nat} {x : Frame} (hx : d.frame f = some x) (g : Frame → Frame) :
    d.modFrame f g = d.setFrame f (g x) := by
  unfold Datapath.modFrame
  rw [hx]

theorem Datapath.modCopy_copy {d : Datapath} {cid : Nat} {c : Copy} (hc : d.copy cid = some c) (g : Copy → Copy) :
    d.modCopy cid g = d.setCopy cid (g c) := by
  unfold Datapath.modCopy
  rw [hc]

/-- Whether e is d but for the frame of number f. -/
def Datapath.SameBut (d : Datapath) (f : Nat) (e : Datapath) : Prop :=
  { e with frames := d.frames } = d ∧ ∀ k, k ≠ f → e.frame k = d.frame k

theorem Datapath.SameBut.refl (d : Datapath) (f : Nat) : d.SameBut f d := ⟨rfl, fun _ _ => rfl⟩

theorem Datapath.SameBut.setFrame {d e : Datapath} {f : Nat} (h : d.SameBut f e) (x : Frame) : d.SameBut f (e.setFrame f x) :=
  ⟨h.1, fun k hk => (e.frame_setFrame_ne hk x).trans (h.2 k hk)⟩

theorem Datapath.SameBut.cel {d e : Datapath} {f : Nat} (h : d.SameBut f e) : e.cel = d.cel := (congrArg Datapath.cel h.1 :)
theorem Datapath.SameBut.copies {d e : Datapath} {f : Nat} (h : d.SameBut f e) : e.copies = d.copies :=
  (congrArg Datapath.copies h.1 :)

/-! ### The places of a frame's sectors (R344, R346) -/

/-- A frame without the account of its charged cells. -/
def Frame.uncharged (x : Frame) : Frame := { x with srcs := [], chMin := 0, chPool := 0, chHr := 0, chLand := 0 }

@[simp] theorem Frame.withSrcs_uncharged (x : Frame) (t : Tab Nat) : (x.withSrcs t).uncharged = x.uncharged := rfl

/-- A frame that takes new places changes in them and in what is charged for them alone. -/
theorem Datapath.placed_keeps (d : Datapath) (f : Nat) (x : Frame) (locs : List Nat) :
    d.SameBut f (d.placed f x locs) ∧
      ∃ z, (d.placed f x locs).frame f = some z ∧ z.uncharged = ({ x with locs := locs } : Frame).uncharged := by
  unfold Datapath.placed
  dsimp only
  generalize (locs.map cellKey).eraseDups = keys
  have hcharged := foldl_keeps (fun a : Datapath × Frame => d.SameBut f a.1 ∧ a.2.uncharged = x.uncharged)
    (fun a k => (a.1.setFrame f (a.1.chargeCell a.2 k), a.1.chargeCell a.2 k))
    (fun a k h => ⟨h.1.setFrame _, h.2⟩) (keys.filter (fun k => (Tab.find x.srcs k).isNone)) (d.setFrame f x, x)
    ⟨(Datapath.SameBut.refl d f).setFrame x, rfl⟩
  exact ⟨hcharged.1.setFrame _, _, Datapath.frame_setFrame _ _ _,
    congrArg (fun y : Frame => ({ y with locs := locs } : Frame)) hcharged.2⟩

/-! ### A writer's open cell (R330, R331, R333) -/

@[simp] theorem Cellar.closeCell_cells (k : Cellar) (w : Nat) : (k.closeCell w).cells = k.cells := by
  unfold Cellar.closeCell
  split <;> rfl

@[simp] theorem Cellar.closeCell_lofts (k : Cellar) (w : Nat) : (k.closeCell w).lofts = k.lofts := by
  unfold Cellar.closeCell
  split <;> rfl

theorem Cellar.closeCell_closed (k : Cellar) (w : Nat) : Tab.find (k.closeCell w).openCell w = none := by
  unfold Cellar.closeCell
  split
  · assumption
  · exact Tab.find_erase_same _ _

section

variable {k : Cellar} {w c : Nat} (hc : Tab.find k.openCell w = some c)
include hc

theorem Cellar.openFor_open : k.openFor w = (k, some c) := by
  unfold Cellar.openFor
  rw [hc]

/-- The cells of the cellar after a writer stored in its open cell: up to eight sectors fill it, and a full cell is closed. -/
theorem Cellar.store_open {y : Cell'} (hy : Tab.get k.cells c {} = y) {n m : Nat} (hm : m = min n (8 - y.fill)) :
    (k.store w n).1.cells = Tab.set k.cells c ⟨y.live + m, y.fill + m, decide (y.fill + m < 8)⟩ ∧
      (k.store w n).1.lofts = k.lofts ∧
      (k.store w n).2 = (List.range m).map (fun i => 2 * (8 * c + y.fill + i) + 1) := by
  subst hy hm
  unfold Cellar.store
  rw [Cellar.openFor_open hc]
  dsimp only
  refine ⟨?_, ?_, rfl⟩ <;> split
  · rfl
  · exact Cellar.closeCell_cells _ _
  · rfl
  · exact Cellar.closeCell_lofts _ _

end

/-- A writer that stores sectors changes the cellar, and what is noted of the clock. -/
theorem Datapath.storeBy_frame (d : Datapath) (w n : Nat) :
    { (d.storeBy w n).1 with cel := d.cel, together := d.together } = d := by
  unfold Datapath.storeBy
  dsimp only
  split
  · split <;> rfl
  · rfl

section

variable {d : Datapath} {w c : Nat} (hc : Tab.find d.cel.openCell w = some c)
include hc

theorem Datapath.storeBy_cel (n : Nat) : (d.storeBy w n).1.cel = (d.cel.store w n).1 := by
  unfold Datapath.storeBy
  rw [Cellar.openFor_open hc]
  dsimp only
  split <;> rfl

theorem Datapath.storeBy_places (n : Nat) : (d.storeBy w n).2 = (d.cel.store w n).2 := by
  unfold Datapath.storeBy
  rw [Cellar.openFor_open hc]

end

/-! ### Stalls (R331) -/

theorem Datapath.rd_pmnSet {g : RegField} {i j : Nat} (h : g.reg.addr i j ≠ Reg.pmnEvt.addr 0 0) (d : Datapath) (k kind : Nat) :
    (d.pmnSet k kind).rd g i j = d.rd g i j := by
  have hreg : (pmnEvtField kind).reg = .pmnEvt := by
    unfold pmnEvtField
    split <;> rfl
  have hwr := d.rd_wr_ne (pmnEvtField kind) g 0 0 i j (setBit (d.rd (pmnEvtField kind)) k true) (by rw [hreg]; exact h)
  unfold Datapath.pmnSet
  dsimp only
  split <;> exact hwr

/-- A counter's step reaches PMN_EVT alone among the registers. -/
theorem Datapath.rd_pmnAdd {g : RegField} {i j : Nat} (h : g.reg.addr i j ≠ Reg.pmnEvt.addr 0 0) (d : Datapath) (k n : Nat) :
    (d.pmnAdd k n).rd g i j = d.rd g i j := by
  unfold Datapath.pmnAdd
  dsimp only
  split <;> split
  · exact (Datapath.rd_pmnSet h _ _ _).trans (Datapath.rd_pmnSet h _ _ _)
  · exact Datapath.rd_pmnSet h _ _ _
  · exact Datapath.rd_pmnSet h _ _ _
  · rfl

theorem Datapath.rd_pmnEvent {g : RegField} {i j : Nat} (h : g.reg.addr i j ≠ Reg.pmnEvt.addr 0 0) (d : Datapath) (e x n : Nat)
    (b : Bool) : (d.pmnEvent e x n b).rd g i j = d.rd g i j := by
  unfold Datapath.pmnEvent
  split
  · rfl
  · dsimp only
    generalize (if b = true then d.wr F.pmnCtl_RUN 1 else d) = d'
    refine loop_keeps (fun z : Datapath => z.rd g i j = d.rd g i j) _ (fun k z hz => ?_) 8 d rfl
    split
    · exact (Datapath.rd_pmnAdd h z k n).trans hz
    · exact hz

/-- A stall presents nothing: it sets WRITE_STALL and is counted. -/
theorem Datapath.writeStall_keeps (d : Datapath) (pen : Nat) :
    (d.writeStall pen).copies = d.copies ∧ (d.writeStall pen).frames = d.frames ∧ (d.writeStall pen).cel = d.cel ∧
      (d.writeStall pen).rd F.celEvt_WRITE_STALL = 1 := by
  have hrest : (d.writeStall pen).pmnRest = (d.wr F.celEvt_WRITE_STALL 1).pmnRest := Datapath.pmnEvent_rest ..
  exact ⟨(congrArg Datapath.copies hrest :), (congrArg Datapath.frames hrest :), (congrArg Datapath.cel hrest :),
    (Datapath.rd_pmnEvent (by decide) _ _ _ _ _).trans (Datapath.rd_wr_same _ _ _ _ _ (by decide))⟩

/-! ### BEAT_WRITE (R330, R331) -/

@[simp] theorem Frame.afterBeat_written (x : Frame) (m : Nat) : (x.afterBeat m).written = x.written + m := by
  unfold Frame.afterBeat
  dsimp only
  split <;> rfl
@[simp] theorem Frame.afterBeat_record (x : Frame) (m : Nat) : (x.afterBeat m).record = x.record := by
  unfold Frame.afterBeat
  dsimp only
  split <;> rfl
@[simp] theorem Frame.afterBeat_bytes (x : Frame) (m : Nat) : (x.afterBeat m).bytes = x.bytes := by
  unfold Frame.afterBeat
  dsimp only
  split <;> rfl
@[simp] theorem Frame.afterBeat_locs (x : Frame) (m : Nat) : (x.afterBeat m).locs = x.locs := by
  unfold Frame.afterBeat
  dsimp only
  split <;> rfl

/-- A frame's sectors take their places in the cellar and leave its staging. -/
def Datapath.beatStored (d : Datapath) (f : Nat) (x : Frame) (places : List Nat) : Datapath :=
  ((d.placed f { x with record := true } (x.locs ++ places)).modFrame f (fun y => y.afterBeat places.length)).xoffEval
    x.info.port x.tc

theorem Datapath.beatStored_keeps (d : Datapath) (f : Nat) (x : Frame) (places : List Nat) :
    (d.beatStored f x places).copies = d.copies ∧ (d.beatStored f x places).cel = d.cel ∧
      (∀ k, k ≠ f → (d.beatStored f x places).frame k = d.frame k) ∧
      ∃ z, (d.beatStored f x places).frame f = some z ∧ z.written = x.written + places.length ∧ z.record = true ∧
        z.bytes = x.bytes ∧ z.locs = x.locs ++ places := by
  obtain ⟨hsame, z, hz, hfields⟩ := d.placed_keeps f { x with record := true } (x.locs ++ places)
  have hmod := hsame.setFrame (z.afterBeat places.length)
  rw [← Datapath.modFrame_frame hz (fun y => y.afterBeat places.length)] at hmod
  refine ⟨?_, ?_, fun k hk => ?_, z.afterBeat places.length, ?_, ?_, ?_, ?_, ?_⟩
  · rw [Datapath.beatStored, Datapath.xoffEval_copies, hmod.copies]
  · rw [Datapath.beatStored, Datapath.xoffEval_cel, hmod.cel]
  · rw [Datapath.frame, Datapath.beatStored, Datapath.xoffEval_frames]
    exact hmod.2 k hk
  · rw [Datapath.frame, Datapath.beatStored, Datapath.xoffEval_frames, Datapath.modFrame_frame hz]
    exact Datapath.frame_setFrame _ _ _
  · rw [Frame.afterBeat_written]
    exact congrArg (· + places.length) (congrArg Frame.written hfields :)
  · rw [Frame.afterBeat_record]
    exact (congrArg Frame.record hfields :)
  · rw [Frame.afterBeat_bytes]
    exact (congrArg Frame.bytes hfields :)
  · rw [Frame.afterBeat_locs]
    exact (congrArg Frame.locs hfields :)

section

variable {d : Datapath} {f c : Nat} {x : Frame} (hx : d.frame f = some x) (hadm : x.admitted = true) (hl : x.loft = none)
  (hw : x.written < x.available) (hc : Tab.find d.cel.openCell x.inPen = some c)
include hx hadm hl hw hc

/-- A beat of an admitted frame outside the lofts, whose pen has an open cell, stalls or is stored in that cell. -/
theorem Datapath.beatWrite_cellar (stall : Bool) : d.beatWrite f stall =
    if stall && d.cel.second.contains x.inPen then d.writeStall x.inPen
    else (d.storeBy x.inPen (min 8 (x.available - x.written))).1.beatStored f x
      (d.storeBy x.inPen (min 8 (x.available - x.written))).2 := by
  have hm : ¬ min 8 (x.available - x.written) = 0 := by omega
  unfold Datapath.beatWrite
  simp only [hx, hadm, hl, hm, Datapath.toCellar, Datapath.beatStored, Cellar.openFor_open hc, Option.getD_some,
    Bool.not_true, decide_false, Bool.or_self, Bool.false_eq_true, if_false]

theorem Datapath.beatWrite_stalls (hs : d.cel.second.contains x.inPen = true) : d.beatWrite f true = d.writeStall x.inPen := by
  rw [Datapath.beatWrite_cellar hx hadm hl hw hc, hs]
  rfl

/-- A beat that does not stall fills the open cell, as far as it has room, and the frame's sectors lie there (R330). -/
theorem Datapath.beatWrite_stores {stall : Bool} (hs : stall = false ∨ d.cel.second.contains x.inPen = false) {y : Cell'}
    (hy : Tab.get d.cel.cells c {} = y) {m : Nat} (hm : m = min (min 8 (x.available - x.written)) (8 - y.fill)) :
    (d.beatWrite f stall).copies = d.copies ∧ (∀ k, k ≠ f → (d.beatWrite f stall).frame k = d.frame k) ∧
      (∃ z, (d.beatWrite f stall).frame f = some z ∧ z.written = x.written + m ∧ z.record = true ∧ z.bytes = x.bytes ∧
        z.locs = x.locs ++ (List.range m).map (fun i => 2 * (8 * c + y.fill + i) + 1)) ∧
      Tab.get (d.beatWrite f stall).cel.cells c {} = ⟨y.live + m, y.fill + m, decide (y.fill + m < 8)⟩ := by
  have hgo : ¬ (stall && d.cel.second.contains x.inPen) = true := by
    rcases hs with hs | hs <;> rw [hs] <;> simp
  obtain ⟨hcells, -, hplaces⟩ := Cellar.store_open hc hy hm
  have hframe := d.storeBy_frame x.inPen (min 8 (x.available - x.written))
  rw [Datapath.beatWrite_cellar hx hadm hl hw hc, if_neg hgo, Datapath.storeBy_places hc, hplaces]
  obtain ⟨hcopies, hcel, hothers, z, hz, hwritten, hrecord, hbytes, hlocs⟩ :=
    (d.storeBy x.inPen (min 8 (x.available - x.written))).1.beatStored_keeps f x
      ((List.range m).map (fun i => 2 * (8 * c + y.fill + i) + 1))
  refine ⟨hcopies.trans (congrArg Datapath.copies hframe :), fun k hk => (hothers k hk).trans
    (congrArg (fun e : Datapath => e.frame k) hframe :), ⟨z, hz, ?_, hrecord, hbytes, hlocs⟩, ?_⟩
  · rw [hwritten, List.length_map, List.length_range]
  · rw [hcel, Datapath.storeBy_cel hc, hcells, Tab.get_set_same]

end

/-! ### LOFT_SINK_START (R338, R339) -/

@[simp] theorem Datapath.loft_setLoft (d : Datapath) (n : Nat) (l : Loft) : (d.setLoft n l).loft n = l := Tab.get_put_same _ _ _ _

theorem Datapath.sinkStart_off {d : Datapath} {n : Nat} (h : (d.loft n).sinking = true ∨ d.loftFree n = 256) :
    d.sinkStart n = d := if_pos (by simpa using h)

theorem Datapath.unread_head {d : Datapath} {f cid : Nat} {c : Copy} {rest : List (Nat × Copy)}
    (hcopies : d.copiesOf f = (cid, c) :: rest) (hr : c.read = 0) (ha : c.ahead = []) : d.unread f = true := by
  simp [Datapath.unread, hcopies, hr, ha]

/-- A frame of a loft that begins to sink: it takes a frame record and is to be moved, which is counted (R338, R339). -/
def Datapath.toMove (d : Datapath) (f : Nat) : Datapath :=
  match d.frame f, (d.copiesOf f).head? with
  | some x, some c => (d.setFrame f { x with record := true, moving := true }).tallyAdd (portOfQ c.2.q) T.LOFT_SINK
  | _, _ => d

/-- A loft as its one frame, unread, is to be moved. -/
def Datapath.sinkOpened (d : Datapath) (n f : Nat) : Datapath :=
  let d' := d.setLoft n { d.loft n with sinking := true, frames := [], moving := [f] }
  { d' with cel := { d'.cel with sinkOrder := d.cel.sinkOrder ++ [n] } }

@[simp] theorem Datapath.sinkOpened_loft (d : Datapath) (n f : Nat) :
    (d.sinkOpened n f).loft n = { d.loft n with sinking := true, frames := [], moving := [f] } := Tab.get_put_same _ _ _ _

theorem Datapath.sinkStart_one {d : Datapath} {n f : Nat} (hs : (d.loft n).sinking = false) (hfree : d.loftFree n ≠ 256)
    (hf : (d.loft n).frames = [f]) (hunread : d.unread f = true) : d.sinkStart n = (d.sinkOpened n f).toMove f := by
  have hgo : [f].filter d.unread = [f] := by simp [hunread]
  have hkept : [f].filter (fun g => !([f] : List Nat).contains g) = [] := by simp
  unfold Datapath.sinkStart
  simp only [hs, hfree, hf, hgo, hkept, decide_false, Bool.or_self, Bool.false_eq_true, if_false, List.foldl_cons, List.foldl_nil]
  rfl

theorem Datapath.toMove_copy {d : Datapath} {f cid : Nat} {c : Copy} {rest : List (Nat × Copy)} {x : Frame}
    (hx : d.frame f = some x) (hcopies : d.copiesOf f = (cid, c) :: rest) :
    d.toMove f = (d.setFrame f { x with record := true, moving := true }).tallyAdd (portOfQ c.q) T.LOFT_SINK := by
  unfold Datapath.toMove
  rw [hx, hcopies]
  rfl

/-- A loft whose one frame is unread begins to sink (R338, R339). -/
theorem Datapath.sinkStart_keeps {d : Datapath} {n f cid : Nat} {c : Copy} {rest : List (Nat × Copy)} {x : Frame}
    (hs : (d.loft n).sinking = false) (hfree : d.loftFree n ≠ 256) (hf : (d.loft n).frames = [f]) (hx : d.frame f = some x)
    (hcopies : d.copiesOf f = (cid, c) :: rest) (hunread : d.unread f = true) :
    (d.sinkStart n).copies = d.copies ∧
      (d.sinkStart n).loft n = { d.loft n with sinking := true, frames := [], moving := [f] } ∧
      (d.sinkStart n).cel.sinkOrder = d.cel.sinkOrder ++ [n] ∧
      (d.sinkStart n).frame f = some { x with record := true, moving := true } ∧
      Tab.get (d.sinkStart n).tally (128 * portOfQ c.q + T.LOFT_SINK) 0 =
        (Tab.get d.tally (128 * portOfQ c.q + T.LOFT_SINK) 0 + d.tallyStep (portOfQ c.q)) % 2 ^ 56 := by
  have hx' : (d.sinkOpened n f).frame f = some x := hx
  have hcopies' : (d.sinkOpened n f).copiesOf f = (cid, c) :: rest := hcopies
  rw [Datapath.sinkStart_one hs hfree hf hunread, Datapath.toMove_copy hx' hcopies']
  refine ⟨?_, ?_, ?_, ?_, ?_⟩
  · rw [Datapath.tallyAdd_copies]
    rfl
  · rw [Datapath.loft, Datapath.tallyAdd_cel]
    exact d.sinkOpened_loft n f
  · rw [Datapath.tallyAdd_cel]
    rfl
  · rw [Datapath.frame, Datapath.tallyAdd_frames]
    exact Datapath.frame_setFrame _ _ _
  · rw [Datapath.tallyAdd_tally, Tab.get_put_same, Nat.one_mul]
    rfl

/-! ### SINK_MOVE (R339) -/

/-- Within a list no default is read. -/
theorem getD_of_lt {l : List Nat} {j : Nat} (h : j < l.length) (v : Nat) : l.getD j v = l[j] := by
  rw [List.getD_eq_getElem?_getD, List.getElem?_eq_getElem h, Option.getD_some]

/-- The places of a frame of which some are replaced. -/
def replaced (ps : List (Nat × Nat)) (locs : List Nat) : List Nat := ps.foldl (fun l m => modAt (fun _ => m.2) l m.1) locs

@[simp] theorem length_replaced (ps : List (Nat × Nat)) (locs : List Nat) : (replaced ps locs).length = locs.length :=
  foldl_keeps (fun l : List Nat => l.length = locs.length) _ (fun l m h => (length_modAt _ l m.1).trans h) ps locs rfl

/-- A place is in the cellar if it was, or if it is replaced and every replacement lies there. -/
theorem replaced_odd {ps : List (Nat × Nat)} (hps : ∀ p, p ∈ ps → p.2 % 2 = 1) {j : Nat} {locs : List Nat}
    (h : locs.getD j 1 % 2 = 1 ∨ j ∈ ps.map Prod.fst) : (replaced ps locs).getD j 1 % 2 = 1 := by
  induction ps generalizing locs with
  | nil => exact h.resolve_right List.not_mem_nil
  | cons p ps ih =>
    refine ih (fun q hq => hps q (List.mem_cons_of_mem _ hq)) (?_ : (modAt (fun _ => p.2) locs p.1).getD j 1 % 2 = 1 ∨ _)
    rw [getD_modAt]
    rcases h with h | h
    · refine .inl ?_
      split
      · exact hps p List.mem_cons_self
      · exact h
    · rcases List.mem_cons.1 h with rfl | h
      · refine .inl ?_
        split
        · exact hps p List.mem_cons_self
        · next hout =>
          rw [List.getD_eq_getElem?_getD, List.getElem?_eq_none (Nat.not_lt.1 fun hlt => hout ⟨rfl, hlt⟩)]
          rfl
      · exact .inr h

/-- The sectors of a frame that lie in its loft, by number. -/
def loftSectors (locs : List Nat) : List Nat := (List.range locs.length).filter (fun j => locs.getD j 1 % 2 = 0)

/-- Once each sector that lies in the loft has taken a place in the cellar, all lie there. -/
theorem replaced_all_odd {locs places : List Nat} (hlen : (loftSectors locs).length ≤ places.length)
    (hodd : ∀ v, v ∈ places → v % 2 = 1) {v : Nat} (hv : v ∈ replaced ((loftSectors locs).zip places) locs) : v % 2 = 1 := by
  obtain ⟨j, hj, rfl⟩ := List.mem_iff_getElem.1 hv
  rw [← getD_of_lt hj 1]
  refine replaced_odd (fun p hp => hodd p.2 (List.of_mem_zip hp).2) ?_
  rw [length_replaced] at hj
  rw [List.map_fst_zip hlen, loftSectors, List.mem_filter, List.mem_range]
  rcases Nat.mod_two_eq_zero_or_one (locs.getD j 1) with h | h
  · exact .inr ⟨hj, by simpa using h⟩
  · exact .inl h

/-- The datapath as a sink engine begins a move: the loft has its engine, and the choice whether it stalls is drawn. -/
def Datapath.engineAt (d : Datapath) (n e : Nat) : Datapath :=
  let d' := d.setLoft n { d.loft n with engine := some e }
  { d' with cel := { d'.cel with draws := d.cel.draws + 1 } }

/-- A frame all of whose sectors lie in the cellar leaves its loft. -/
def Datapath.leaveLoft (d : Datapath) (n f : Nat) : Datapath :=
  (d.modFrame f (fun y => { y with moving := false, loft := none })).setLoft n
    { d.loft n with moving := (d.loft n).moving.filter (· ≠ f) }

@[simp] theorem Datapath.engineAt_loft (d : Datapath) (n e : Nat) :
    (d.engineAt n e).loft n = { d.loft n with engine := some e } := Tab.get_put_same _ _ _ _

theorem Datapath.leaveLoft_keeps {d : Datapath} {f : Nat} {z : Frame} (hz : d.frame f = some z) (n : Nat) :
    (d.leaveLoft n f).copies = d.copies ∧
      (d.leaveLoft n f).frame f = some { z with moving := false, loft := none } ∧
      (d.leaveLoft n f).loft n = { d.loft n with moving := (d.loft n).moving.filter (· ≠ f) } := by
  unfold Datapath.leaveLoft
  rw [Datapath.modFrame_frame hz]
  exact ⟨rfl, Datapath.frame_setFrame d f _, Datapath.loft_setLoft _ _ _⟩

section

variable {d : Datapath} {e n f c : Nat} {x : Frame} (hloft : d.sinkLoft e = some n) (hnext : d.nextMoving n = some f)
  (hx : d.frame f = some x) (hc : Tab.find d.cel.openCell (40 + e) = some c) (hs : d.cel.second.contains (40 + e) = false)
include hloft hnext hx hc hs

/-- A move of an engine that has an open cell and holds its bank. -/
theorem Datapath.sinkMove_moves {r : Datapath × List Nat} {locs : List Nat}
    (hr : r = (d.engineAt n e).storeBy (40 + e) (min 8 (loftSectors x.locs).length))
    (hlocs : locs = replaced ((loftSectors x.locs).zip r.2) x.locs) :
    d.sinkMove e = (if locs.any (fun v => v % 2 = 0) then r.1.placed f x locs
      else (r.1.placed f x locs).leaveLoft n f).xoffEval x.info.port x.tc := by
  subst hr hlocs
  have hnext' : (d.setLoft n { d.loft n with engine := some e }).nextMoving n = some f := by
    unfold Datapath.nextMoving
    rw [Datapath.loft_setLoft]
    exact hnext
  have hx' : (d.setLoft n { d.loft n with engine := some e }).frame f = some x := hx
  have hopen : (d.setLoft n { d.loft n with engine := some e }).cel.openFor (40 + e) =
      ((d.setLoft n { d.loft n with engine := some e }).cel, some c) := Cellar.openFor_open hc
  have hstall : (d.engineAt n e).sinkStalls (40 + e) = false := by
    unfold Datapath.sinkStalls
    rw [show (d.engineAt n e).cel.second = d.cel.second from rfl, hs]
    rfl
  unfold Datapath.sinkMove
  simp only [hloft, hnext', hx', hopen]
  exact if_neg fun h => Bool.false_ne_true (hstall.symm.trans h)

/-- A move that takes a frame's last sectors out of its loft (R339). -/
theorem Datapath.sinkMove_keeps {y : Cell'} (hy : Tab.get d.cel.cells c {} = y)
    (hroom : (loftSectors x.locs).length ≤ 8 - y.fill) :
    (d.sinkMove e).copies = d.copies ∧
      (∃ z, (d.sinkMove e).frame f = some z ∧ z.loft = none ∧ z.moving = false ∧ z.written = x.written ∧
        z.locs.length = x.locs.length ∧ ∀ v, v ∈ z.locs → v % 2 = 1) ∧
      f ∉ ((d.sinkMove e).loft n).moving ∧ ((d.sinkMove e).loft n).engine = some e := by
  have hc' : Tab.find (d.engineAt n e).cel.openCell (40 + e) = some c := hc
  obtain ⟨-, hlofts, hplaces⟩ := Cellar.store_open hc' hy
    (show (loftSectors x.locs).length = min (min 8 (loftSectors x.locs).length) (8 - y.fill) by omega)
  rw [← Datapath.storeBy_places hc'] at hplaces
  rw [← Datapath.storeBy_cel hc'] at hlofts
  have hframe := (d.engineAt n e).storeBy_frame (40 + e) (min 8 (loftSectors x.locs).length)
  have hmoves := Datapath.sinkMove_moves hloft hnext hx hc hs rfl rfl
  generalize (d.engineAt n e).storeBy (40 + e) (min 8 (loftSectors x.locs).length) = r at hlofts hplaces hframe hmoves
  have hodd : ∀ v, v ∈ replaced ((loftSectors x.locs).zip r.2) x.locs → v % 2 = 1 := fun v hv =>
    replaced_all_odd (by simp [hplaces]) (fun p hp => by
      rw [hplaces, List.mem_map] at hp
      obtain ⟨i, -, rfl⟩ := hp
      omega) hv
  have hlen := length_replaced ((loftSectors x.locs).zip r.2) x.locs
  generalize replaced ((loftSectors x.locs).zip r.2) x.locs = locs at hmoves hodd hlen
  rw [if_neg (by simpa using hodd)] at hmoves
  obtain ⟨hsame, z, hz, hfields⟩ := r.1.placed_keeps f x locs
  obtain ⟨hcopies, hleft, hgone⟩ := Datapath.leaveLoft_keeps hz n
  have hlocs : z.locs = locs := (congrArg Frame.locs hfields :)
  have hstays : (r.1.placed f x locs).loft n = { d.loft n with engine := some e } := by
    rw [Datapath.loft, hsame.cel, hlofts]
    exact d.engineAt_loft n e
  rw [hmoves]
  refine ⟨?_, ⟨{ z with moving := false, loft := none }, ?_, rfl, rfl, (congrArg Frame.written hfields :), ?_, ?_⟩, ?_, ?_⟩
  · rw [Datapath.xoffEval_copies, hcopies, hsame.copies]
    exact (congrArg Datapath.copies hframe :)
  · rw [Datapath.frame, Datapath.xoffEval_frames]
    exact hleft
  · exact (congrArg List.length hlocs).trans hlen
  · exact fun v hv => hodd v (hlocs ▸ hv)
  · rw [Datapath.loft, Datapath.xoffEval_cel]
    exact fun hmem => by simpa using (congrArg Loft.moving hgone ▸ hmem :)
  · rw [Datapath.loft, Datapath.xoffEval_cel]
    exact (congrArg Loft.engine hgone).trans (congrArg Loft.engine hstays)

end

/-! ### SINK_END (R333, R339) -/

/-- The cellar as the sink engine of a loft, if it has one, closes its cell. -/
def Cellar.engineStops (k : Cellar) (engine : Option Nat) : Cellar :=
  match engine with
  | some e =>
    match Tab.find k.openCell (40 + e) with
    | some c =>
      { k.closeCell (40 + e) with
        cells := if (Tab.get k.cells c {}).live = 0 then Tab.erase k.cells c
          else Tab.set k.cells c { Tab.get k.cells c {} with open' := false } }
    | none => k
  | none => k

theorem Cellar.engineStops_closed (k : Cellar) (e : Nat) : Tab.find (k.engineStops (some e)).openCell (40 + e) = none := by
  unfold Cellar.engineStops
  dsimp only
  split
  · exact k.closeCell_closed (40 + e)
  · assumption

theorem Datapath.sinkEnd_ends {d : Datapath} {n : Nat} (hs : (d.loft n).sinking = true) (hf : (d.loft n).frames = [])
    (hm : (d.loft n).moving = []) : d.sinkEnd n =
      ({ d with cel := { d.cel.engineStops (d.loft n).engine with
          sinkOrder := (d.cel.engineStops (d.loft n).engine).sinkOrder.filter (· ≠ n) } } : Datapath).setLoft n
        { d.loft n with sinking := false, engine := none } :=
  if_neg (by simp [hs, hf, hm])

/-! ### SECTOR_READ (R332, R337) -/

/-- The next sector read in order, where none beyond it was. -/
theorem Copy.took_read {c : Copy} (ha : c.ahead = []) : c.took c.read = { c with read := c.read + 1 } := by
  simp [Copy.took, ha, List.range_succ]

theorem Datapath.loopFeed_none {d : Datapath} {cid : Nat} {c : Copy} (hc : d.copy cid = some c) (hn : c.next = none) :
    d.loopFeed cid = d := by
  unfold Datapath.loopFeed
  rw [hc]
  dsimp only
  rw [hn]

/-- A copy that leaves through no loop port takes its next sector. -/
theorem Datapath.took_loopFeed {d : Datapath} {cid : Nat} {c : Copy} (hc : d.copy cid = some c) (hn : c.next = none)
    (ha : c.ahead = []) :
    (d.modCopy cid (fun c' => c'.took c.read)).loopFeed cid = d.setCopy cid { c with read := c.read + 1 } := by
  rw [Datapath.modCopy_copy hc, Copy.took_read ha]
  exact Datapath.loopFeed_none (Datapath.copy_setCopy _ _ _) hn

/-- The one sector that a copy has not read of those that have come. -/
theorem unread_one {n : Nat} {p : Nat → Bool} (hp : p n = true) :
    (List.range (n + 1)).filter (fun j => decide (n ≤ j) && p j) = [n] := by
  have hbelow : (List.range n).filter (fun j => decide (n ≤ j) && p j) = [] :=
    List.filter_eq_nil_iff.2 fun j hj => by
      rw [decide_eq_false (Nat.not_le.2 (List.mem_range.1 hj)), Bool.false_and]
      exact Bool.false_ne_true
  rw [List.range_succ, List.filter_append, hbelow]
  simp [hp]

/-- What a copy asks of the cellar that has one sector there unread. -/
theorem sectorReqs_one {c : Copy} {x : Frame} (ha : c.ahead = []) (hw : x.written = c.read + 1)
    (hodd : x.locs.getD c.read 0 % 2 = 1) (cid : Nat) :
    sectorReqs cid c x = [⟨cid, penOf (portOfQ c.q), c.read, x.locs.getD c.read 1 / 2⟩] := by
  unfold sectorReqs
  simp only [ha, hw, List.contains_nil, Bool.not_false, Bool.and_true]
  rw [unread_one (p := fun j => decide (x.locs.getD j 0 % 2 = 1)) (by simpa using hodd)]
  rfl

/-- A request alone in its clock wins its column (R332). -/
theorem Datapath.served_alone (d : Datapath) (r : SectorReq) : d.served [r] r = true := by
  simp [Datapath.served, Datapath.columnWinner]

section

variable {d : Datapath} {cid : Nat} {c : Copy} {x : Frame} (hc : d.copy cid = some c) (hx : d.frame c.fid = some x)
  (hg : c.granted = true) (hw : x.written = c.read + 1)
include hc hx hg hw

/-- A granted copy reads its one unread sector in its loft (R337). -/
theorem Datapath.sectorRead_loft (hl : c.readsLoft x = true) :
    d.sectorRead [cid] = (d.modCopy cid (fun c' => c'.took c.read)).loopFeed cid := by
  have heven : x.locs.getD c.read 1 % 2 = 0 := by
    simp only [Copy.readsLoft, Bool.and_eq_true, decide_eq_true_eq] at hl
    exact hl.2
  have hunread : ((List.range 8).map (fun k => c.read + k)).filter (fun j => j < x.written) = [c.read] := by
    simp [List.range_succ, hw]
  have hrun : [c.read].takeWhile (fun j => x.locs.getD j 1 % 2 = 0) = [c.read] := List.takeWhile_cons_of_pos (by simpa using heven)
  unfold Datapath.sectorRead
  simp only [List.filterMap_cons, List.filterMap_nil, hc, hg, if_true, hx, Option.map_some, List.foldl_cons, List.foldl_nil,
    List.any_nil, Bool.false_eq_true, if_false, List.nil_append, List.flatMap_cons, List.flatMap_nil, hl, hunread, hrun]

/-- A granted copy reads its one unread sector in the cellar (R332). -/
theorem Datapath.sectorRead_cellar (ha : c.ahead = []) (hl : c.readsLoft x = false) (hodd : x.locs.getD c.read 0 % 2 = 1) :
    d.sectorRead [cid] =
      (({ d with cel := { d.cel with wait := Tab.erase d.cel.wait (1024 * cid + c.read) } } : Datapath).modCopy cid
        (fun c' => c'.took c.read)).loopFeed cid := by
  have hreqs := sectorReqs_one ha hw hodd cid
  have hserved := d.served_alone ⟨cid, penOf (portOfQ c.q), c.read, x.locs.getD c.read 1 / 2⟩
  unfold Datapath.sectorRead
  simp only [List.filterMap_cons, List.filterMap_nil, hc, hg, if_true, hx, Option.map_some, List.foldl_cons, List.foldl_nil,
    List.any_nil, Bool.false_eq_true, if_false, List.nil_append, List.flatMap_cons, List.flatMap_nil, hl, List.append_nil,
    List.filter_cons, decide_true, List.filter_nil]
  rw [hreqs]
  simp only [List.take_succ_cons, List.take_nil, List.foldl_cons, List.foldl_nil, hserved, if_true]

/-- A granted copy that leaves through no loop port reads its one unread sector, wherever it lies, and no other copy reads. -/
theorem Datapath.sectorRead_keeps (hn : c.next = none) (ha : c.ahead = []) (hr : c.read < x.locs.length)
    (hplace : x.moving = false ∨ x.locs.getD c.read 0 % 2 = 1) :
    (d.sectorRead [cid]).frames = d.frames ∧ (d.sectorRead [cid]).copy cid = some { c with read := c.read + 1 } ∧
      ∀ k, k ≠ cid → (d.sectorRead [cid]).copy k = d.copy k := by
  cases hl : c.readsLoft x with
  | true =>
    rw [Datapath.sectorRead_loft hc hx hg hw hl, Datapath.took_loopFeed hc hn ha]
    exact ⟨rfl, Datapath.copy_setCopy _ _ _, fun k hk => Datapath.copy_setCopy_ne _ hk _⟩
  | false =>
    have hodd : x.locs.getD c.read 0 % 2 = 1 := by
      refine hplace.elim (fun hm => ?_) id
      have hdefault : x.locs.getD c.read 0 = x.locs.getD c.read 1 := by
        rw [getD_of_lt hr, getD_of_lt hr]
      rw [hdefault]
      simpa [Copy.readsLoft, hw, hm] using hl
    rw [Datapath.sectorRead_cellar hc hx hg hw ha hl hodd, Datapath.took_loopFeed (by exact hc) hn ha]
    exact ⟨rfl, Datapath.copy_setCopy _ _ _, fun k hk => Datapath.copy_setCopy_ne _ hk _⟩

end

/-- Settles O44: each command is one case of its operation, in which a writer's open cell takes the sectors, the frame takes their
places, or the copy takes its next sector. -/
theorem cellarSectors : Obligations.CellarSectors := by
  unfold Obligations.CellarSectors
  refine ⟨fun s f c stall x y hx hadm hl hw hc hy _ => ?_, fun s a b f cid c rest x hs hfree hf hx hcopies hr ha => ?_,
    fun s a b h => ?_, fun s e n f c x y hloft hnext hx hc hy hs hroom => ?_, fun s a b hs hf hm => ?_,
    fun s cid c x hc hx hg hn ha hw hr hplace => ?_⟩
  · refine ⟨s.onDp (fun d => d.beatWrite f stall), rfl, rfl, rfl, ?_⟩
    by_cases hstalls : stall = true ∧ s.dp.cel.second.contains x.inPen = true
    · obtain ⟨rfl, hsecond⟩ := hstalls
      obtain ⟨hkept, hframes, hcel, hflag⟩ := s.dp.writeStall_keeps x.inPen
      rw [← Datapath.beatWrite_stalls hx hadm hl hw hc hsecond] at hkept hframes hcel hflag
      exact ⟨hkept, fun k _ => congrArg (fun t => Tab.find t k) hframes,
        fun h => absurd (h.resolve_left (by decide)) (by rw [hsecond]; decide), fun _ _ => ⟨hframes, hcel, hflag⟩⟩
    · have hgo : stall = false ∨ s.dp.cel.second.contains x.inPen = false := by
        cases stall
        · exact .inl rfl
        · exact .inr (Bool.eq_false_iff.2 fun h => hstalls ⟨rfl, h⟩)
      obtain ⟨hkept, hothers, hstored⟩ := Datapath.beatWrite_stores hx hadm hl hw hc hgo hy rfl
      exact ⟨hkept, hothers, fun _ m hm => hm ▸ hstored, fun h1 h2 => absurd ⟨h1, h2⟩ hstalls⟩
  · obtain ⟨hkept, hsinks, horder, hframe, htally⟩ := Datapath.sinkStart_keeps hs hfree hf hx hcopies
      (Datapath.unread_head hcopies hr ha)
    exact ⟨_, rfl, rfl, rfl, hkept, hsinks, horder, hframe, htally⟩
  · exact congrArg (fun d => Host.Outcome.next { s with dp := d }) (Datapath.sinkStart_off h)
  · obtain ⟨hkept, hframe, hgone, hengine⟩ := Datapath.sinkMove_keeps hloft hnext hx hc hs hy hroom
    exact ⟨_, rfl, rfl, rfl, hkept, hframe, hgone, hengine⟩
  · have hends := Datapath.sinkEnd_ends hs hf hm
    have hloft : (s.dp.sinkEnd (40 * a + b)).loft (40 * a + b) =
        { s.dp.loft (40 * a + b) with sinking := false, engine := none } := by
      rw [hends]
      exact Datapath.loft_setLoft _ _ _
    refine ⟨_, rfl, rfl, rfl, ?_, (congrArg Loft.sinking hloft :), (congrArg Loft.engine hloft :), ?_, fun e he => ?_⟩
    all_goals rw [State.onDp_dp, hends]
    · rfl
    · exact fun hmem => by simpa using (List.mem_filter.1 hmem).2
    · rw [he]
      exact s.dp.cel.engineStops_closed e
  · obtain ⟨hkept, hcopy, hothers⟩ := Datapath.sectorRead_keeps hc hx hg hw hn ha hr hplace
    exact ⟨_, rfl, rfl, rfl, hkept, hcopy, hothers⟩

end Sys2Proof.Machine
